-- ==== Sys2Proof/Word.lean ====
section
/-! DEFINITION. The word types of the BQ-7192 (R4, R9): 36-bit data words, 32-bit setup registers, bytes. -/

namespace Sys2Proof

/-- The native word of the device (R4). -/
abbrev Word := BitVec 36
/-- A setup register (R9). -/
abbrev Reg32 := BitVec 32
/-- One byte of host or device memory. -/
abbrev Byte := BitVec 8

end Sys2Proof
end

