-- ==== Sys2Proof/Machine/Bits.lean ====
section
/-! DEFINITION. Bit fields, signs, rounding and saturation: the number formats of R4 to R7 and R33. -/

namespace Sys2Proof.Machine

/-- Field of `len` bits from bit `lo` of a number. -/
def bitsAt (x lo len : Nat) : Nat := x / 2 ^ lo % 2 ^ len

/-- Field of `len` bits from bit `lo` of a bit vector. -/
def fld {w : Nat} (v : BitVec w) (lo len : Nat) : Nat := bitsAt v.toNat lo len

/-- One bit of a bit vector. -/
def bit {w : Nat} (v : BitVec w) (b : Nat) : Bool := v.getLsbD b

/-- The mask of a field. -/
def fldMask (w lo len : Nat) : BitVec w := BitVec.ofNat w ((2 ^ len - 1) * 2 ^ lo)

/-- Replace a field. -/
def setFld {w : Nat} (v : BitVec w) (lo len x : Nat) : BitVec w :=
  (v &&& ~~~(fldMask w lo len)) ||| BitVec.ofNat w (x % 2 ^ len * 2 ^ lo)

/-- Replace one bit. -/
def setBit {w : Nat} (v : BitVec w) (b : Nat) (on : Bool) : BitVec w :=
  setFld v b 1 (if on then 1 else 0)

/-- The two's-complement value of the low `n` bits of a number. -/
def sval (n x : Nat) : Int :=
  let y := x % 2 ^ n
  if 2 * y < 2 ^ n then (y : Int) else (y : Int) - (2 : Int) ^ n

/-- The low `n` bits of an integer, as a number. -/
def wrap (n : Nat) (x : Int) : Nat := (x % (2 : Int) ^ n).toNat

/-- Saturate to the signed range of `n` bits. -/
def satS (n : Nat) (x : Int) : Int :=
  max (-(2 : Int) ^ (n - 1)) (min ((2 : Int) ^ (n - 1) - 1) x)

/-- Does a signed value fall outside `n` bits? -/
def ovfS (n : Nat) (x : Int) : Bool := satS n x != x

/-- Clamp an integer between two bounds. -/
def clampI (lo hi x : Int) : Int := max lo (min hi x)

/-- Nearest integer to `x / d`, a tie going to the even one; `d` positive. -/
def roundEven (x : Int) (d : Nat) : Int :=
  let q := x / (d : Int)
  let r := x % (d : Int)
  if 2 * r < d then q else if 2 * r > d then q + 1 else if q % 2 = 0 then q else q + 1

/-- A value shifted right by `n` bits with convergent rounding (ties to even). -/
def shrEven (x : Int) (n : Nat) : Int := roundEven x (2 ^ n)

/-- Short tide `s` resolved against integer Tide Time `t` (R6). -/
def resolveTide (t : Int) (s : Nat) : Int :=
  let base := t - 2 ^ 35
  base + (((s : Int) - base) % 2 ^ 36)

/-- Tone frequency word from its two words (R5). -/
def toneF (lo hi : Word) : BitVec 52 := BitVec.ofNat 52 (lo.toNat + fld hi 0 16 * 2 ^ 36)

/-- The I half of a complex word (R4), as an integer in units of 2⁻¹⁷. -/
def cI (w : Word) : Int := sval 18 (fld w 18 18)
/-- The Q half of a complex word (R4), as an integer in units of 2⁻¹⁷. -/
def cQ (w : Word) : Int := sval 18 (fld w 0 18)
/-- A complex word from its halves (R4). -/
def mkC (i q : Int) : Word := BitVec.ofNat 36 (wrap 18 i * 2 ^ 18 + wrap 18 q)

/-- Saturating 32-bit counter increment. -/
def satInc (v : Reg32) (n : Nat) : Reg32 := BitVec.ofNat 32 (min (2 ^ 32 - 1) (v.toNat + n))

/-- A number as a register value. -/
def r32 (x : Nat) : Reg32 := BitVec.ofNat 32 x

/-- Bytes of a number, least significant first. -/
def leBytes (n x : Nat) : List Byte := (List.range n).map (fun i => BitVec.ofNat 8 (x / 2 ^ (8 * i)))

/-- The number little-endian bytes spell. -/
def ofBytes : List Byte → Nat
  | [] => 0
  | b :: t => b.toNat + 2 ^ 8 * ofBytes t

/-- Eight steps of the reflected polynomial. -/
def crcStep (x : BitVec 32) : Nat → BitVec 32
  | 0 => x
  | n + 1 => crcStep (if bit x 0 then (x >>> 1) ^^^ 0xEDB88320 else x >>> 1) n

/-- CRC-32 of a byte string. -/
def crc32 (l : List Byte) : BitVec 32 := ~~~(l.foldl (fun x y => crcStep (x ^^^ y.setWidth 32) 8) 0xFFFFFFFF)

end Sys2Proof.Machine
end

