-- ==== Sys2Proof/Syntax.lean ====
section
/-! DEFINITION. The commands of the block: one constructor of `Instr` per row of the opcode table, with the row's
operands.  What the outside world supplies with a command (host read data, samples, sensor readings, received frames)
is an operand of it. -/

namespace Sys2Proof

/-- A ring frame (R54, R55): the header fields of H and the payload of D1, D2 and D3[63:32]. TYPE is a field so that
reserved types can be received (R56). -/
structure Frame where
  type : BitVec 4
  src : BitVec 4
  dst : BitVec 4
  bcast : Bool
  orig : Bool
  wrapped : Bool
  hops : BitVec 5
  term : BitVec 8
  seq : BitVec 16
  arg : BitVec 12
  d1 : BitVec 64
  d2 : BitVec 64
  d3 : BitVec 32
  deriving DecidableEq, Repr

/-- A frame arriving at a ring input: the ring (false A, true B), the frame, and the sixteenth of the core cycle in
which its first bit passed the PMA boundary (R58). -/
structure Rx where
  ringB : Bool
  frame : Frame
  sub : BitVec 4
  deriving DecidableEq, Repr

/-- A converter port with a core of its own (R104, R120, R134): D0-D63 and P0-P15 as ports 0-79, F0-F31, M0-M15. -/
inductive PortRef where
  | dp (p : Nat)
  | fx (f : Nat)
  | rx (n : Nat)
  deriving DecidableEq, Repr

/-- What the governor can park (R397): a port, a cove. -/
inductive ParkRef where
  | port (p : PortRef)
  | cove (n : Nat)
  deriving DecidableEq, Repr

/-- The source that reaches a capture unit (R45): an event channel, or an edge of a trigger pin with its sixteenth of a
nanosecond. -/
inductive CapSrc where
  | chan (ch : Nat)
  | pin (p : Nat) (rising : Bool) (sub : BitVec 4)
  deriving DecidableEq, Repr

/-- The commands of the block. -/
inductive Instr where
  /-- REGISTER_WRITE (R455): A BAR0 or TIME_CONTROL write to a setup register that has no row of its own is judged
      whole and then applied or refused under the access codes, with _HI writes committing staged _LO values. -/
  | registerWrite (off : Nat) (bytes : Nat) (v : Nat)
  /-- TIDE_NOW_LO_READ (R49): A read of TIDE_NOW_LO returns the low integer Tide Time and snapshots TIDE_NOW_HI,
      TIDE_NOW_FRAC and the Phase Count registers. -/
  | tideNowLoRead
  /-- SLOT_PEEK_READ (R178): A read of SLOT_PEEK returns the selected slot or mirror entry and snapshots its stamp
      registers. -/
  | slotPeekRead
  /-- DT_RESULT_LO_READ (R178): A read of DTt_RESULT_LO returns the table's last result and snapshots DTt_RESULT_HI
      and DTt_STATUS. -/
  | dtResultLoRead (t : Fin 8)
  /-- FUSE_RD_LO_READ (R377): A read of FUSE_RD_LO fetches the fuse word at FUSE_RD_ADDR and snapshots FUSE_RD_HI. -/
  | fuseRdLoRead
  /-- TILE_ERR_TT_LO_READ (R416): A read of TILE_ERR_TT_LO returns ERR_TT and snapshots TILE_ERR_TT_HI. -/
  | tileErrTtLoRead
  /-- PCNT_LO_READ (R420): A read of PCNTn_LO returns the counter's low bits and snapshots its high bits into
      PCNTn_HI. -/
  | pcntLoRead (n : Fin 32)
  /-- PCNT_HI_WRITE (R420): A write of PCNTn_HI commits a new 48-bit counter value, dropping that cycle's increment
      while a carry from the old value still propagates. -/
  | pcntHiWrite (n : Fin 32) (v : Reg32)
  /-- TIDE_INC_WRITE (R29): A write to TIDE_INC is checked and staged, becoming active at the next Slack commit point
      or at once while the grid is stopped. -/
  | tideIncWrite (v : Reg32)
  /-- ANCHOR (R47): A write of ANCHOR in TIDE_CTL requests anchoring, which is refused unless the device or group is
      quiescent and locked. -/
  | anchor (v : Reg32)
  /-- ANCHOR_INSTANT (R48): At the anchor instant every device of the group zeroes the Phase Count, loads Tide Time
      from TIDE_SET, zeroes SHOT_EPOCH, disarms alarms, clears captures and sets ANCHORED. -/
  | anchorInstant
  /-- GRID_CMD_START (R42): A write of START to GRID_CMD starts the shot grid, sets GRID_RUN and fixes the first
      boundary at least 4,000 ns ahead. -/
  | gridCmdStart (v : Reg32)
  /-- GRID_CMD_STOP (R42): A write of STOP to GRID_CMD stops settling boundaries not yet announced and waits for the
      final commit point. -/
  | gridCmdStop (v : Reg32)
  /-- FINAL_COMMIT (R42): Once every announced boundary and started shot has ended and the device is quiet, the stop's
      final commit point applies all waiting changes and clears GRID_RUN. -/
  | finalCommit
  /-- ANNOUNCE_SEND (R41): At B − 3,000 cc the Lighthouse sends the announcement of boundary B with its epoch on both
      rings. -/
  | announceSend
  /-- SLACK_HORIZON (R41): At B − 2,000 cc each member checks its result credits and other hold reasons and casts a
      hold vote if any applies. -/
  | slackHorizon
  /-- VERDICT_SEND (R41): At B − 1,000 cc the Lighthouse sends a start or hold verdict with the union of the hold
      masks it received. -/
  | verdictSend
  /-- VERDICT_MISS (R41): A member that has no verdict by B − 64 treats the boundary as held and sets VERDICT_MISS. -/
  | verdictMiss
  /-- SHOT_START (R38): In the cycle Tide Time reaches a started boundary, the tide block increments SHOT_EPOCH, sets
      IN_SHOT, releases the shot programs and publishes the shot event. -/
  | shotStart
  /-- SLACK_START (R38): At B + SHOT_LEN the tide block clears IN_SHOT and publishes the Slack event. -/
  | slackStart
  /-- SLACK_COMMIT (R40): At the first quiet cycle of a Slack window the device applies in one step every change that
      waits for Slack. -/
  | slackCommit
  /-- SLACK_OVERRUN (R40): If no commit point has arrived by B′ − 3,000 cc, the waiting changes are deferred and
      SLACK_OVERRUN is set. -/
  | slackOverrun
  /-- ALM_TARGET_HI_WRITE (R43): A write of ALMn_TARGET_HI commits the alarm target and arms the alarm if EN is set,
      firing at once with LATE if it is already reached. -/
  | almTargetHiWrite (n : Fin 32) (v : Reg32)
  /-- ALARM_FIRE (R43): An alarm fires when integer Tide Time reaches its target, performs its ACTION, publishes its
      event and re-arms or disarms. -/
  | alarmFire (n : Fin 32)
  /-- CAPTURE (R45): A capture unit records Tide Time and Phase Count for an event on its channel or an edge on its
      trigger pin. -/
  | capture (n : Fin 16) (src : CapSrc)
  /-- ACK (R46): A write of ACK in CAPn_CTL releases the held capture. -/
  | ack (n : Fin 16) (v : Reg32)
  /-- CORE_EN (R104): A write of CORE_EN starts or stops the converter core of a D, P, F or M port. -/
  | coreEn (p : PortRef) (v : Reg32)
  /-- CORE_READY (R104): 20,000 cc after a core starts, it reaches READY and meets its stated figures. -/
  | coreReady (p : PortRef)
  /-- CNT_CLR (R107): A write of CNT_CLR clears the counters of its block, counting same-cycle events after the clear. -/
  | cntClr (off : Nat) (v : Reg32)
  /-- TIME_SEND (R67): Every SYNC_INTERVAL the acting Lighthouse sends a TIME frame on both rings. -/
  | timeSend
  /-- DELAY_REQ_SEND (R60): In each Slack window, or every SYNC_INTERVAL while the grid is stopped, a device sends
      DELAY_REQ to its neighbour on each ring. -/
  | delayReqSend (ringB : Bool)
  /-- LOOP_SEND (R62): In each Slack window of an unwrapped ring the Lighthouse sends a LOOP frame round each ring. -/
  | loopSend
  /-- TIME_FRAME (R63): A received TIME frame is checked, forwarded, and used to compute the member's offset and check
      the Phase Count for slip. -/
  | timeFrame (rx : Rx)
  /-- DELAY_REQ (R60): A received DELAY_REQ is answered with a DELAY_RESP on the other ring carrying TURN. -/
  | delayReq (rx : Rx)
  /-- DELAY_RESP (R60): A received DELAY_RESP yields a link round trip that updates the median RTT and ingress delays. -/
  | delayResp (rx : Rx)
  /-- LOOP_FRAME (R62): A received LOOP frame is forwarded with residence and asymmetry added, or at its return gives
      LOOP_ASYM at the Lighthouse. -/
  | loopFrame (rx : Rx)
  /-- ANNOUNCE (R67): A received ANNOUNCE updates the grid mirrors and the member's epoch, adopting or splitting when
      out of step. -/
  | announce (rx : Rx)
  /-- HOLD_VOTE (R69): A received HOLD_VOTE is merged with a queued own vote when forwarded, or collected at the
      Lighthouse. -/
  | holdVote (rx : Rx)
  /-- VERDICT (R69): A received VERDICT starts or holds the boundary, and a member that voted hold treats a start as
      held with VOTE_OVERRULED. -/
  | verdict (rx : Rx)
  /-- DECISION_FRAME (R79): A received DECISION frame delivers its slot updates to the mirror of the sending device
      under the epoch rules. -/
  | decisionFrame (rx : Rx)
  /-- EVENT_FRAME (R330): A received EVENT frame is published on its channel with its lineage if the channel is
      imported. -/
  | eventFrame (rx : Rx)
  /-- ANCHOR_FRAME (R83): A received ANCHOR frame lets a member compute the anchor instant from its countdown and path
      delay. -/
  | anchorFrame (rx : Rx)
  /-- TAKEOVER_FRAME (R71): A received TAKEOVER frame makes devices follow the higher term, deposing a Lighthouse that
      loses. -/
  | takeoverFrame (rx : Rx)
  /-- LINK_FRAME (R82): A received LINK frame reports neighbour status, checks asymmetry constants and detects
      duplicate IDs from HELLO. -/
  | linkFrame (rx : Rx)
  /-- LINK_UP (R82): When a ring input gains block lock the device sends LINK with HELLO and begins measuring the link
      toward RING_LOCK. -/
  | linkUp (ringB : Bool)
  /-- SERVO_STAGE (R64): Before each Slack commit point, or every SYNC_INTERVAL while stopped, the servo stages an
      increment from the mean offset. -/
  | servoStage
  /-- LH_SILENT (R70): A standby that hears no class-0 frame from the Lighthouse for SILENCE_TIMEOUT sets LH_SILENT
      and may take over. -/
  | lhSilent
  /-- RING_BREAK (R75): A ring input without lock for 1,000 cc is broken, and with WRAP_EN the devices beside it wrap. -/
  | ringBreak (ringB : Bool)
  /-- UNWRAP (R76): When both ends of the failed link pair have held lock for 1 ms the devices unwrap at the next
      Slack commit point. -/
  | unwrap
  /-- ASYM_CONFIRM (R78): A write of ASYM_CONFIRM clears ASYM_SUSPECT so the servos can resume. -/
  | asymConfirm (v : Reg32)
  /-- REMEASURE (R60): A write of REMEASURE discards the stored round trips and starts measuring again. -/
  | remeasure (v : Reg32)
  /-- RING_EN (R51): A write of RING_EN opens or closes the ring by-passes and activates or deactivates the ring
      ports. -/
  | ringEn (v : Reg32)
  /-- CARRIER_HI_WRITE (R87): A write of CARRIER_HI commits the carrier within its mode band and resets every slot's F
      to the carrier and θ to zero. -/
  | carrierHiWrite (p : Fin 80) (v : Reg32)
  /-- PULSE (R92): A PULSE command entering a D or P port queue is checked and queued to emit an envelope at its fire
      time. -/
  | pulse (c : Fin 16) (w0 : Word) (w1 : Word) (w2 : Word) (w3 : Word)
  /-- FORK_ARM (R99): A FORK_ARM command entering a D or P queue is checked and paired as one arm of a conditional
      pulse. -/
  | forkArm (c : Fin 16) (w0 : Word) (w1 : Word) (w2 : Word) (w3 : Word)
  /-- CONST (R92): A CONST command entering a D or P queue is checked and queued to emit a constant envelope tone. -/
  | const (c : Fin 16) (w0 : Word) (w1 : Word) (w2 : Word) (w3 : Word)
  /-- SET_FREQ (R92): A SET_FREQ command entering a D or P queue is checked against the offset bound and queued as a
      slot update. -/
  | setFreq (c : Fin 16) (w0 : Word) (w1 : Word) (w2 : Word) (w3 : Word)
  /-- SET_FRAME (R92): A SET_FRAME command entering a D or P queue is queued to set the slot's frame offset. -/
  | setFrame (c : Fin 16) (w0 : Word) (w1 : Word) (w2 : Word) (w3 : Word)
  /-- SHIFT_FRAME (R92): A SHIFT_FRAME command entering a D or P queue is queued to add to the slot's frame offset. -/
  | shiftFrame (c : Fin 16) (w0 : Word) (w1 : Word) (w2 : Word) (w3 : Word)
  /-- FORK_SHIFT (R99): A FORK_SHIFT command entering a D or P queue is paired as one arm of a conditional frame
      shift. -/
  | forkShift (c : Fin 16) (w0 : Word) (w1 : Word) (w2 : Word) (w3 : Word)
  /-- FLUX_PULSE (R110): A flux PULSE command entering a flux queue is checked and queued to play a wave from cove
      shared memory. -/
  | fluxPulse (c : Fin 16) (w0 : Word) (w1 : Word) (w2 : Word) (w3 : Word)
  /-- FLUX_FORK_ARM (R114): A flux FORK_ARM command is checked and paired as one arm of a conditional flux pulse. -/
  | fluxForkArm (c : Fin 16) (w0 : Word) (w1 : Word) (w2 : Word) (w3 : Word)
  /-- RAMP (R111): A RAMP command entering a flux queue is checked and queued to ramp the held level to its target. -/
  | ramp (c : Fin 16) (w0 : Word) (w1 : Word) (w2 : Word) (w3 : Word)
  /-- SET_LEVEL (R110): A SET_LEVEL command entering a flux queue is queued to set the held level. -/
  | setLevel (c : Fin 16) (w0 : Word) (w1 : Word) (w2 : Word) (w3 : Word)
  /-- SHIFT_LEVEL (R110): A SHIFT_LEVEL command entering a flux queue is queued to add to the held level. -/
  | shiftLevel (c : Fin 16) (w0 : Word) (w1 : Word) (w2 : Word) (w3 : Word)
  /-- FLUX_FORK_SHIFT (R114): A flux FORK_SHIFT command is paired as one arm of a conditional level shift. -/
  | fluxForkShift (c : Fin 16) (w0 : Word) (w1 : Word) (w2 : Word) (w3 : Word)
  /-- PULSE_START (R97): At its fire time a pulse-kind command begins emitting samples, or emits nothing with
      SLACK_FIRE or CONV_NOT_READY. -/
  | pulseStart (q : Fin 112) (k : Fin 16)
  /-- SLOT_UPDATE (R92): At its fire time a slot update changes the slot's frequency or frame offset from that sample. -/
  | slotUpdate (q : Fin 112) (k : Fin 16)
  /-- LEVEL_UPDATE (R111): At its fire time a flux level update sets or shifts the held level and ends any running
      ramp. -/
  | levelUpdate (f : Fin 32)
  /-- FORK_SELECT (R100): At v − 6 the composer reads the condition and selects an arm, or the default arm with
      LATE_DECISION. -/
  | forkSelect (q : Fin 112) (k : Fin 16)
  /-- COMMAND_RETIRE (R95): A queued command retires at its end time and frees its port and slot queue entries. -/
  | commandRetire (q : Fin 112)
  /-- COEF_COMMIT (R118): A write of COEF_COMMIT marks the staged flux predistortion coefficients for application at
      the next Slack commit point. -/
  | coefCommit (f : Fin 32) (v : Reg32)
  /-- BIAS_CODE_WRITE (R125): A write of BIAS_CODE stages a new bias code that applies at the next Slack commit point
      and takes effect at the next PWM frame. -/
  | biasCodeWrite (n : Fin 16) (v : Reg32)
  /-- BIAS_EN (R130): A staged write of EN in BIAS_CTL turns the bias output on or off through its Starting or
      Stopping state. -/
  | biasEn (n : Fin 16) (v : Reg32)
  /-- RANGE_CHANGE (R128): An applied RANGE change runs the zero-code, hold, switch and settle sequence before the new
      code takes effect. -/
  | rangeChange (n : Fin 16)
  /-- PWM_FRAME (R123): At each Phase Count multiple of 65,536 a new PWM frame begins with the code in effect and its
      dither. -/
  | pwmFrame (n : Fin 16)
  /-- BIAS_STATE_END (R130): After 31 frames a Starting bias output becomes On and a Stopping one becomes Safe. -/
  | biasStateEnd (n : Fin 16)
  /-- DG_HOLD_END (R127): When DG_HOLD frames have passed the deglitcher releases the held output to the filter value. -/
  | dgHoldEnd (n : Fin 16)
  /-- BIAS_SENSE (R129): Every 1 ms the bias output senses pin voltage and current and updates compliance and open-
      load status. -/
  | biasSense (n : Fin 16) (volt : BitVec 16) (amp : BitVec 24)
  /-- MEASURE (R140): A MEASURE command entering the receiver queue is checked and queued to open integration windows. -/
  | measure (c : Fin 16) (w0 : Word) (w1 : Word) (w2 : Word) (w3 : Word)
  /-- WINDOW_SET_FREQ (R141): A receiver SET_FREQ command is checked and queued to change unlinked demodulator
      frequencies. -/
  | windowSetFreq (c : Fin 16) (w0 : Word) (w1 : Word) (w2 : Word) (w3 : Word)
  /-- WINDOW_SET_FRAME (R141): A receiver SET_FRAME command is queued to set unlinked demodulator frame offsets. -/
  | windowSetFrame (c : Fin 16) (w0 : Word) (w1 : Word) (w2 : Word) (w3 : Word)
  /-- WINDOW_SHIFT_FRAME (R141): A receiver SHIFT_FRAME command is queued to add to unlinked demodulator frame
      offsets. -/
  | windowShiftFrame (c : Fin 16) (w0 : Word) (w1 : Word) (w2 : Word) (w3 : Word)
  /-- WINDOW_OPEN (R140): At its fire time a MEASURE opens its windows, or is stale when the core is not READY or the
      time lies in Slack. -/
  | windowOpen (n : Fin 16)
  /-- DEMOD_UPDATE (R141): At its fire time a window update changes the frequency or frame offset of its demodulators. -/
  | demodUpdate (n : Fin 16)
  /-- WINDOW_CLOSE (R150): After a window's last pin sample the receiver integrates, discriminates, publishes outcomes
      and queues the result packet. It names the windows: the cycle of their last pin sample and their demodulators. -/
  | windowClose (n : Fin 16) (fin : Nat) (tones : BitVec 16)
  /-- AVG_CLR (R155): A write of AVG_CLR clears every averaging bank. -/
  | avgClr (n : Fin 16) (v : Reg32)
  /-- AVG_N_WRITE (R155): An accepted write of AVG_N sets the average count and clears every bank. -/
  | avgNWrite (n : Fin 16) (v : Reg32)
  /-- RESULT_WORD (R309): The collector grants one waiting word per cycle from the receiver queue to its FIFO. -/
  | resultWord (n : Fin 16)
  /-- MERGE_PASS (R163): Each cycle the merge buffer passes its 32 oldest outcomes to the slot store. -/
  | mergePass
  /-- TABLE_LOOKUP (R171): A complete, enabled Decision Table starts a lookup from its current source bits. -/
  | tableLookup (t : Fin 8)
  /-- TABLE_RESULT_LAND (R171): A lookup's result lands in every cove view 5 cc after start unless a source update has
      invalidated it. -/
  | tableResultLand (t : Fin 8)
  /-- TABLE_EN (R173): A write of EN in DTt_CFG enables or disables a table at the next Slack commit point or at once. -/
  | tableEn (t : Fin 8) (v : Reg32)
  /-- ARM (R198): An ARM command moves a STOPPED engine to ARMED. -/
  | arm (e : Fin 192)
  /-- START (R198): A START command makes a STOPPED or ARMED engine RUNNING at ENTRY at once. -/
  | start (e : Fin 192)
  /-- STOP (R198): A STOP command requests that a running engine stop at its next instruction end, safe point or stop
      point, or stops an ARMED engine at once. -/
  | stop (e : Fin 192)
  /-- ENGINE_STOP_ACT (R198): A pending STOP takes effect at the engine's next instruction end, safe point or stop
      point, rewinding open packets. -/
  | engineStopAct (e : Fin 192)
  /-- CLEAR_FAULT (R198): A CLEAR_FAULT command moves a FAULTED engine to STOPPED and clears ENGe_FAULT. -/
  | clearFault (e : Fin 192)
  /-- GUARDED_WRITE (R203): A write that sets GUARDED copies each active pair's memory to its twin and builds the
      reload images. -/
  | guardedWrite (n : Fin 16) (v : Reg32)
  /-- IMAGE_BUILD_DONE (R203): The reload image build ends and RELOADING clears. -/
  | imageBuildDone (n : Fin 16)
  /-- RELOAD_BASE_HI_WRITE (R203): A commit of RELOAD_BASE_HI in Guarded mode moves the reload images and rebuilds
      them. -/
  | reloadBaseHiWrite (n : Fin 16) (v : Reg32)
  /-- TWIN_MISMATCH (R205): The pair checker detects a mismatch, discards the outputs, faults both twins with cause
      0x03 and sends a fault record. -/
  | twinMismatch (e : Fin 192)
  /-- RELOAD_DONE (R206): The reload copy completes, the new pair is cleared and ARMED, and RELOADING clears, or the
      reload fails and the cove is DEGRADED. -/
  | reloadDone (n : Fin 16)
  /-- CONTROL_STORE_REWRITE (R240): Harbour rewrites a control-store word that held a double-bit error from its copy
      of the image. -/
  | controlStoreRewrite (n : Fin 16) (p : Fin 6) (disp : Bool) (u : Nat)
  /-- EVENT_ENTRY (R232): At an instruction end or safe point an engine takes a pending enabled event, saves its state
      and vectors to the handler. -/
  | eventEntry (e : Fin 192)
  /-- NOP (R210): The NOP instruction does nothing for 1 cc. -/
  | nop (e : Fin 192) (f : BitVec 28)
  /-- HALT (R236): HALT ends the program, rewinds open packets with HALT_OPEN and leaves the engine ARMED or STOPPED. -/
  | halt (e : Fin 192) (f : BitVec 28)
  /-- ADD (R210): ADD writes ra + rb to rd and sets flags. -/
  | add (e : Fin 192) (f : BitVec 28)
  /-- SUB (R210): SUB writes ra − rb to rd and sets flags. -/
  | sub (e : Fin 192) (f : BitVec 28)
  /-- AND (R210): AND writes the bitwise AND of ra and rb. -/
  | and (e : Fin 192) (f : BitVec 28)
  /-- OR (R210): OR writes the bitwise OR of ra and rb. -/
  | or (e : Fin 192) (f : BitVec 28)
  /-- XOR (R210): XOR writes the bitwise XOR of ra and rb. -/
  | xor (e : Fin 192) (f : BitVec 28)
  /-- SHL (R210): SHL shifts ra left by rb[5:0]. -/
  | shl (e : Fin 192) (f : BitVec 28)
  /-- SHR (R210): SHR shifts ra logically right by rb[5:0]. -/
  | shr (e : Fin 192) (f : BitVec 28)
  /-- SRA (R210): SRA shifts ra arithmetically right by rb[5:0]. -/
  | sra (e : Fin 192) (f : BitVec 28)
  /-- MIN (R210): MIN writes the signed minimum of ra and rb. -/
  | min (e : Fin 192) (f : BitVec 28)
  /-- MAX (R210): MAX writes the signed maximum of ra and rb. -/
  | max (e : Fin 192) (f : BitVec 28)
  /-- ADDS (R210): ADDS writes the saturated sum of ra and rb. -/
  | adds (e : Fin 192) (f : BitVec 28)
  /-- CMP (R210): CMP sets flags from ra − rb. -/
  | cmp (e : Fin 192) (f : BitVec 28)
  /-- TST (R210): TST sets flags from ra AND rb. -/
  | tst (e : Fin 192) (f : BitVec 28)
  /-- EXT (R210): EXT extracts a bit field of ra into rd. -/
  | ext (e : Fin 192) (f : BitVec 28)
  /-- INS (R210): INS inserts the low bits of ra into a field of rd. -/
  | ins (e : Fin 192) (f : BitVec 28)
  /-- CADD (R210): CADD adds two complex words with each half saturated. -/
  | cadd (e : Fin 192) (f : BitVec 28)
  /-- ADDI (R210): ADDI adds a sign-extended immediate to ra. -/
  | addi (e : Fin 192) (f : BitVec 28)
  /-- ANDI (R210): ANDI ANDs ra with a zero-extended immediate. -/
  | andi (e : Fin 192) (f : BitVec 28)
  /-- ORI (R210): ORI ORs ra with a zero-extended immediate. -/
  | ori (e : Fin 192) (f : BitVec 28)
  /-- XORI (R210): XORI XORs ra with a zero-extended immediate. -/
  | xori (e : Fin 192) (f : BitVec 28)
  /-- SHLI (R210): SHLI shifts ra left by an immediate count. -/
  | shli (e : Fin 192) (f : BitVec 28)
  /-- SHRI (R210): SHRI shifts ra logically right by an immediate count. -/
  | shri (e : Fin 192) (f : BitVec 28)
  /-- SRAI (R210): SRAI shifts ra arithmetically right by an immediate count. -/
  | srai (e : Fin 192) (f : BitVec 28)
  /-- CMPI (R210): CMPI sets flags from ra minus a sign-extended immediate. -/
  | cmpi (e : Fin 192) (f : BitVec 28)
  /-- TSTI (R210): TSTI sets flags from ra AND a zero-extended immediate. -/
  | tsti (e : Fin 192) (f : BitVec 28)
  /-- LI (R210): LI loads a sign-extended 23-bit immediate into rd. -/
  | li (e : Fin 192) (f : BitVec 28)
  /-- LIH (R210): LIH loads an immediate into rd[35:18], keeping the low bits. -/
  | lih (e : Fin 192) (f : BitVec 28)
  /-- MOVS (R217): MOVS reads a special register into rd. -/
  | movs (e : Fin 192) (f : BitVec 28)
  /-- MOVSW (R217): MOVSW writes ra to a special register where R180 permits. -/
  | movsw (e : Fin 192) (f : BitVec 28)
  /-- MAC (R189): MAC adds the exact product of ra and rb to an accumulator. -/
  | mac (e : Fin 192) (f : BitVec 28)
  /-- MSU (R189): MSU subtracts the exact product of ra and rb from an accumulator. -/
  | msu (e : Fin 192) (f : BitVec 28)
  /-- CMAC (R190): CMAC accumulates the complex product ra × rb into an accumulator pair. -/
  | cmac (e : Fin 192) (f : BitVec 28)
  /-- CMACJ (R190): CMACJ accumulates ra × conj(rb) into an accumulator pair. -/
  | cmacj (e : Fin 192) (f : BitVec 28)
  /-- CMSU (R190): CMSU subtracts the complex product ra × rb from an accumulator pair. -/
  | cmsu (e : Fin 192) (f : BitVec 28)
  /-- CMSUJ (R190): CMSUJ subtracts ra × conj(rb) from an accumulator pair. -/
  | cmsuj (e : Fin 192) (f : BitVec 28)
  /-- MACM (R210): MACM accumulates the product of two memory operands. -/
  | macm (e : Fin 192) (f : BitVec 28)
  /-- CMACM (R190): CMACM accumulates the complex product of two memory operands, optionally conjugated. -/
  | cmacm (e : Fin 192) (f : BitVec 28)
  /-- NRW (R191): NRW narrows an accumulator by a shift into rd with saturation and BEXP update. -/
  | nrw (e : Fin 192) (f : BitVec 28)
  /-- CNRW (R191): CNRW narrows an accumulator pair into a complex word with saturation and BEXP update. -/
  | cnrw (e : Fin 192) (f : BitVec 28)
  /-- CLRA (R210): CLRA clears the selected accumulators. -/
  | clra (e : Fin 192) (f : BitVec 28)
  /-- RDA (R210): RDA reads a selected part of an accumulator into rd. -/
  | rda (e : Fin 192) (f : BitVec 28)
  /-- WRA (R210): WRA writes an accumulator from ra and rb. -/
  | wra (e : Fin 192) (f : BitVec 28)
  /-- WRAH (R210): WRAH writes the top 8 bits of an accumulator. -/
  | wrah (e : Fin 192) (f : BitVec 28)
  /-- LD (R216): LD loads a word through an address register. -/
  | ld (e : Fin 192) (f : BitVec 28)
  /-- ST (R216): ST stores a word through an address register. -/
  | st (e : Fin 192) (f : BitVec 28)
  /-- LD2 (R215): LD2 loads two words into an even register pair. -/
  | ld2 (e : Fin 192) (f : BitVec 28)
  /-- ST2 (R215): ST2 stores two words from an even register pair. -/
  | st2 (e : Fin 192) (f : BitVec 28)
  /-- LDO (R210): LDO loads a word at ra plus an immediate offset. -/
  | ldo (e : Fin 192) (f : BitVec 28)
  /-- STO (R210): STO stores a word at ra plus an immediate offset. -/
  | sto (e : Fin 192) (f : BitVec 28)
  /-- SETA (R219): SETA loads all fields of an address register from three registers, checking the mode limits. -/
  | seta (e : Fin 192) (f : BitVec 28)
  /-- SETP (R219): SETP sets the pointer of an address register. -/
  | setp (e : Fin 192) (f : BitVec 28)
  /-- GETA (R210): GETA reads the pointer of an address register into rd. -/
  | geta (e : Fin 192) (f : BitVec 28)
  /-- BDOT (R220): BDOT accumulates the dot product of two memory ranges. -/
  | bdot (e : Fin 192) (f : BitVec 28) (upto : Nat)
  /-- BSCALE (R220): BSCALE scales a memory range by rs with narrowing. -/
  | bscale (e : Fin 192) (f : BitVec 28) (upto : Nat)
  /-- BACC (R220): BACC adds one memory range into another with saturation. -/
  | bacc (e : Fin 192) (f : BitVec 28) (upto : Nat)
  /-- BCOPY (R220): BCOPY copies a memory range. -/
  | bcopy (e : Fin 192) (f : BitVec 28) (upto : Nat)
  /-- BHIST (R220): BHIST histograms a memory range into bins. -/
  | bhist (e : Fin 192) (f : BitVec 28) (upto : Nat)
  /-- BFLY (R220): BFLY performs radix-2 butterflies over memory ranges. -/
  | bfly (e : Fin 192) (f : BitVec 28) (upto : Nat)
  /-- BEMIT (R220): BEMIT emits a memory range word by word to a result FIFO. -/
  | bemit (e : Fin 192) (f : BitVec 28) (upto : Nat)
  /-- PISSUE (R223): PISSUE issues a pulse command from four registers to the cove's composers. -/
  | pissue (e : Fin 192) (f : BitVec 28)
  /-- WISSUE (R223): WISSUE issues a window command from four registers to the cove's receiver. -/
  | wissue (e : Fin 192) (f : BitVec 28)
  /-- PISSUEM (R223): PISSUEM issues a pulse command from four memory words. -/
  | pissuem (e : Fin 192) (f : BitVec 28)
  /-- WISSUEM (R223): WISSUEM issues a window command from four memory words. -/
  | wissuem (e : Fin 192) (f : BitVec 28)
  /-- PUBLISH (R227): PUBLISH stores an 8-bit value in a local decision slot through the engine lane. -/
  | publish (e : Fin 192) (f : BitVec 28)
  /-- AWAIT (R228): AWAIT waits until a decision slot or table result is valid for the current epoch. -/
  | await (e : Fin 192) (f : BitVec 28)
  /-- AWAIT_COMPLETE (R228): A waited value becomes visible and reaches rd 3 cc later, completing AWAIT. -/
  | awaitComplete (e : Fin 192)
  /-- AWAIT_DEADLINE (R228): AWAIT's deadline passes without a value, writing rd := 0 and C := 1. -/
  | awaitDeadline (e : Fin 192)
  /-- SIGNAL (R229): SIGNAL publishes an event on a channel with the engine's held lineage. -/
  | signal (e : Fin 192) (f : BitVec 28)
  /-- WAITEV (R230): WAITEV waits for an event at the masked task inputs. -/
  | waitev (e : Fin 192) (f : BitVec 28)
  /-- WAITEV_COMPLETE (R230): An event at a masked input is consumed by WAITEV, which writes EV_INFO and the lineage. -/
  | waitevComplete (e : Fin 192)
  /-- WAITEV_DEADLINE (R230): WAITEV's deadline passes without an event, writing rd := 0 and setting C. -/
  | waitevDeadline (e : Fin 192)
  /-- RETE (R233): RETE restores the flags, clears IN_HANDLER and returns to SAVE_PC, resuming a block instruction if
      RESUME is set. -/
  | rete (e : Fin 192) (f : BitVec 28)
  /-- EMIT (R235): EMIT writes a word into a result FIFO, starting a packet if none is open. -/
  | emit (e : Fin 192) (f : BitVec 28)
  /-- COMMIT (R235): COMMIT commits the engine's open packet in a FIFO. -/
  | commit (e : Fin 192) (f : BitVec 28)
  /-- ABORT (R235): ABORT rewinds the engine's open packet in a FIFO. -/
  | abort (e : Fin 192) (f : BitVec 28)
  /-- BR (R214): BR branches to TARGET if COND holds, taking 5 cc either way. -/
  | br (e : Fin 192) (f : BitVec 28)
  /-- BRR (R210): BRR branches to the address in ra if its condition holds. -/
  | brr (e : Fin 192) (f : BitVec 28)
  /-- CALL (R210): CALL saves PC + 1 in G31 and branches if COND holds. -/
  | call (e : Fin 192) (f : BitVec 28)
  /-- RET (R210): RET returns to the address in G31. -/
  | ret (e : Fin 192) (f : BitVec 28)
  /-- DBNZ (R210): DBNZ decrements rd and branches if it is not zero. -/
  | dbnz (e : Fin 192) (f : BitVec 28)
  /-- PATCHED_OPCODE (R244): An opcode defined by a loaded microcode patch runs its patch routine. -/
  | patchedOpcode (e : Fin 192) (w : Word) (upto : Nat)
  /-- ILLEGAL_OP (R244): An undefined opcode faults the engine with cause 0x10 before any microword runs. -/
  | illegalOp (e : Fin 192) (op : BitVec 8)
  /-- POLL_TICK (R270): At each POLL_INTERVAL tick the Ring Engine starts a poll by reading SUMMARY, or counts a skip
      if a poll is in progress. -/
  | pollTick
  /-- SUMMARY_RETURN (R270): The SUMMARY read returns and the Ring Engine reads the producer words of flagged enabled
      rings. -/
  | summaryReturn (d : Option (BitVec 512))
  /-- POLL_END (R270): The producer words return and the Ring Engine applies the new PROD and CQ_CONS values. -/
  | pollEnd (ws : Option (List (BitVec 64)))
  /-- GLB_NUDGE (R272): A write to GLB_NUDGE starts a poll at once, or after the poll in progress. -/
  | glbNudge (v : Reg32)
  /-- RE_EN (R270): A write of RE_EN starts or stops Ring Engine polling on the tick grid. -/
  | reEn (v : Reg32)
  /-- RING_ENABLE (R274): A write of ENABLE enables a ring, zeroing its counts, or stops its fetching and clears
      STOPPED. -/
  | ringEnable (r : Fin 256) (v : Reg32)
  /-- RING_ABORT (R279): A write of ABORT clears ENABLE and completes pending descriptors with ABORTED. -/
  | ringAbort (r : Fin 256) (v : Reg32)
  /-- DESCRIPTOR_FETCH (R276): The Ring Engine fetches published descriptors in round robin, pausing at the in-flight
      limit and stopping rings on PROD_ERR or CQ_ERR. -/
  | descriptorFetch (data : Option (List (BitVec 512)))
  /-- NOP_DESCRIPTOR (R280): A NOP descriptor completes OK. -/
  | nopDescriptor (r : Fin 256) (seq : Reg32)
  /-- LOAD_PROGRAM (R281): A LOAD_PROGRAM descriptor writes packed-line words into cove shared or engine local memory. -/
  | loadProgram (r : Fin 256) (seq : Reg32) (src : List (Option (BitVec 512)))
  /-- LOAD_ENVELOPE (R281): A LOAD_ENVELOPE descriptor writes words into a port's Envelope RAM. -/
  | loadEnvelope (r : Fin 256) (seq : Reg32) (src : List (Option (BitVec 512)))
  /-- LOAD_KERNEL (R281): A LOAD_KERNEL descriptor writes integration weights into a kernel RAM. -/
  | loadKernel (r : Fin 256) (seq : Reg32) (src : List (Option (BitVec 512)))
  /-- LOAD_TABLE (R281): A LOAD_TABLE descriptor writes words into Decision Table memory. -/
  | loadTable (r : Fin 256) (seq : Reg32) (src : List (Option (BitVec 512)))
  /-- LOAD_MICROCODE (R256): A LOAD_MICROCODE descriptor starts a patch load for the named coves if they are ready. -/
  | loadMicrocode (r : Fin 256) (seq : Reg32) (src : List (Option (BitVec 512)))
  /-- MC_LOAD_END (R257): Harbour finishes checking and writing the patch image and the load completes with its
      status. -/
  | mcLoadEnd (r : Fin 256) (seq : Reg32) (bad : BitVec 16)
  /-- COPY (R283): A COPY descriptor moves bytes between host memory and the LPDDR5X region. -/
  | copy (r : Fin 256) (seq : Reg32) (src : List (Option (BitVec 512)))
  /-- RESULT_BIND (R284): A RESULT_BIND descriptor binds a result FIFO to a staging area and a host buffer. -/
  | resultBind (r : Fin 256) (seq : Reg32)
  /-- BIND_KEEP_STAGED (R284): A RESULT_BIND with KEEP_STAGED restores the host half of a binding and resumes draining
      staged packets. -/
  | bindKeepStaged (r : Fin 256) (seq : Reg32)
  /-- UNBIND (R322): A RESULT_BIND with UNBIND flushes the FIFO and drains or discards its staged packets before
      removing the binding. -/
  | unbind (r : Fin 256) (seq : Reg32)
  /-- ENGINE (R285): A RUN_CONTROL ENGINE operation applies ARM, START, STOP or CLEAR_FAULT to every named engine in
      one cycle. -/
  | engine (r : Fin 256) (seq : Reg32)
  /-- GRID_START (R285): A RUN_CONTROL GRID_START acts as a START write to GRID_CMD. -/
  | gridStart (r : Fin 256) (seq : Reg32)
  /-- GRID_STOP (R285): A RUN_CONTROL GRID_STOP acts as a STOP write to GRID_CMD. -/
  | gridStop (r : Fin 256) (seq : Reg32)
  /-- WAIT_STOPPED (R285): A RUN_CONTROL WAIT_STOPPED completes when every named engine is STOPPED or FAULTED. -/
  | waitStopped (r : Fin 256) (seq : Reg32)
  /-- DESC_TIMEOUT (R285): A descriptor's TIMEOUT passes before its condition is met and it completes TIMEOUT. -/
  | descTimeout (r : Fin 256) (seq : Reg32)
  /-- WRITES (R286): A TIME_CONTROL WRITES operation checks its offsets and schedules up to five register writes for
      its WHEN condition. -/
  | writes (r : Fin 256) (seq : Reg32)
  /-- TIME_CONTROL_DUE (R286): When a TIME_CONTROL's WHEN condition is met its writes land in consecutive cycles as
      BAR0 writes. -/
  | timeControlDue
  /-- TIME_CONTROL_ANCHOR (R286): A TIME_CONTROL ANCHOR operation requests anchoring and completes when ANCHORED is
      set. -/
  | timeControlAnchor (r : Fin 256) (seq : Reg32)
  /-- CALIBRATE (R357): A CALIBRATE descriptor is checked and queued as a calibration request. -/
  | calibrate (r : Fin 256) (seq : Reg32)
  /-- CAL_START (R358): The oldest queued calibration whose ports are idle starts at a Slack commit point or while the
      grid is stopped. -/
  | calStart (src : List (Option (BitVec 512)))
  /-- CAL_END (R361): A calibration ends, writes its result and completion, and marks its correction for application. -/
  | calEnd (k : Fin 4) (words : List Reg32) (limit : Bool) (rms : BitVec 16) (line : BitVec 16) (crest : BitVec 16) (overFlag : Bool)
  /-- FUSE_COMMIT (R373): A FUSE_COMMIT with TARGET 0 fetches and checks a generation image and begins writing the
      lowest blank slot. -/
  | fuseCommit (r : Fin 256) (seq : Reg32) (src : List (Option (BitVec 512)))
  /-- FUSE_COMMIT_KEY (R369): A FUSE_COMMIT with TARGET 1 writes or revokes the customer key slot. -/
  | fuseCommitKey (r : Fin 256) (seq : Reg32) (src : List (Option (BitVec 512)))
  /-- FUSE_WORD_WRITTEN (R375): A fuse word write completes and Harbour checks ENV_OK before the next word, verifying
      and writing the marker at the end. -/
  | fuseWordWritten (miss : BitVec 64)
  /-- SCOPE_ARM (R349): A SCOPE_ARM with OP ARM checks and arms the named capture units. -/
  | scopeArm (r : Fin 256) (seq : Reg32)
  /-- SCOPE_DISARM (R350): A SCOPE_ARM with OP DISARM disarms the named units. -/
  | scopeDisarm (r : Fin 256) (seq : Reg32)
  /-- SCOPE_FORCE (R346): A SCOPE_ARM with OP FORCE forces a trigger on the named units. -/
  | scopeForce (r : Fin 256) (seq : Reg32)
  /-- QUERY (R290): A QUERY descriptor reads up to ten registers in consecutive cycles and writes their values to host
      memory. -/
  | query (r : Fin 256) (seq : Reg32)
  /-- FENCE (R291): A FENCE descriptor waits for earlier descriptors, optional drain and a time condition before later
      descriptors start. -/
  | fence (r : Fin 256) (seq : Reg32)
  /-- FENCE_DONE (R291): The conditions of a FENCE are met and it completes. -/
  | fenceDone (r : Fin 256) (seq : Reg32)
  /-- COMPLETION_WRITE (R294): A held completion, RESULT or FAULT record is written when the completion ring has room. -/
  | completionWrite (r : Fin 256)
  /-- IRQ_MOD_TIME (R295): MOD_TIME passes after the first unsignalled record and the ring signals its MSI-X vector. -/
  | irqModTime (r : Fin 256)
  /-- MSIX_UNMASK (R295): Unmasking a vector with its PBA bit set sends the pending MSI-X message. -/
  | msixUnmask (v : Fin 64) (x : Reg32)
  /-- HOST_RESET (R263): An FLR, hot reset, link-down or D3hot-to-D0 transition resets the host interface, rings,
      windows and host halves of bindings. -/
  | hostReset
  /-- BAR2_ACCESS (R262): A BAR2 read or write reaches device memory through the slow window. -/
  | bar2Access (write : Bool) (o : BitVec 28) (n : Nat) (bytes : List Byte)
  /-- FLUSH (R313): A write of FLUSH discards unstaged committed packets and rewinds open packets of the FIFO. -/
  | flush (n : Fin 16) (f : Fin 16) (v : Reg32)
  /-- PACK_PACKET (R315): The line packer takes a committed packet and writes it as packed lines to staging, or
      discards it for credit or binding. -/
  | packPacket (n : Fin 16)
  /-- DRAIN_PACKET (R318): The drain copies the oldest staged packet to the host buffer when room exists and closes
      the RESULT record when due. -/
  | drainPacket (n : Fin 16) (f : Fin 16)
  /-- MEM_TRAINING_DONE (R300): Harbour completes LPDDR5X training and sets READY in MEM_STATUS. -/
  | memTrainingDone (pop : BitVec 4) (density : Fin 6) (speed : Fin 4)
  /-- DRIFT_TRACK (R300): Every 100 ms Harbour tracks LPDDR5X timing drift without stopping traffic. -/
  | driftTrack
  /-- SCRUB_READ (R306): The patrol scrub reads a line and corrects any single-bit error. It names the line: interface, offset, and
      whether it is the last of the pass. -/
  | scrubRead (k : Fin 4) (off : Nat) (last : Bool)
  /-- INTERFACE_FAIL (R323): An LPDDR5X interface fails, setting MC_FAIL, losing its bindings and sending a fault
      record. -/
  | interfaceFail (k : Fin 4) (monitor : Bool) (parity : Bool)
  /-- EVENT_DELIVERY (R325): An event is delivered 2 cc after entering the router to every consumer, republication
      rule and export of its channel. -/
  | eventDelivery
  /-- EV_FIRE (R333): A write of EV_FIRE0 or EV_FIRE1 publishes events on the channels whose bits are set. -/
  | evFire (hi : Bool) (v : Reg32)
  /-- TI_CLR (R332): A write of TI_CLR discards every pending event of the engine. -/
  | tiClr (i : Fin 192) (v : Reg32)
  /-- TRG_EDGE (R334): A registered edge on a TRG input pin publishes on its channel. -/
  | trgEdge (p : Fin 8) (rising : Bool)
  /-- MARKER_END (R334): WIDTH cc after the last delivery the marker output pin goes inactive. -/
  | markerEnd (p : Fin 8)
  /-- LEGACY_RISE (R335): A legacy channel level rises, latching SEEN, publishing its event and acting on SAFE and
      WAKE. -/
  | legacyRise (k : Fin 8) (ilk : Bool)
  /-- LEGACY_FALL (R336): A legacy channel level falls, ending the rejection of enable writes while ports stay Safe. -/
  | legacyFall (k : Fin 8) (ilk : Bool)
  /-- UNIT_ARM (R349): A write of ARM in Uu_CMD checks and arms a capture unit. -/
  | unitArm (u : Fin 16) (v : Reg32)
  /-- UNIT_DISARM (R350): A write of DISARM in Uu_CMD abandons the record in progress and disarms the unit. -/
  | unitDisarm (u : Fin 16) (v : Reg32)
  /-- UNIT_FORCE (R346): A write of FORCE in Uu_CMD triggers a filling or waiting unit at its next point. -/
  | unitForce (u : Fin 16) (v : Reg32)
  /-- SCOPE_LINE (R344): A capture unit completes a line of points, writes it and tests triggers and masks. It names the line: the
      record of the fill and the line's number. -/
  | scopeLine (u : Fin 16) (record line : Nat)
  /-- SCOPE_RECORD_END (R351): Once every data line of a record has reached memory the unit writes its record table
      entry and refills or finishes. -/
  | scopeRecordEnd (u : Fin 16)
  /-- DEVICE_RESET (R432): A write of GLB_RESET with DEVICE_RESET and the key starts a device reset. -/
  | deviceReset (v : Reg32)
  /-- POWER_ON (R382): VAUX entering its range resets everything and raises MAIN_EN. -/
  | powerOn
  /-- COLD_START (R382): Groups 3–6 entering their ranges start the core clock and clear everything outside the VAUX
      island. -/
  | coldStart
  /-- PERST_ASSERT (R382): PERST# asserted causes a device reset that stops the core clock. -/
  | perstAssert
  /-- PERST_DEASSERT (R383): PERST# deasserted starts boot, or wakes the device from Neap or shut-down. -/
  | perstDeassert (aged : Bool)
  /-- RAIL_FAULT (R381): A rail outside its range for 10 µs causes a device reset or a tile fault. -/
  | railFault (i : Fin 17) (link : Bool) (frame : Bool) (clk : BitVec 3) (errTt : BitVec 36) (errs : Nat)
  /-- BOOT (R383): The ROM locks the PLLs, checks itself, fills the control stores and waits for firmware. -/
  | boot (refA : Bool) (refB : Bool) (aligned : Bool) (romOk : Bool) (serial : BitVec 64) (date : BitVec 14) (order : Bool) (straps : BitVec 3) (temps : List (BitVec 11))
  /-- GO (R433): A write of GO in BOOT_CMD starts fetching the firmware image, or refuses it at once. -/
  | go (v : Reg32)
  /-- FW_CHECK_DONE (R384): The ROM finishes fetching and verifying the firmware image and starts Harbour or returns
      to WAIT_FW. -/
  | fwCheckDone (img : Option (List Byte)) (off : Nat)
  /-- FW_READY (R385): Harbour finishes applying calibration and training and the boot status becomes FW_READY. -/
  | fwReady
  /-- NEAP_REQ (R387): A write of NEAP_REQ requests Neap, which is refused unless its conditions hold. -/
  | neapReq (v : Reg32)
  /-- READ_STATE (R391): The SMBus READ_STATE command returns the device state. -/
  | readState
  /-- READ_TEMP (R391): The SMBus READ_TEMP command returns TEMP_MAX. -/
  | readTemp
  /-- WAKE (R390): The SMBus WAKE command starts Neap or shut-down exit. -/
  | wake (aged : Bool)
  /-- NEAP (R391): The SMBus NEAP command requests Neap. -/
  | neap
  /-- RESET (R391): The SMBus RESET command causes a device reset. -/
  | reset
  /-- READ_RAILS (R391): The SMBus READ_RAILS command returns RAIL_OK. -/
  | readRails
  /-- READ_LEG (R391): The SMBus READ_LEG command returns LEG_STATUS. -/
  | readLeg
  /-- WRITE_LEG_SW (R391): The SMBus WRITE_LEG_SW command writes LEG_SW. -/
  | writeLegSw (v : BitVec 8)
  /-- TEMP_SAMPLE (R393): A fast-loop sensor sample updates the sensor's level entries and exits. -/
  | tempSample (n : Fin 24) (t : BitVec 11)
  /-- HOUSEKEEPING (R392): Every 10 ms the hardware sequencer samples every sensor and supply monitor. -/
  | housekeeping (temps : List (BitVec 11)) (rails : BitVec 17)
  /-- FALLBACK (R392): The fast loop updates no sensor for 3 ms and thresholds move to the housekeeping samples. -/
  | fallback
  /-- DWELL_END (R393): 100 ms after a sensor leaves a level its dwell ends and it may enter that level again. -/
  | dwellEnd (n : Fin 24)
  /-- RISE_EVAL (R394): Each rate-of-rise evaluation of a tile may trip PHASE_DRIFT and queue TILE_CLOCK. -/
  | riseEval (k : Fin 4)
  /-- THROTTLE_STEP (R396): THROTTLE_STEP rises every 10 ms in Throttle and falls every 100 ms below it, changing the
      power limit. -/
  | throttleStep
  /-- POWER_SAMPLE (R397): A new POWER_NOW value is compared with the limit and marks SHED_LEVEL for change at the
      next commit point. -/
  | powerSample (p : BitVec 16)
  /-- PARK (R397): At shed level 4 a port or cove idle for 10 ms is parked. -/
  | park (t : ParkRef)
  /-- HARBOUR_FAIL (R412): The watchdog sees no sign of life for 10 ms, clears HARBOUR_OK and sends a fault record. -/
  | harbourFail
  /-- REF_LOSS (R407): Loss of the reference in use switches the core clock to the other PLL and sends a REF_LOSS
      record. -/
  | refLoss (b : Bool) (lockOnly : Bool)
  /-- REF_REVERT (R408): When the preferred reference has been aligned for 1 ms the clock switches back at the next
      commit point. -/
  | refRevert
  /-- TILE_FAIL (R410): A converter tile failure takes its ports to Safe, stales its windows and sends a TILE_FAIL
      record. -/
  | tileFail (k : Fin 4) (link : Bool) (frame : Bool) (clk : BitVec 3) (rail : Bool) (errTt : BitVec 36) (errs : Nat)
  /-- SNAP (R421): A write of SNAP copies every counter into the snapshot registers. -/
  | snap (v : Reg32)
  /-- CLR_ALL (R425): A write of CLR_ALL sets every performance counter to zero. -/
  | clrAll (v : Reg32)
  /-- BW_EN (R424): A write of EN in BWm_CFG starts a bandwidth monitor with cleared results or stops it. -/
  | bwEn (m : Fin 8) (v : Reg32)
  /-- BW_WINDOW (R424): At each window end a bandwidth monitor records LAST, PEAK, MIN and WINDOWS. -/
  | bwWindow (m : Fin 8)
  /-- LOSS_OF_VAUX (R382): VAUX leaves its range, so the whole device, the VAUX island included, loses power and every
      pin falls to its no-supply Breakwater state. -/
  | lossOfVaux
  /-- REFERENCE_RETURN (R408): A reference that was absent becomes present again and its core PLL locks, so REFx_OK
      and ALIGNED can set again and a ROM waiting in NO_REF resumes boot. -/
  | referenceReturn (b : Bool) (aligned : Bool)
  /-- FRAME_DISCARD (R56): A ring frame that fails its CRC or carries a reserved TYPE is discarded and counted in
      CRC_ERR_A, CRC_ERR_B or FRAME_DROP, with an outgoing copy ended by an error block. -/
  | frameDiscard (rx : Rx) (crc : BitVec 32) (begun : Bool)
  /-- BAD_KIND (R280): A fetched descriptor with a reserved KIND completes with BAD_KIND and has no other effect. -/
  | badKind (r : Fin 256) (seq : Reg32)
  /-- RESERVED_COMMAND (R93): A pulse or window command with a reserved opcode enters its port or receiver queue,
      where check 1 discards it with BAD_CMD and increments DISCARD_COUNT. -/
  | reservedCommand (window : Bool) (c : Fin 16) (w0 : Word) (w1 : Word) (w2 : Word) (w3 : Word)
  /-- NEAP_EXIT (R388): A wake source that arrived during Neap entry starts the exit once MAIN_EN has been low for 10
      ms, raising MAIN_EN. -/
  | neapExit
  deriving DecidableEq, Repr

end Sys2Proof
end

