-- ==== Sys2Proof/Decode.lean ====
section
/-! DEFINITION. Words of commands. No row of the opcode table gives bits, so no word of the table spells a command. The engines of the
block run words of their own, 36 bits with the opcode in [35:28] (R209, R210); the codec between those words and the commands
that run them stands here. -/

namespace Sys2Proof

/-- The command that a word spells by the bits of the opcode table: the table gives no row bits, so none. -/
def decodeTableWord (_nbits _w : Nat) : Option Instr := none

/-- The command with which engine `e` runs an instruction of opcode `op` and operand bits [27:0] `f`, a block instruction up to `upto`
elements (R210). -/
def yosumOp (op : Nat) (e : Fin 192) (f : BitVec 28) (upto : Nat) : Option Instr :=
  match op with
  | 0x00 => some (.nop e f)
  | 0x01 => some (.halt e f)
  | 0x10 => some (.add e f)
  | 0x11 => some (.sub e f)
  | 0x12 => some (.and e f)
  | 0x13 => some (.or e f)
  | 0x14 => some (.xor e f)
  | 0x15 => some (.shl e f)
  | 0x16 => some (.shr e f)
  | 0x17 => some (.sra e f)
  | 0x18 => some (.min e f)
  | 0x19 => some (.max e f)
  | 0x1A => some (.adds e f)
  | 0x1B => some (.cmp e f)
  | 0x1C => some (.tst e f)
  | 0x1D => some (.ext e f)
  | 0x1E => some (.ins e f)
  | 0x1F => some (.cadd e f)
  | 0x20 => some (.addi e f)
  | 0x22 => some (.andi e f)
  | 0x23 => some (.ori e f)
  | 0x24 => some (.xori e f)
  | 0x25 => some (.shli e f)
  | 0x26 => some (.shri e f)
  | 0x27 => some (.srai e f)
  | 0x2B => some (.cmpi e f)
  | 0x2C => some (.tsti e f)
  | 0x30 => some (.li e f)
  | 0x31 => some (.lih e f)
  | 0x32 => some (.movs e f)
  | 0x33 => some (.movsw e f)
  | 0x40 => some (.mac e f)
  | 0x41 => some (.msu e f)
  | 0x42 => some (.cmac e f)
  | 0x43 => some (.cmacj e f)
  | 0x44 => some (.cmsu e f)
  | 0x45 => some (.cmsuj e f)
  | 0x46 => some (.macm e f)
  | 0x47 => some (.cmacm e f)
  | 0x48 => some (.nrw e f)
  | 0x49 => some (.cnrw e f)
  | 0x4A => some (.clra e f)
  | 0x4B => some (.rda e f)
  | 0x4C => some (.wra e f)
  | 0x4D => some (.wrah e f)
  | 0x50 => some (.ld e f)
  | 0x51 => some (.st e f)
  | 0x52 => some (.ld2 e f)
  | 0x53 => some (.st2 e f)
  | 0x54 => some (.ldo e f)
  | 0x55 => some (.sto e f)
  | 0x56 => some (.seta e f)
  | 0x57 => some (.setp e f)
  | 0x58 => some (.geta e f)
  | 0x60 => some (.bdot e f upto)
  | 0x61 => some (.bscale e f upto)
  | 0x62 => some (.bacc e f upto)
  | 0x63 => some (.bcopy e f upto)
  | 0x64 => some (.bhist e f upto)
  | 0x65 => some (.bfly e f upto)
  | 0x66 => some (.bemit e f upto)
  | 0x70 => some (.pissue e f)
  | 0x71 => some (.wissue e f)
  | 0x72 => some (.pissuem e f)
  | 0x73 => some (.wissuem e f)
  | 0x78 => some (.publish e f)
  | 0x79 => some (.await e f)
  | 0x7C => some (.signal e f)
  | 0x7D => some (.waitev e f)
  | 0x7E => some (.rete e f)
  | 0x80 => some (.emit e f)
  | 0x81 => some (.commit e f)
  | 0x82 => some (.abort e f)
  | 0x90 => some (.br e f)
  | 0x91 => some (.brr e f)
  | 0x92 => some (.call e f)
  | 0x93 => some (.ret e f)
  | 0x94 => some (.dbnz e f)
  | _ => none

/-- The command with which engine `e` runs an instruction word; none for an opcode the map does not list (R209, R210). -/
def decodeYosum (e : Fin 192) (upto : Nat) (w : Word) : Option Instr :=
  yosumOp (w >>> 28).toNat e (BitVec.ofNat 28 w.toNat) upto

/-- The opcode and the operand bits of the word a command runs (R210). -/
def yosumParts : Instr → Option (Nat × BitVec 28)
  | .nop _ f => some (0x00, f)
  | .halt _ f => some (0x01, f)
  | .add _ f => some (0x10, f)
  | .sub _ f => some (0x11, f)
  | .and _ f => some (0x12, f)
  | .or _ f => some (0x13, f)
  | .xor _ f => some (0x14, f)
  | .shl _ f => some (0x15, f)
  | .shr _ f => some (0x16, f)
  | .sra _ f => some (0x17, f)
  | .min _ f => some (0x18, f)
  | .max _ f => some (0x19, f)
  | .adds _ f => some (0x1A, f)
  | .cmp _ f => some (0x1B, f)
  | .tst _ f => some (0x1C, f)
  | .ext _ f => some (0x1D, f)
  | .ins _ f => some (0x1E, f)
  | .cadd _ f => some (0x1F, f)
  | .addi _ f => some (0x20, f)
  | .andi _ f => some (0x22, f)
  | .ori _ f => some (0x23, f)
  | .xori _ f => some (0x24, f)
  | .shli _ f => some (0x25, f)
  | .shri _ f => some (0x26, f)
  | .srai _ f => some (0x27, f)
  | .cmpi _ f => some (0x2B, f)
  | .tsti _ f => some (0x2C, f)
  | .li _ f => some (0x30, f)
  | .lih _ f => some (0x31, f)
  | .movs _ f => some (0x32, f)
  | .movsw _ f => some (0x33, f)
  | .mac _ f => some (0x40, f)
  | .msu _ f => some (0x41, f)
  | .cmac _ f => some (0x42, f)
  | .cmacj _ f => some (0x43, f)
  | .cmsu _ f => some (0x44, f)
  | .cmsuj _ f => some (0x45, f)
  | .macm _ f => some (0x46, f)
  | .cmacm _ f => some (0x47, f)
  | .nrw _ f => some (0x48, f)
  | .cnrw _ f => some (0x49, f)
  | .clra _ f => some (0x4A, f)
  | .rda _ f => some (0x4B, f)
  | .wra _ f => some (0x4C, f)
  | .wrah _ f => some (0x4D, f)
  | .ld _ f => some (0x50, f)
  | .st _ f => some (0x51, f)
  | .ld2 _ f => some (0x52, f)
  | .st2 _ f => some (0x53, f)
  | .ldo _ f => some (0x54, f)
  | .sto _ f => some (0x55, f)
  | .seta _ f => some (0x56, f)
  | .setp _ f => some (0x57, f)
  | .geta _ f => some (0x58, f)
  | .bdot _ f _ => some (0x60, f)
  | .bscale _ f _ => some (0x61, f)
  | .bacc _ f _ => some (0x62, f)
  | .bcopy _ f _ => some (0x63, f)
  | .bhist _ f _ => some (0x64, f)
  | .bfly _ f _ => some (0x65, f)
  | .bemit _ f _ => some (0x66, f)
  | .pissue _ f => some (0x70, f)
  | .wissue _ f => some (0x71, f)
  | .pissuem _ f => some (0x72, f)
  | .wissuem _ f => some (0x73, f)
  | .publish _ f => some (0x78, f)
  | .await _ f => some (0x79, f)
  | .signal _ f => some (0x7C, f)
  | .waitev _ f => some (0x7D, f)
  | .rete _ f => some (0x7E, f)
  | .emit _ f => some (0x80, f)
  | .commit _ f => some (0x81, f)
  | .abort _ f => some (0x82, f)
  | .br _ f => some (0x90, f)
  | .brr _ f => some (0x91, f)
  | .call _ f => some (0x92, f)
  | .ret _ f => some (0x93, f)
  | .dbnz _ f => some (0x94, f)
  | _ => none

/-- The instruction word a command runs (R209, R210). -/
def encodeYosum (i : Instr) : Option Word :=
  match yosumParts i with
  | some (op, f) => some (BitVec.ofNat 8 op ++ f)
  | none => none

/-- The engine a command runs on. -/
def yosumEngine : Instr → Option (Fin 192)
  | .nop e _ => some e
  | .halt e _ => some e
  | .add e _ => some e
  | .sub e _ => some e
  | .and e _ => some e
  | .or e _ => some e
  | .xor e _ => some e
  | .shl e _ => some e
  | .shr e _ => some e
  | .sra e _ => some e
  | .min e _ => some e
  | .max e _ => some e
  | .adds e _ => some e
  | .cmp e _ => some e
  | .tst e _ => some e
  | .ext e _ => some e
  | .ins e _ => some e
  | .cadd e _ => some e
  | .addi e _ => some e
  | .andi e _ => some e
  | .ori e _ => some e
  | .xori e _ => some e
  | .shli e _ => some e
  | .shri e _ => some e
  | .srai e _ => some e
  | .cmpi e _ => some e
  | .tsti e _ => some e
  | .li e _ => some e
  | .lih e _ => some e
  | .movs e _ => some e
  | .movsw e _ => some e
  | .mac e _ => some e
  | .msu e _ => some e
  | .cmac e _ => some e
  | .cmacj e _ => some e
  | .cmsu e _ => some e
  | .cmsuj e _ => some e
  | .macm e _ => some e
  | .cmacm e _ => some e
  | .nrw e _ => some e
  | .cnrw e _ => some e
  | .clra e _ => some e
  | .rda e _ => some e
  | .wra e _ => some e
  | .wrah e _ => some e
  | .ld e _ => some e
  | .st e _ => some e
  | .ld2 e _ => some e
  | .st2 e _ => some e
  | .ldo e _ => some e
  | .sto e _ => some e
  | .seta e _ => some e
  | .setp e _ => some e
  | .geta e _ => some e
  | .bdot e _ _ => some e
  | .bscale e _ _ => some e
  | .bacc e _ _ => some e
  | .bcopy e _ _ => some e
  | .bhist e _ _ => some e
  | .bfly e _ _ => some e
  | .bemit e _ _ => some e
  | .pissue e _ => some e
  | .wissue e _ => some e
  | .pissuem e _ => some e
  | .wissuem e _ => some e
  | .publish e _ => some e
  | .await e _ => some e
  | .signal e _ => some e
  | .waitev e _ => some e
  | .rete e _ => some e
  | .emit e _ => some e
  | .commit e _ => some e
  | .abort e _ => some e
  | .br e _ => some e
  | .brr e _ => some e
  | .call e _ => some e
  | .ret e _ => some e
  | .dbnz e _ => some e
  | _ => none

/-- The elements a block instruction goes on to in this step; zero for the others. -/
def yosumUpto : Instr → Nat
  | .bdot _ _ upto => upto
  | .bscale _ _ upto => upto
  | .bacc _ _ upto => upto
  | .bcopy _ _ upto => upto
  | .bhist _ _ upto => upto
  | .bfly _ _ upto => upto
  | .bemit _ _ upto => upto
  | _ => 0

end Sys2Proof
end

