-- ==== Sys2Proof/Config.lean ====
section
/-! DEFINITION. The free values: what the spec leaves open has no body here, so no proof can see it.  A claim that
holds in this model holds whatever these functions are. -/

namespace Sys2Proof.Config

/-- A value the spec leaves open, one per use: applied to the use counter of the state (log entry 10). -/
opaque freeValue : Nat → BitVec 64

/-- The sine of a phase in units of 2⁻¹⁸ turn, in units of 2⁻³⁰: the spec gives the resolution of the phase, not the table
or its rounding (log entry 40). -/
opaque sine : Nat → Int

/-- The sine of a carrier phase in units of 2⁻²⁰ turn, in units of 2⁻³⁰, where it is no quarter turn (log entry 40). -/
opaque sine20 : Nat → Int

/-- The voltage at read-out input `n` at its ADC sample `k`, eight samples a core cycle counted from cycle 0, in pV: what the outside applies
(R132, log entry 56). -/
opaque pinVolts : Nat → Nat → Int

/-- The first half of the symmetric impulse response of the decimation filter but its last tap, in units of 2⁻⁴⁸: the spec bounds its
response and prints no tap (R137, log entry 56). -/
opaque filterTap : Nat → Int

/-- How the two halves of a decimated sample round where they are not exact: by input, demodulator and first pin sample (R137, log
entry 56). -/
opaque filterUp : Nat → Nat → Nat → BitVec 2

/-- A decimated sample whose filter reaches over samples the core did not produce: by input, demodulator and first pin sample (R134, R137,
log entry 56). -/
opaque filterIdle : Nat → Nat → Nat → Word

/-- Whether, at cycle `n`, the far end of the link pair at input A (false) or B (true) has shown lock for 1,000,000 cc without a break: another
device's state (R76, log entry 7). -/
opaque farLock : Bool → Nat → Bool

/-- The residue of the Phase Count at which reference edges fall before the first anchoring, modulo the reference period (R48): the
device does not state it (log entry 20). -/
opaque refResidue : Nat

/-- The standard image of microwords, by microaddress (R239): the spec does not print it (log entry 12). -/
opaque rom : Nat → BitVec 24

/-- The immediate of an opcode the opcode map leaves undefined: 0 IMM, 1 IMM23, 2 and 3 TARGET (R242): the spec does not say how such
an opcode's format is found (log entry 12). -/
opaque immFormat : Nat → BitVec 2

/-- SHA-384 of a byte string, the first byte of the digest most significant: the spec names the function by its standard (log
entry 42). -/
opaque sha384 : List Byte → BitVec 384

/-- Is the signature (r then s, 48 bytes each) one of the key's over the digest under ECDSA P-384? The spec names the check by its
standard (log entry 42). -/
opaque ecdsaOk : List Byte → BitVec 384 → List Byte → Bool

/-- The dispatch entries of the standard image (R238, R239): the spec does not print them (log entry 12). -/
opaque romDispatch : Nat → BitVec 16

end Sys2Proof.Config
end

