-- ==== Sys2Proof/Machine/Regs.lean ====
section
/-! DEFINITION. The register maps of the spec: the address of every setup register of BAR0 (R426), under the
register's own name, and for each block a table of its registers with their access masks (R10) and reset values.
B0-B15 share BAR0 addresses with F16-F31 (R429): their registers have keys above BAR0, from 0x127_0000.
ENG_ registers are indexed by the global engine index 12 * cove + engine; D0-D63 are ports 0-63 and P0-P15 ports 64-79. -/

namespace Sys2Proof.Machine

/-- One row of a register map: offset in the block (with two strides and counts for numbered registers), the masks of
its RW, SL, W1C, WO and RO fields (R10), and its reset value. -/
structure RegRow where
  base : Nat
  s1 : Nat
  n1 : Nat
  s2 : Nat
  n2 : Nat
  rw : Reg32
  sl : Reg32
  w1c : Reg32
  wo : Reg32
  ro : Reg32
  reset : Reg32
  deriving DecidableEq, Repr

/-! ### GLB and PERF (R431, R425) -/

def PERF_CTL : Nat := 0x1000
def PERF_STATUS : Nat := 0x1004
def PERF_EN : Nat := 0x1008
def PERF_OVF : Nat := 0x100C
def PCNT_SEL (n : Nat) : Nat := 0x1100 + 0x10 * n
def PCNT_LO (n : Nat) : Nat := 0x1104 + 0x10 * n
def PCNT_HI (n : Nat) : Nat := 0x1108 + 0x10 * n
def PSNAP_LO (n : Nat) : Nat := 0x1400 + 0x8 * n
def PSNAP_HI (n : Nat) : Nat := 0x1404 + 0x8 * n
def BW_CFG (m : Nat) : Nat := 0x1800 + 0x20 * m
def BW_WIN (m : Nat) : Nat := 0x1804 + 0x20 * m
def BW_LAST (m : Nat) : Nat := 0x1808 + 0x20 * m
def BW_PEAK (m : Nat) : Nat := 0x180C + 0x20 * m
def BW_MIN (m : Nat) : Nat := 0x1810 + 0x20 * m
def BW_WINDOWS (m : Nat) : Nat := 0x1814 + 0x20 * m
def GLB_ID : Nat := 0x0
def GLB_SERIAL_LO : Nat := 0x4
def GLB_SERIAL_HI : Nat := 0x8
def GLB_DATE : Nat := 0xC
def GLB_ROM : Nat := 0x10
def GLB_STRAPS : Nat := 0x14
def GLB_RESET : Nat := 0x20
def GLB_STATUS : Nat := 0x24
def BOOT_STATUS : Nat := 0x40
def BOOT_ADDR_LO : Nat := 0x44
def BOOT_ADDR_HI : Nat := 0x48
def BOOT_LEN : Nat := 0x4C
def BOOT_CMD : Nat := 0x50
def FW_VERSION : Nat := 0x54
def BOOT_DETAIL : Nat := 0x58
def BOOT_MEMCFG : Nat := 0x5C
def GLB_NUDGE : Nat := 0x80

/-- Register map of GLB and PERF (R431, R425), part 1: PERF_CTL, PERF_STATUS, PERF_EN, PERF_OVF, PCNT_SEL, PCNT_LO, PCNT_HI, PSNAP_LO, PSNAP_HI, BW_CFG, BW_WIN, BW_LAST. -/
def glbMap1 : List RegRow := [
  ⟨0x1000, 0, 1, 0, 1, 0x7F9, 0x0, 0x0, 0x6, 0x0, 0x0⟩,
  ⟨0x1004, 0, 1, 0, 1, 0x0, 0x0, 0x100, 0x0, 0xFFFF0000, 0x0⟩,
  ⟨0x1008, 0, 1, 0, 1, 0xFFFFFFFF, 0x0, 0x0, 0x0, 0x0, 0x0⟩,
  ⟨0x100C, 0, 1, 0, 1, 0x0, 0x0, 0xFFFFFFFF, 0x0, 0x0, 0x0⟩,
  ⟨0x1100, 16, 32, 0, 1, 0x0, 0x3FFFF, 0x0, 0x0, 0x0, 0x0⟩,
  ⟨0x1104, 16, 32, 0, 1, 0xFFFFFFFF, 0x0, 0x0, 0x0, 0x0, 0x0⟩,
  ⟨0x1108, 16, 32, 0, 1, 0xFFFF, 0x0, 0x0, 0x0, 0x0, 0x0⟩,
  ⟨0x1400, 8, 32, 0, 1, 0x0, 0x0, 0x0, 0x0, 0xFFFFFFFF, 0x0⟩,
  ⟨0x1404, 8, 32, 0, 1, 0x0, 0x0, 0x0, 0x0, 0xFFFF, 0x0⟩,
  ⟨0x1800, 32, 8, 0, 1, 0x400, 0x3FF, 0x0, 0x0, 0x0, 0x0⟩,
  ⟨0x1804, 32, 8, 0, 1, 0x0, 0x3FFFFFFF, 0x0, 0x0, 0x0, 0xF4240⟩,
  ⟨0x1808, 32, 8, 0, 1, 0x0, 0x0, 0x0, 0x0, 0xFFFFFFFF, 0x0⟩]

/-- Register map of GLB and PERF (R431, R425), part 2: BW_PEAK, BW_MIN, BW_WINDOWS, GLB_ID, GLB_SERIAL_LO, GLB_SERIAL_HI, GLB_DATE, GLB_ROM, GLB_STRAPS, GLB_RESET, GLB_STATUS, BOOT_STATUS. -/
def glbMap2 : List RegRow := [
  ⟨0x180C, 32, 8, 0, 1, 0x0, 0x0, 0x0, 0x0, 0xFFFFFFFF, 0x0⟩,
  ⟨0x1810, 32, 8, 0, 1, 0x0, 0x0, 0x0, 0x0, 0xFFFFFFFF, 0xFFFFFFFF⟩,
  ⟨0x1814, 32, 8, 0, 1, 0x0, 0x0, 0x0, 0x0, 0xFFFFFFFF, 0x0⟩,
  ⟨0x0, 0, 1, 0, 1, 0x0, 0x0, 0x0, 0x0, 0x1FFFFFF, 0xB07192⟩,
  ⟨0x4, 0, 1, 0, 1, 0x0, 0x0, 0x0, 0x0, 0xFFFFFFFF, 0x0⟩,
  ⟨0x8, 0, 1, 0, 1, 0x0, 0x0, 0x0, 0x0, 0xFFFFFFFF, 0x0⟩,
  ⟨0xC, 0, 1, 0, 1, 0x0, 0x0, 0x0, 0x0, 0x3FFF, 0x0⟩,
  ⟨0x10, 0, 1, 0, 1, 0x0, 0x0, 0x0, 0x0, 0xFF, 0x1⟩,
  ⟨0x14, 0, 1, 0, 1, 0x0, 0x0, 0x0, 0x0, 0x7, 0x0⟩,
  ⟨0x20, 0, 1, 0, 1, 0x0, 0x0, 0x0, 0xFFFF0001, 0x0, 0x0⟩,
  ⟨0x24, 0, 1, 0, 1, 0x0, 0x0, 0x100, 0x0, 0x1, 0x0⟩,
  ⟨0x40, 0, 1, 0, 1, 0x0, 0x0, 0x0, 0x0, 0xFFFF, 0x0⟩]

/-- Register map of GLB and PERF (R431, R425), part 3: BOOT_ADDR_LO, BOOT_ADDR_HI, BOOT_LEN, BOOT_CMD, FW_VERSION, BOOT_DETAIL, BOOT_MEMCFG, GLB_NUDGE. -/
def glbMap3 : List RegRow := [
  ⟨0x44, 0, 1, 0, 1, 0x0, 0xFFFFFFFF, 0x0, 0x0, 0x0, 0x0⟩,
  ⟨0x48, 0, 1, 0, 1, 0x0, 0xFFFFFFFF, 0x0, 0x0, 0x0, 0x0⟩,
  ⟨0x4C, 0, 1, 0, 1, 0x0, 0x7FFFFF, 0x0, 0x0, 0x0, 0x0⟩,
  ⟨0x50, 0, 1, 0, 1, 0x0, 0x0, 0x0, 0x1, 0x0, 0x0⟩,
  ⟨0x54, 0, 1, 0, 1, 0x0, 0x0, 0x0, 0x0, 0xFFFFFFFF, 0x0⟩,
  ⟨0x58, 0, 1, 0, 1, 0x0, 0x0, 0x0, 0x0, 0xFFFFFFFF, 0x0⟩,
  ⟨0x5C, 0, 1, 0, 1, 0x0, 0x3, 0x0, 0x0, 0x0, 0x3⟩,
  ⟨0x80, 0, 1, 0, 1, 0x0, 0x0, 0x0, 0xFFFFFFFF, 0x0, 0x0⟩]

/-- Register map of GLB and PERF (R431, R425). -/
def glbMap : List RegRow := glbMap1 ++ glbMap2 ++ glbMap3

/-! ### HST (R297) -/

def HST_CTL : Nat := 0x10000
def HST_STATUS : Nat := 0x10004
def DB_BASE_LO : Nat := 0x10008
def DB_BASE_HI : Nat := 0x1000C
def POLL_INTERVAL : Nat := 0x10010
def INFLIGHT_TOTAL : Nat := 0x10014
def POLL_COUNT : Nat := 0x10018
def POLL_SKIP : Nat := 0x1001C
def NUDGE_COUNT : Nat := 0x10020
def FAULT_DROP : Nat := 0x10024
def BAR2_WIN : Nat := 0x10028
def WIN_BASE_LO (w : Nat) : Nat := 0x10100 + 0x20 * w
def WIN_BASE_HI (w : Nat) : Nat := 0x10104 + 0x20 * w
def WIN_LIMIT_LO (w : Nat) : Nat := 0x10108 + 0x20 * w
def WIN_LIMIT_HI (w : Nat) : Nat := 0x1010C + 0x20 * w
def WIN_CTL (w : Nat) : Nat := 0x10110 + 0x20 * w
def DQ_BASE_LO (r : Nat) : Nat := 0x11000 + 0x40 * r
def DQ_BASE_HI (r : Nat) : Nat := 0x11004 + 0x40 * r
def CQ_BASE_LO (r : Nat) : Nat := 0x11008 + 0x40 * r
def CQ_BASE_HI (r : Nat) : Nat := 0x1100C + 0x40 * r
def RING_CFG (r : Nat) : Nat := 0x11010 + 0x40 * r
def RING_MOD (r : Nat) : Nat := 0x11014 + 0x40 * r
def HRING_CTL (r : Nat) : Nat := 0x11018 + 0x40 * r
def HRING_STATUS (r : Nat) : Nat := 0x1101C + 0x40 * r
def RING_FETCH (r : Nat) : Nat := 0x11020 + 0x40 * r
def RING_CQ_PROD (r : Nat) : Nat := 0x11024 + 0x40 * r
def RING_INFLIGHT (r : Nat) : Nat := 0x11028 + 0x40 * r
/-- MSI-X table entry v (R261); every vector is masked after a reset (R263). -/
def MSIX_ADDR_LO (v : Nat) : Nat := 0x18000 + 0x10 * v
/-- MSI-X table entry v (R261); every vector is masked after a reset (R263). -/
def MSIX_ADDR_HI (v : Nat) : Nat := 0x18004 + 0x10 * v
/-- MSI-X table entry v (R261); every vector is masked after a reset (R263). -/
def MSIX_DATA (v : Nat) : Nat := 0x18008 + 0x10 * v
/-- MSI-X table entry v (R261); every vector is masked after a reset (R263). -/
def MSIX_CTL (v : Nat) : Nat := 0x1800C + 0x10 * v
/-- MSI-X pending bit array, word i (R261). -/
def MSIX_PBA (i : Nat) : Nat := 0x19000 + 0x4 * i

/-- Register map of HST (R297), part 1: HST_CTL, HST_STATUS, DB_BASE_LO, DB_BASE_HI, POLL_INTERVAL, INFLIGHT_TOTAL, POLL_COUNT, POLL_SKIP, NUDGE_COUNT, FAULT_DROP, BAR2_WIN, WIN_BASE_LO. -/
def hstMap1 : List RegRow := [
  ⟨0x0, 0, 1, 0, 1, 0x1FF01, 0x0, 0x0, 0x0, 0x0, 0x0⟩,
  ⟨0x4, 0, 1, 0, 1, 0x0, 0x0, 0x300, 0x0, 0x3, 0x0⟩,
  ⟨0x8, 0, 1, 0, 1, 0x0, 0xFFFFFFFF, 0x0, 0x0, 0x0, 0x0⟩,
  ⟨0xC, 0, 1, 0, 1, 0x0, 0xFFFFFFFF, 0x0, 0x0, 0x0, 0x0⟩,
  ⟨0x10, 0, 1, 0, 1, 0xFFFFF, 0x0, 0x0, 0x0, 0x0, 0x3E8⟩,
  ⟨0x14, 0, 1, 0, 1, 0x0, 0x0, 0x0, 0x0, 0x3FFFF, 0x0⟩,
  ⟨0x18, 0, 1, 0, 1, 0x0, 0x0, 0x0, 0x0, 0xFFFFFFFF, 0x0⟩,
  ⟨0x1C, 0, 1, 0, 1, 0x0, 0x0, 0x0, 0x0, 0xFFFFFFFF, 0x0⟩,
  ⟨0x20, 0, 1, 0, 1, 0x0, 0x0, 0x0, 0x0, 0xFFFFFFFF, 0x0⟩,
  ⟨0x24, 0, 1, 0, 1, 0x0, 0x0, 0x0, 0x0, 0xFFFFFFFF, 0x0⟩,
  ⟨0x28, 0, 1, 0, 1, 0xFFF, 0x0, 0x0, 0x0, 0x0, 0x0⟩,
  ⟨0x100, 32, 8, 0, 1, 0xFFFFF000, 0x0, 0x0, 0x0, 0x0, 0x0⟩]

/-- Register map of HST (R297), part 2: WIN_BASE_HI, WIN_LIMIT_LO, WIN_LIMIT_HI, WIN_CTL, DQ_BASE_LO, DQ_BASE_HI, CQ_BASE_LO, CQ_BASE_HI, RING_CFG, RING_MOD, HRING_CTL, HRING_STATUS. -/
def hstMap2 : List RegRow := [
  ⟨0x104, 32, 8, 0, 1, 0xFFFFFFFF, 0x0, 0x0, 0x0, 0x0, 0x0⟩,
  ⟨0x108, 32, 8, 0, 1, 0xFFFFF000, 0x0, 0x0, 0x0, 0x0, 0x0⟩,
  ⟨0x10C, 32, 8, 0, 1, 0xFFFFFFFF, 0x0, 0x0, 0x0, 0x0, 0x0⟩,
  ⟨0x110, 32, 8, 0, 1, 0x3, 0x0, 0x0, 0x0, 0x0, 0x0⟩,
  ⟨0x1000, 64, 256, 0, 1, 0x0, 0xFFFFFFFF, 0x0, 0x0, 0x0, 0x0⟩,
  ⟨0x1004, 64, 256, 0, 1, 0x0, 0xFFFFFFFF, 0x0, 0x0, 0x0, 0x0⟩,
  ⟨0x1008, 64, 256, 0, 1, 0x0, 0xFFFFFFFF, 0x0, 0x0, 0x0, 0x0⟩,
  ⟨0x100C, 64, 256, 0, 1, 0x0, 0xFFFFFFFF, 0x0, 0x0, 0x0, 0x0⟩,
  ⟨0x1010, 64, 256, 0, 1, 0x0, 0x3F1F1F, 0x0, 0x0, 0x0, 0x404⟩,
  ⟨0x1014, 64, 256, 0, 1, 0x1FFFFFF, 0x0, 0x0, 0x0, 0x0, 0x1⟩,
  ⟨0x1018, 64, 256, 0, 1, 0x1, 0x0, 0x0, 0x2, 0x0, 0x0⟩,
  ⟨0x101C, 64, 256, 0, 1, 0x0, 0x0, 0x1F00, 0x0, 0xF, 0x2⟩]

/-- Register map of HST (R297), part 3: RING_FETCH, RING_CQ_PROD, RING_INFLIGHT, MSIX_ADDR_LO, MSIX_ADDR_HI, MSIX_DATA, MSIX_CTL, MSIX_PBA. -/
def hstMap3 : List RegRow := [
  ⟨0x1020, 64, 256, 0, 1, 0x0, 0x0, 0x0, 0x0, 0xFFFFFFFF, 0x0⟩,
  ⟨0x1024, 64, 256, 0, 1, 0x0, 0x0, 0x0, 0x0, 0xFFFFFFFF, 0x0⟩,
  ⟨0x1028, 64, 256, 0, 1, 0x0, 0x0, 0x0, 0x0, 0x1FFFF, 0x0⟩,
  ⟨0x8000, 16, 64, 0, 1, 0xFFFFFFFC, 0x0, 0x0, 0x0, 0x0, 0x0⟩,
  ⟨0x8004, 16, 64, 0, 1, 0xFFFFFFFF, 0x0, 0x0, 0x0, 0x0, 0x0⟩,
  ⟨0x8008, 16, 64, 0, 1, 0xFFFFFFFF, 0x0, 0x0, 0x0, 0x0, 0x0⟩,
  ⟨0x800C, 16, 64, 0, 1, 0x1, 0x0, 0x0, 0x0, 0x0, 0x1⟩,
  ⟨0x9000, 4, 2, 0, 1, 0x0, 0x0, 0x0, 0x0, 0xFFFFFFFF, 0x0⟩]

/-- Register map of HST (R297). -/
def hstMap : List RegRow := hstMap1 ++ hstMap2 ++ hstMap3

/-! ### TIDE (R49) -/

def TIDE_CTL : Nat := 0x20000
def TIDE_STATUS : Nat := 0x20004
def TIDE_INC : Nat := 0x20008
def TIDE_INC_ACT : Nat := 0x2000C
def TIDE_NOW_LO : Nat := 0x20010
def TIDE_NOW_HI : Nat := 0x20014
def TIDE_NOW_FRAC : Nat := 0x20018
def PHASE_NOW_LO : Nat := 0x2001C
def PHASE_NOW_HI : Nat := 0x20020
def TIDE_SET_LO : Nat := 0x20028
def TIDE_SET_HI : Nat := 0x2002C
def TIDE_SET_FRAC : Nat := 0x20030
def GRID_ORIGIN_LO : Nat := 0x20040
def GRID_ORIGIN_HI : Nat := 0x20044
def GRID_PERIOD : Nat := 0x20048
def SHOT_LEN : Nat := 0x2004C
def GRID_CMD : Nat := 0x20050
def SHOT_EPOCH : Nat := 0x20054
def HOLD_COUNT : Nat := 0x20058
def ALM_TARGET_LO (n : Nat) : Nat := 0x20100 + 0x10 * n
def ALM_TARGET_HI (n : Nat) : Nat := 0x20104 + 0x10 * n
def ALM_PERIOD (n : Nat) : Nat := 0x20108 + 0x10 * n
def ALM_CTL (n : Nat) : Nat := 0x2010C + 0x10 * n
def CAP_CTL (n : Nat) : Nat := 0x20400 + 0x20 * n
def CAP_SUB (n : Nat) : Nat := 0x20404 + 0x20 * n
def CAP_TT_LO (n : Nat) : Nat := 0x20408 + 0x20 * n
def CAP_TT_HI (n : Nat) : Nat := 0x2040C + 0x20 * n
def CAP_PC_LO (n : Nat) : Nat := 0x20410 + 0x20 * n
def CAP_PC_HI (n : Nat) : Nat := 0x20414 + 0x20 * n

/-- Register map of TIDE (R49), part 1: TIDE_CTL, TIDE_STATUS, TIDE_INC, TIDE_INC_ACT, TIDE_NOW_LO, TIDE_NOW_HI, TIDE_NOW_FRAC, PHASE_NOW_LO, PHASE_NOW_HI, TIDE_SET_LO, TIDE_SET_HI, TIDE_SET_FRAC. -/
def tideMap1 : List RegRow := [
  ⟨0x0, 0, 1, 0, 1, 0x1, 0xFFFC, 0x0, 0x2, 0x0, 0x0⟩,
  ⟨0x4, 0, 1, 0, 1, 0x0, 0x0, 0xF00, 0x0, 0x1F, 0x0⟩,
  ⟨0x8, 0, 1, 0, 1, 0xFFFFFFFF, 0x0, 0x0, 0x0, 0x0, 0x1000000⟩,
  ⟨0xC, 0, 1, 0, 1, 0x0, 0x0, 0x0, 0x0, 0xFFFFFFFF, 0x1000000⟩,
  ⟨0x10, 0, 1, 0, 1, 0x0, 0x0, 0x0, 0x0, 0xFFFFFFFF, 0x0⟩,
  ⟨0x14, 0, 1, 0, 1, 0x0, 0x0, 0x0, 0x0, 0xFFFFFFFF, 0x0⟩,
  ⟨0x18, 0, 1, 0, 1, 0x0, 0x0, 0x0, 0x0, 0xFFFFFFFF, 0x0⟩,
  ⟨0x1C, 0, 1, 0, 1, 0x0, 0x0, 0x0, 0x0, 0xFFFFFFFF, 0x0⟩,
  ⟨0x20, 0, 1, 0, 1, 0x0, 0x0, 0x0, 0x0, 0xFFFFFFFF, 0x0⟩,
  ⟨0x28, 0, 1, 0, 1, 0xFFFFFFFF, 0x0, 0x0, 0x0, 0x0, 0x0⟩,
  ⟨0x2C, 0, 1, 0, 1, 0xFFFFFFFF, 0x0, 0x0, 0x0, 0x0, 0x0⟩,
  ⟨0x30, 0, 1, 0, 1, 0xFFFFFFFF, 0x0, 0x0, 0x0, 0x0, 0x0⟩]

/-- Register map of TIDE (R49), part 2: GRID_ORIGIN_LO, GRID_ORIGIN_HI, GRID_PERIOD, SHOT_LEN, GRID_CMD, SHOT_EPOCH, HOLD_COUNT, ALM_TARGET_LO, ALM_TARGET_HI, ALM_PERIOD, ALM_CTL, CAP_CTL. -/
def tideMap2 : List RegRow := [
  ⟨0x40, 0, 1, 0, 1, 0x0, 0xFFFFFFFF, 0x0, 0x0, 0x0, 0x0⟩,
  ⟨0x44, 0, 1, 0, 1, 0x0, 0xFFFFFFFF, 0x0, 0x0, 0x0, 0x0⟩,
  ⟨0x48, 0, 1, 0, 1, 0x0, 0xFFFFFFFF, 0x0, 0x0, 0x0, 0x2710⟩,
  ⟨0x4C, 0, 1, 0, 1, 0x0, 0xFFFFFFFF, 0x0, 0x0, 0x0, 0x1770⟩,
  ⟨0x50, 0, 1, 0, 1, 0x0, 0x0, 0x0, 0x3, 0x0, 0x0⟩,
  ⟨0x54, 0, 1, 0, 1, 0x0, 0x0, 0x0, 0x0, 0xFFFF, 0x0⟩,
  ⟨0x58, 0, 1, 0, 1, 0x0, 0x0, 0x0, 0x0, 0xFFFFFFFF, 0x0⟩,
  ⟨0x100, 16, 32, 0, 1, 0xFFFFFFFF, 0x0, 0x0, 0x0, 0x0, 0x0⟩,
  ⟨0x104, 16, 32, 0, 1, 0xFFFFFFFF, 0x0, 0x0, 0x0, 0x0, 0x0⟩,
  ⟨0x108, 16, 32, 0, 1, 0xFFFFFFFF, 0x0, 0x0, 0x0, 0x0, 0x0⟩,
  ⟨0x10C, 16, 32, 0, 1, 0x7FFFF, 0x0, 0x6000000, 0x0, 0x1000000, 0x0⟩,
  ⟨0x400, 32, 16, 0, 1, 0x1FF, 0x0, 0x20000, 0x80000000, 0x10000, 0x0⟩]

/-- Register map of TIDE (R49), part 3: CAP_SUB, CAP_TT_LO, CAP_TT_HI, CAP_PC_LO, CAP_PC_HI. -/
def tideMap3 : List RegRow := [
  ⟨0x404, 32, 16, 0, 1, 0x0, 0x0, 0x0, 0x0, 0xF, 0x0⟩,
  ⟨0x408, 32, 16, 0, 1, 0x0, 0x0, 0x0, 0x0, 0xFFFFFFFF, 0x0⟩,
  ⟨0x40C, 32, 16, 0, 1, 0x0, 0x0, 0x0, 0x0, 0xFFFFFFFF, 0x0⟩,
  ⟨0x410, 32, 16, 0, 1, 0x0, 0x0, 0x0, 0x0, 0xFFFFFFFF, 0x0⟩,
  ⟨0x414, 32, 16, 0, 1, 0x0, 0x0, 0x0, 0x0, 0xFFFFFFFF, 0x0⟩]

/-- Register map of TIDE (R49). -/
def tideMap : List RegRow := tideMap1 ++ tideMap2 ++ tideMap3

/-! ### RING (R85) -/

def RING_CTL : Nat := 0x30000
def RING_STATUS : Nat := 0x30004
def MEMBER_MASK : Nat := 0x30008
def MEMBER_LOCK : Nat := 0x3000C
def HOLD_LAST : Nat := 0x30010
def SYNC_CFG : Nat := 0x30014
def SERVO_CFG : Nat := 0x30018
def TIME_OFFSET : Nat := 0x3001C
def LOOP_ASYM : Nat := 0x30020
def GRID_MIRROR_PERIOD : Nat := 0x30024
def GRID_MIRROR_SHOTLEN : Nat := 0x30028
def LINK_UP_RTT : Nat := 0x30030
def LINK_DN_RTT : Nat := 0x30034
def LINK_A_IN : Nat := 0x30038
def LINK_B_IN : Nat := 0x3003C
def ASYM_UP : Nat := 0x30040
def ASYM_DN : Nat := 0x30044
def ASYM_CONFIRM : Nat := 0x30048
def EV_EXPORT_LO : Nat := 0x3004C
def EV_EXPORT_HI : Nat := 0x30050
def EV_IMPORT_LO : Nat := 0x30054
def EV_IMPORT_HI : Nat := 0x30058
def CRC_ERR_A : Nat := 0x30060
def CRC_ERR_B : Nat := 0x30064
def FRAME_DROP : Nat := 0x30068
def EXPORT (n : Nat) : Nat := 0x30100 + 0x4 * n

/-- Register map of RING (R85), part 1: RING_CTL, RING_STATUS, MEMBER_MASK, MEMBER_LOCK, HOLD_LAST, SYNC_CFG, SERVO_CFG, TIME_OFFSET, LOOP_ASYM, GRID_MIRROR_PERIOD, GRID_MIRROR_SHOTLEN, LINK_UP_RTT. -/
def ringMap1 : List RegRow := [
  ⟨0x0, 0, 1, 0, 1, 0x1F0, 0xF, 0x0, 0x200, 0x0, 0x180⟩,
  ⟨0x4, 0, 1, 0, 1, 0x0, 0x0, 0x3EF00, 0x0, 0xFFF410FF, 0x0⟩,
  ⟨0x8, 0, 1, 0, 1, 0x0, 0xFFFF, 0x0, 0x0, 0x0, 0x0⟩,
  ⟨0xC, 0, 1, 0, 1, 0x0, 0x0, 0x0, 0x0, 0xFFFF, 0x0⟩,
  ⟨0x10, 0, 1, 0, 1, 0x0, 0x0, 0x0, 0x0, 0xFFFFF, 0x0⟩,
  ⟨0x14, 0, 1, 0, 1, 0x7F0F, 0x0, 0x0, 0x0, 0x0, 0x3205⟩,
  ⟨0x18, 0, 1, 0, 1, 0xFFFFF, 0x0, 0x0, 0x0, 0x0, 0x40C8⟩,
  ⟨0x1C, 0, 1, 0, 1, 0x0, 0x0, 0x0, 0x0, 0xFFFFFFFF, 0x0⟩,
  ⟨0x20, 0, 1, 0, 1, 0x0, 0x0, 0x0, 0x0, 0xFFFFFFFF, 0x0⟩,
  ⟨0x24, 0, 1, 0, 1, 0x0, 0x0, 0x0, 0x0, 0xFFFFFFFF, 0x0⟩,
  ⟨0x28, 0, 1, 0, 1, 0x0, 0x0, 0x0, 0x0, 0xFFFFFFFF, 0x0⟩,
  ⟨0x30, 0, 1, 0, 1, 0x0, 0x0, 0x0, 0x0, 0xFFFFF, 0x0⟩]

/-- Register map of RING (R85), part 2: LINK_DN_RTT, LINK_A_IN, LINK_B_IN, ASYM_UP, ASYM_DN, ASYM_CONFIRM, EV_EXPORT_LO, EV_EXPORT_HI, EV_IMPORT_LO, EV_IMPORT_HI, CRC_ERR_A, CRC_ERR_B. -/
def ringMap2 : List RegRow := [
  ⟨0x34, 0, 1, 0, 1, 0x0, 0x0, 0x0, 0x0, 0xFFFFF, 0x0⟩,
  ⟨0x38, 0, 1, 0, 1, 0x0, 0x0, 0x0, 0x0, 0xFFFFF, 0x0⟩,
  ⟨0x3C, 0, 1, 0, 1, 0x0, 0x0, 0x0, 0x0, 0xFFFFF, 0x0⟩,
  ⟨0x40, 0, 1, 0, 1, 0xFFFF, 0x0, 0x0, 0x0, 0x0, 0x0⟩,
  ⟨0x44, 0, 1, 0, 1, 0xFFFF, 0x0, 0x0, 0x0, 0x0, 0x0⟩,
  ⟨0x48, 0, 1, 0, 1, 0x0, 0x0, 0x0, 0x1, 0x0, 0x0⟩,
  ⟨0x4C, 0, 1, 0, 1, 0xFFFFFFFF, 0x0, 0x0, 0x0, 0x0, 0x0⟩,
  ⟨0x50, 0, 1, 0, 1, 0xFFFFFFFF, 0x0, 0x0, 0x0, 0x0, 0x0⟩,
  ⟨0x54, 0, 1, 0, 1, 0xFFFFFFFF, 0x0, 0x0, 0x0, 0x0, 0x0⟩,
  ⟨0x58, 0, 1, 0, 1, 0xFFFFFFFF, 0x0, 0x0, 0x0, 0x0, 0x0⟩,
  ⟨0x60, 0, 1, 0, 1, 0x0, 0x0, 0x0, 0x0, 0xFFFFFFFF, 0x0⟩,
  ⟨0x64, 0, 1, 0, 1, 0x0, 0x0, 0x0, 0x0, 0xFFFFFFFF, 0x0⟩]

/-- Register map of RING (R85), part 3: FRAME_DROP, EXPORT. -/
def ringMap3 : List RegRow := [
  ⟨0x68, 0, 1, 0, 1, 0x0, 0x0, 0x0, 0x0, 0xFFFFFFFF, 0x0⟩,
  ⟨0x100, 4, 32, 0, 1, 0xFFFFFFFF, 0x0, 0x0, 0x0, 0x0, 0x0⟩]

/-- Register map of RING (R85). -/
def ringMap : List RegRow := ringMap1 ++ ringMap2 ++ ringMap3

/-! ### EVT (R338) -/

def EV_CTL : Nat := 0x40000
def EV_STATUS : Nat := 0x40004
def EV_FIRE0 : Nat := 0x40008
def EV_FIRE1 : Nat := 0x4000C
def LOOP_COUNT : Nat := 0x40010
def COALESCE_COUNT : Nat := 0x40014
def LOST_COUNT : Nat := 0x40018
def EXPORT_DROP_COUNT : Nat := 0x4001C
def REPUB_CFG (r : Nat) : Nat := 0x40040 + 0x4 * r
def CH_COUNT (n : Nat) : Nat := 0x40100 + 0x4 * n
def TRG_CFG (p : Nat) : Nat := 0x40200 + 0x4 * p
def LEG_CFG (k : Nat) : Nat := 0x40220 + 0x4 * k
def LEG_STATUS : Nat := 0x40240
def LEG_SW : Nat := 0x40244
def SUB_LO (i t : Nat) : Nat := 0x41000 + 0x20 * i + 0x8 * t
def SUB_HI (i t : Nat) : Nat := 0x41004 + 0x20 * i + 0x8 * t
def TI_STAT (i : Nat) : Nat := 0x41018 + 0x20 * i

/-- Register map of EVT (R338), part 1: EV_CTL, EV_STATUS, EV_FIRE0, EV_FIRE1, LOOP_COUNT, COALESCE_COUNT, LOST_COUNT, EXPORT_DROP_COUNT, REPUB_CFG, CH_COUNT, TRG_CFG, LEG_CFG. -/
def evtMap1 : List RegRow := [
  ⟨0x0, 0, 1, 0, 1, 0x0, 0x0, 0x0, 0x1, 0x0, 0x0⟩,
  ⟨0x4, 0, 1, 0, 1, 0x0, 0x0, 0x70300, 0x0, 0x8FC00, 0x0⟩,
  ⟨0x8, 0, 1, 0, 1, 0x0, 0x0, 0x0, 0xFFFFFFFF, 0x0, 0x0⟩,
  ⟨0xC, 0, 1, 0, 1, 0x0, 0x0, 0x0, 0xFFFFFFFF, 0x0, 0x0⟩,
  ⟨0x10, 0, 1, 0, 1, 0x0, 0x0, 0x0, 0x0, 0xFFFFFFFF, 0x0⟩,
  ⟨0x14, 0, 1, 0, 1, 0x0, 0x0, 0x0, 0x0, 0xFFFFFFFF, 0x0⟩,
  ⟨0x18, 0, 1, 0, 1, 0x0, 0x0, 0x0, 0x0, 0xFFFFFFFF, 0x0⟩,
  ⟨0x1C, 0, 1, 0, 1, 0x0, 0x0, 0x0, 0x0, 0xFFFFFFFF, 0x0⟩,
  ⟨0x40, 4, 16, 0, 1, 0x1FFF, 0x0, 0x0, 0x0, 0x0, 0x0⟩,
  ⟨0x100, 4, 64, 0, 1, 0x0, 0x0, 0x0, 0x0, 0xFFFFFFFF, 0x0⟩,
  ⟨0x200, 4, 8, 0, 1, 0xFF07FF, 0x0, 0x0, 0x0, 0x0, 0x10000⟩,
  ⟨0x220, 4, 8, 0, 1, 0x7FFFFF, 0x0, 0x0, 0x0, 0x0, 0x0⟩]

/-- Register map of EVT (R338), part 2: LEG_STATUS, LEG_SW, SUB_LO, SUB_HI, TI_STAT. -/
def evtMap2 : List RegRow := [
  ⟨0x240, 0, 1, 0, 1, 0x0, 0x0, 0xFF00, 0x0, 0x100FF, 0x0⟩,
  ⟨0x244, 0, 1, 0, 1, 0xFF, 0x0, 0x0, 0x0, 0x0, 0x0⟩,
  ⟨0x1000, 32, 192, 8, 3, 0xFFFFFFFF, 0x0, 0x0, 0x0, 0x0, 0x0⟩,
  ⟨0x1004, 32, 192, 8, 3, 0xFFFFFFFF, 0x0, 0x0, 0x0, 0x0, 0x0⟩,
  ⟨0x1018, 32, 192, 0, 1, 0x0, 0x0, 0xFF00, 0x10000, 0xF, 0x0⟩]

/-- Register map of EVT (R338). -/
def evtMap : List RegRow := evtMap1 ++ evtMap2

/-! ### MEM (R324) -/

def MEM_CTL : Nat := 0x50000
def MEM_STATUS : Nat := 0x50004
def MEM_CFG : Nat := 0x50008
def USABLE_MIB : Nat := 0x5000C
def SCRUB_CFG : Nat := 0x50010
def SCRUB_PASS : Nat := 0x50014
def ECC_CORR_COUNT : Nat := 0x50018
def ECC_UNCORR_COUNT : Nat := 0x5001C
def CREDIT_HOLD_COUNT : Nat := 0x50020
def MC_STATUS (k : Nat) : Nat := 0x50100 + 0x40 * k
def MC_CORR_COUNT (k : Nat) : Nat := 0x50104 + 0x40 * k
def FIFO_CTL (c f : Nat) : Nat := 0x51000 + 0x400 * c + 0x40 * f
def FIFO_COUNT (c f : Nat) : Nat := 0x51004 + 0x400 * c + 0x40 * f
def FIFO_DECL (c f : Nat) : Nat := 0x51008 + 0x400 * c + 0x40 * f
def FIFO_DECL_ACT (c f : Nat) : Nat := 0x5100C + 0x400 * c + 0x40 * f
def FIFO_RESV (c f : Nat) : Nat := 0x51010 + 0x400 * c + 0x40 * f
def FIFO_STAGED (c f : Nat) : Nat := 0x51014 + 0x400 * c + 0x40 * f
def FIFO_HOST_USED (c f : Nat) : Nat := 0x51018 + 0x400 * c + 0x40 * f
def FIFO_OVERSIZE_COUNT (c f : Nat) : Nat := 0x5101C + 0x400 * c + 0x40 * f
def FIFO_CUT_COUNT (c f : Nat) : Nat := 0x51020 + 0x400 * c + 0x40 * f
def FIFO_DROP_COUNT (c f : Nat) : Nat := 0x51024 + 0x400 * c + 0x40 * f

/-- Register map of MEM (R324), part 1: MEM_CTL, MEM_STATUS, MEM_CFG, USABLE_MIB, SCRUB_CFG, SCRUB_PASS, ECC_CORR_COUNT, ECC_UNCORR_COUNT, CREDIT_HOLD_COUNT, MC_STATUS, MC_CORR_COUNT, FIFO_CTL. -/
def memMap1 : List RegRow := [
  ⟨0x0, 0, 1, 0, 1, 0x1, 0x2, 0x0, 0x4, 0x0, 0x3⟩,
  ⟨0x4, 0, 1, 0, 1, 0x0, 0x0, 0x7F00, 0x0, 0xF3, 0x0⟩,
  ⟨0x8, 0, 1, 0, 1, 0x0, 0x0, 0x0, 0x0, 0x3FF, 0x0⟩,
  ⟨0xC, 0, 1, 0, 1, 0x0, 0x0, 0x0, 0x0, 0xFFFFFFFF, 0x0⟩,
  ⟨0x10, 0, 1, 0, 1, 0x3FF, 0x0, 0x0, 0x0, 0x0, 0x18⟩,
  ⟨0x14, 0, 1, 0, 1, 0x0, 0x0, 0x0, 0x0, 0xFFFFFFFF, 0x0⟩,
  ⟨0x18, 0, 1, 0, 1, 0x0, 0x0, 0x0, 0x0, 0xFFFFFFFF, 0x0⟩,
  ⟨0x1C, 0, 1, 0, 1, 0x0, 0x0, 0x0, 0x0, 0xFFFFFFFF, 0x0⟩,
  ⟨0x20, 0, 1, 0, 1, 0x0, 0x0, 0x0, 0x0, 0xFFFFFFFF, 0x0⟩,
  ⟨0x100, 64, 4, 0, 1, 0x0, 0x0, 0x0, 0x0, 0x7, 0x0⟩,
  ⟨0x104, 64, 4, 0, 1, 0x0, 0x0, 0x0, 0x0, 0xFFFFFFFF, 0x0⟩,
  ⟨0x1000, 1024, 16, 64, 16, 0x0, 0x1FF, 0x0, 0x10000, 0x7000000, 0x10⟩]

/-- Register map of MEM (R324), part 2: FIFO_COUNT, FIFO_DECL, FIFO_DECL_ACT, FIFO_RESV, FIFO_STAGED, FIFO_HOST_USED, FIFO_OVERSIZE_COUNT, FIFO_CUT_COUNT, FIFO_DROP_COUNT. -/
def memMap2 : List RegRow := [
  ⟨0x1004, 1024, 16, 64, 16, 0x0, 0x0, 0x0, 0x0, 0xFFFF7FFF, 0x0⟩,
  ⟨0x1008, 1024, 16, 64, 16, 0xFFFFFF, 0x0, 0x0, 0x0, 0x0, 0x0⟩,
  ⟨0x100C, 1024, 16, 64, 16, 0x0, 0x0, 0x0, 0x0, 0xFFFFFF, 0x0⟩,
  ⟨0x1010, 1024, 16, 64, 16, 0x0, 0x0, 0x0, 0x0, 0xFFFFFF, 0x0⟩,
  ⟨0x1014, 1024, 16, 64, 16, 0x0, 0x0, 0x0, 0x0, 0x1FFFFFF, 0x0⟩,
  ⟨0x1018, 1024, 16, 64, 16, 0x0, 0x0, 0x0, 0x0, 0x7FFFFFF, 0x0⟩,
  ⟨0x101C, 1024, 16, 64, 16, 0x0, 0x0, 0x0, 0x0, 0xFFFFFFFF, 0x0⟩,
  ⟨0x1020, 1024, 16, 64, 16, 0x0, 0x0, 0x0, 0x0, 0xFFFFFFFF, 0x0⟩,
  ⟨0x1024, 1024, 16, 64, 16, 0x0, 0x0, 0x0, 0x0, 0xFFFFFFFF, 0x0⟩]

/-- Register map of MEM (R324). -/
def memMap : List RegRow := memMap1 ++ memMap2

/-! ### THM (R398) -/

def THM_CTL : Nat := 0x60000
def THM_STATUS : Nat := 0x60004
def TEMP_MAX : Nat := 0x60008
def RISE_TILE (k : Nat) : Nat := 0x60010 + 0x4 * k
def GOV_CTL : Nat := 0x60020
def GOV_STATUS : Nat := 0x60024
def POWER_NOW : Nat := 0x60028
def POWER_PEAK : Nat := 0x6002C
def THROTTLE_COUNT : Nat := 0x60030
def SHED_HOLD_COUNT : Nat := 0x60034
def TEMP (s : Nat) : Nat := 0x60100 + 0x4 * s

/-- Register map of THM (R398), part 1: THM_CTL, THM_STATUS, TEMP_MAX, RISE_TILE, GOV_CTL, GOV_STATUS, POWER_NOW, POWER_PEAK, THROTTLE_COUNT, SHED_HOLD_COUNT, TEMP. -/
def thmMap1 : List RegRow := [
  ⟨0x0, 0, 1, 0, 1, 0x1FFFF, 0x0, 0x0, 0x20000, 0x0, 0xA4⟩,
  ⟨0x4, 0, 1, 0, 1, 0x0, 0x0, 0xFF00, 0x0, 0xF, 0x8⟩,
  ⟨0x8, 0, 1, 0, 1, 0x0, 0x0, 0x0, 0x0, 0x1FFFFF, 0x0⟩,
  ⟨0x10, 4, 4, 0, 1, 0x0, 0x0, 0x0, 0x0, 0xFFFF, 0x0⟩,
  ⟨0x20, 0, 1, 0, 1, 0x3F, 0x0, 0x0, 0x0, 0x0, 0x20⟩,
  ⟨0x24, 0, 1, 0, 1, 0x0, 0x0, 0x0, 0x0, 0x1FFF, 0x0⟩,
  ⟨0x28, 0, 1, 0, 1, 0x0, 0x0, 0x0, 0x0, 0xFFFF, 0x0⟩,
  ⟨0x2C, 0, 1, 0, 1, 0x0, 0x0, 0x0, 0x0, 0xFFFF, 0x0⟩,
  ⟨0x30, 0, 1, 0, 1, 0x0, 0x0, 0x0, 0x0, 0xFFFFFFFF, 0x0⟩,
  ⟨0x34, 0, 1, 0, 1, 0x0, 0x0, 0x0, 0x0, 0xFFFFFFFF, 0x0⟩,
  ⟨0x100, 4, 24, 0, 1, 0x0, 0x0, 0x0, 0x0, 0xFFFF, 0x0⟩]

/-- Register map of THM (R398). -/
def thmMap : List RegRow := thmMap1

/-! ### FLT (R416) -/

def FLT_CTL : Nat := 0x70000
def FLT_STATUS : Nat := 0x70004
def FLT_COND : Nat := 0x70008
def TILE_ERR_TT_LO : Nat := 0x7000C
def TILE_ERR_TT_HI : Nat := 0x70010

/-- Register map of FLT (R416), part 1: FLT_CTL, FLT_STATUS, FLT_COND, TILE_ERR_TT_LO, TILE_ERR_TT_HI. -/
def fltMap1 : List RegRow := [
  ⟨0x0, 0, 1, 0, 1, 0x0, 0x3, 0x0, 0x0, 0x0, 0x2⟩,
  ⟨0x4, 0, 1, 0, 1, 0x0, 0x0, 0x100, 0x0, 0xFFF003F, 0x0⟩,
  ⟨0x8, 0, 1, 0, 1, 0x0, 0x0, 0x0, 0x0, 0x8000001F, 0x0⟩,
  ⟨0xC, 0, 1, 0, 1, 0x0, 0x0, 0x0, 0x0, 0xFFFFFFFF, 0x0⟩,
  ⟨0x10, 0, 1, 0, 1, 0x0, 0x0, 0x0, 0x0, 0xF, 0x0⟩]

/-- Register map of FLT (R416). -/
def fltMap : List RegRow := fltMap1

/-! ### PMC (R400) -/

def PMC_CTL : Nat := 0x80000
def PMC_STATUS : Nat := 0x80004
def RAIL_OK : Nat := 0x80008
def NEAP_CFG : Nat := 0x8000C
def WAKE_CAUSE : Nat := 0x80010
def REF_STATUS : Nat := 0x80014

/-- Register map of PMC (R400), part 1: PMC_CTL, PMC_STATUS, RAIL_OK, NEAP_CFG, WAKE_CAUSE, REF_STATUS. -/
def pmcMap1 : List RegRow := [
  ⟨0x0, 0, 1, 0, 1, 0x0, 0x0, 0x0, 0x1, 0x0, 0x0⟩,
  ⟨0x4, 0, 1, 0, 1, 0x0, 0x0, 0x300, 0x0, 0x1, 0x0⟩,
  ⟨0x8, 0, 1, 0, 1, 0x0, 0x0, 0x0, 0x0, 0x1FFFF, 0x0⟩,
  ⟨0xC, 0, 1, 0, 1, 0x3, 0x0, 0x0, 0x0, 0x0, 0x3⟩,
  ⟨0x10, 0, 1, 0, 1, 0x0, 0x0, 0x0, 0x0, 0xFF07, 0x0⟩,
  ⟨0x14, 0, 1, 0, 1, 0x0, 0x0, 0x0, 0x0, 0x3F, 0x0⟩]

/-- Register map of PMC (R400). -/
def pmcMap : List RegRow := pmcMap1

/-! ### FUSE (R377) -/

def FUSE_CTL : Nat := 0x90000
def FUSE_STATUS : Nat := 0x90004
def FUSE_GEN_STATE : Nat := 0x90008
def FUSE_ACTIVE : Nat := 0x9000C
def FUSE_KEYS : Nat := 0x90010
def FUSE_RD_ADDR : Nat := 0x90014
def FUSE_RD_LO : Nat := 0x90018
def FUSE_RD_HI : Nat := 0x9001C
def CAL_STATUS : Nat := 0x90040
def CAL_DONE_COUNT : Nat := 0x90044
def CAL_FAIL_COUNT : Nat := 0x90048
def DRIFT_COUNT : Nat := 0x9004C
def CAL_SEL : Nat := 0x90050
def CAL_DATA : Nat := 0x90054

/-- Register map of FUSE (R377), part 1: FUSE_CTL, FUSE_STATUS, FUSE_GEN_STATE, FUSE_ACTIVE, FUSE_KEYS, FUSE_RD_ADDR, FUSE_RD_LO, FUSE_RD_HI, CAL_STATUS, CAL_DONE_COUNT, CAL_FAIL_COUNT, DRIFT_COUNT. -/
def fuseMap1 : List RegRow := [
  ⟨0x0, 0, 1, 0, 1, 0x0, 0x0, 0x0, 0x1, 0x0, 0x0⟩,
  ⟨0x4, 0, 1, 0, 1, 0x0, 0x0, 0x100, 0x0, 0x7, 0x0⟩,
  ⟨0x8, 0, 1, 0, 1, 0x0, 0x0, 0x0, 0x0, 0xFFFFFFFF, 0x0⟩,
  ⟨0xC, 0, 1, 0, 1, 0x0, 0x0, 0x0, 0x0, 0x1F, 0x1F⟩,
  ⟨0x10, 0, 1, 0, 1, 0x0, 0x0, 0x0, 0x0, 0xFF, 0x0⟩,
  ⟨0x14, 0, 1, 0, 1, 0x1FFF, 0x0, 0x0, 0x0, 0x0, 0x0⟩,
  ⟨0x18, 0, 1, 0, 1, 0x0, 0x0, 0x0, 0x0, 0xFFFFFFFF, 0x0⟩,
  ⟨0x1C, 0, 1, 0, 1, 0x0, 0x0, 0x0, 0x0, 0xFFFFFFFF, 0x0⟩,
  ⟨0x40, 0, 1, 0, 1, 0x0, 0x0, 0x0, 0x0, 0xFF7F, 0x0⟩,
  ⟨0x44, 0, 1, 0, 1, 0x0, 0x0, 0x0, 0x0, 0xFFFFFFFF, 0x0⟩,
  ⟨0x48, 0, 1, 0, 1, 0x0, 0x0, 0x0, 0x0, 0xFFFFFFFF, 0x0⟩,
  ⟨0x4C, 0, 1, 0, 1, 0x0, 0x0, 0x0, 0x0, 0xFFFFFFFF, 0x0⟩]

/-- Register map of FUSE (R377), part 2: CAL_SEL, CAL_DATA. -/
def fuseMap2 : List RegRow := [
  ⟨0x50, 0, 1, 0, 1, 0xFFFFFF, 0x0, 0x0, 0x0, 0x0, 0x0⟩,
  ⟨0x54, 0, 1, 0, 1, 0x0, 0x0, 0x0, 0x0, 0xFFFFFFFF, 0x0⟩]

/-- Register map of FUSE (R377). -/
def fuseMap : List RegRow := fuseMap1 ++ fuseMap2

/-! ### SCOPE (R355) -/

def SCOPE_CTL : Nat := 0xA0000
def SCOPE_STATUS : Nat := 0xA0004
def RATE_USED : Nat := 0xA0008
def SCOPE_OVERRUN_COUNT : Nat := 0xA000C
def MASK_FAIL_COUNT : Nat := 0xA0010
def U_CTL (u : Nat) : Nat := 0xA0100 + 0x80 * u
def U_STATUS (u : Nat) : Nat := 0xA0104 + 0x80 * u
def U_CMD (u : Nat) : Nat := 0xA0108 + 0x80 * u
def U_BUF_BASE_LO (u : Nat) : Nat := 0xA010C + 0x80 * u
def U_BUF_BASE_HI (u : Nat) : Nat := 0xA0110 + 0x80 * u
def U_PRE (u : Nat) : Nat := 0xA0114 + 0x80 * u
def U_POST (u : Nat) : Nat := 0xA0118 + 0x80 * u
def U_RECORDS (u : Nat) : Nat := 0xA011C + 0x80 * u
def U_REC_BASE_LO (u : Nat) : Nat := 0xA0120 + 0x80 * u
def U_REC_BASE_HI (u : Nat) : Nat := 0xA0124 + 0x80 * u
def U_TRIG_LEVEL (u : Nat) : Nat := 0xA0128 + 0x80 * u
def U_TRIG_HYST (u : Nat) : Nat := 0xA012C + 0x80 * u
def U_TRIG_AT_LO (u : Nat) : Nat := 0xA0130 + 0x80 * u
def U_TRIG_AT_HI (u : Nat) : Nat := 0xA0134 + 0x80 * u
def U_SKEW (u : Nat) : Nat := 0xA0138 + 0x80 * u
def U_MASK_BASE_LO (u : Nat) : Nat := 0xA013C + 0x80 * u
def U_MASK_BASE_HI (u : Nat) : Nat := 0xA0140 + 0x80 * u
def U_MASK_OFF (u : Nat) : Nat := 0xA0144 + 0x80 * u
def U_MASK_POINTS (u : Nat) : Nat := 0xA0148 + 0x80 * u

/-- Register map of SCOPE (R355), part 1: SCOPE_CTL, SCOPE_STATUS, RATE_USED, SCOPE_OVERRUN_COUNT, MASK_FAIL_COUNT, U_CTL, U_STATUS, U_CMD, U_BUF_BASE_LO, U_BUF_BASE_HI, U_PRE, U_POST. -/
def scopeMap1 : List RegRow := [
  ⟨0x0, 0, 1, 0, 1, 0x0, 0x0, 0x0, 0x1, 0x0, 0x0⟩,
  ⟨0x4, 0, 1, 0, 1, 0x0, 0x0, 0xF00, 0x0, 0x1, 0x0⟩,
  ⟨0x8, 0, 1, 0, 1, 0x0, 0x0, 0x0, 0x0, 0x7FFFF, 0x0⟩,
  ⟨0xC, 0, 1, 0, 1, 0x0, 0x0, 0x0, 0x0, 0xFFFFFFFF, 0x0⟩,
  ⟨0x10, 0, 1, 0, 1, 0x0, 0x0, 0x0, 0x0, 0xFFFFFFFF, 0x0⟩,
  ⟨0x100, 128, 16, 0, 1, 0x0, 0x3FFFFFFF, 0x0, 0x0, 0x0, 0x80000⟩,
  ⟨0x104, 128, 16, 0, 1, 0x0, 0x0, 0xF00, 0x0, 0xFFFFF007, 0x0⟩,
  ⟨0x108, 128, 16, 0, 1, 0x0, 0x0, 0x0, 0x7, 0x0, 0x0⟩,
  ⟨0x10C, 128, 16, 0, 1, 0x0, 0xFFFFFFFF, 0x0, 0x0, 0x0, 0x0⟩,
  ⟨0x110, 128, 16, 0, 1, 0x0, 0xFF, 0x0, 0x0, 0x0, 0x0⟩,
  ⟨0x114, 128, 16, 0, 1, 0x0, 0xFFFF, 0x0, 0x0, 0x0, 0x0⟩,
  ⟨0x118, 128, 16, 0, 1, 0x0, 0xFFFF, 0x0, 0x0, 0x0, 0x1⟩]

/-- Register map of SCOPE (R355), part 2: U_RECORDS, U_REC_BASE_LO, U_REC_BASE_HI, U_TRIG_LEVEL, U_TRIG_HYST, U_TRIG_AT_LO, U_TRIG_AT_HI, U_SKEW, U_MASK_BASE_LO, U_MASK_BASE_HI, U_MASK_OFF, U_MASK_POINTS. -/
def scopeMap2 : List RegRow := [
  ⟨0x11C, 128, 16, 0, 1, 0x0, 0xFFFF, 0x0, 0x0, 0x0, 0x1⟩,
  ⟨0x120, 128, 16, 0, 1, 0x0, 0xFFFFFFFF, 0x0, 0x0, 0x0, 0x0⟩,
  ⟨0x124, 128, 16, 0, 1, 0x0, 0xFF, 0x0, 0x0, 0x0, 0x0⟩,
  ⟨0x128, 128, 16, 0, 1, 0x0, 0x3FFFF, 0x0, 0x0, 0x0, 0x0⟩,
  ⟨0x12C, 128, 16, 0, 1, 0x0, 0x1FFFF, 0x0, 0x0, 0x0, 0x0⟩,
  ⟨0x130, 128, 16, 0, 1, 0x0, 0xFFFFFFFF, 0x0, 0x0, 0x0, 0x0⟩,
  ⟨0x134, 128, 16, 0, 1, 0x0, 0xFFFFFFFF, 0x0, 0x0, 0x0, 0x0⟩,
  ⟨0x138, 128, 16, 0, 1, 0x0, 0xFFFF, 0x0, 0x0, 0x0, 0x0⟩,
  ⟨0x13C, 128, 16, 0, 1, 0x0, 0xFFFFFFFF, 0x0, 0x0, 0x0, 0x0⟩,
  ⟨0x140, 128, 16, 0, 1, 0x0, 0xFF, 0x0, 0x0, 0x0, 0x0⟩,
  ⟨0x144, 128, 16, 0, 1, 0x0, 0xFFFFFF, 0x0, 0x0, 0x0, 0x0⟩,
  ⟨0x148, 128, 16, 0, 1, 0x0, 0x1FFFF, 0x0, 0x0, 0x0, 0x1⟩]

/-- Register map of SCOPE (R355). -/
def scopeMap : List RegRow := scopeMap1 ++ scopeMap2

/-! ### COVE c (R208, R258) -/

def COVE_CTL (c : Nat) : Nat := 0x100000 + 0x10000 * c
def COVE_STATUS (c : Nat) : Nat := 0x100004 + 0x10000 * c
def COVE_SHOT_FLAGS (c : Nat) : Nat := 0x100008 + 0x10000 * c
def SHOT_FLAGS_EPOCH (c : Nat) : Nat := 0x10000C + 0x10000 * c
def MC_VERSION (c : Nat) : Nat := 0x100010 + 0x10000 * c
def PAIR_MAP (c : Nat) : Nat := 0x100014 + 0x10000 * c
def RELOAD_BASE_LO (c : Nat) : Nat := 0x100018 + 0x10000 * c
def RELOAD_BASE_HI (c : Nat) : Nat := 0x10001C + 0x10000 * c
def MEM_CORR_COUNT (c : Nat) : Nat := 0x100020 + 0x10000 * c
def MEM_UNCORR_COUNT (c : Nat) : Nat := 0x100024 + 0x10000 * c
def COVE_OVERRUN_COUNT (c : Nat) : Nat := 0x100028 + 0x10000 * c
def BAD_ISSUE_COUNT (c : Nat) : Nat := 0x10002C + 0x10000 * c
def ENG_CTL (g : Nat) : Nat := 0x100100 + 0x10000 * (g / 12) + 0x20 * (g % 12)
def ENG_STATUS (g : Nat) : Nat := 0x100104 + 0x10000 * (g / 12) + 0x20 * (g % 12)
def ENG_ENTRY (g : Nat) : Nat := 0x100108 + 0x10000 * (g / 12) + 0x20 * (g % 12)
def ENG_PC (g : Nat) : Nat := 0x10010C + 0x10000 * (g / 12) + 0x20 * (g % 12)
def ENG_CMD (g : Nat) : Nat := 0x100110 + 0x10000 * (g / 12) + 0x20 * (g % 12)
def ENG_FAULT (g : Nat) : Nat := 0x100114 + 0x10000 * (g / 12) + 0x20 * (g % 12)

/-- Register map of COVE c (R208, R258), part 1: COVE_CTL, COVE_STATUS, COVE_SHOT_FLAGS, SHOT_FLAGS_EPOCH, MC_VERSION, PAIR_MAP, RELOAD_BASE_LO, RELOAD_BASE_HI, MEM_CORR_COUNT, MEM_UNCORR_COUNT, COVE_OVERRUN_COUNT, BAD_ISSUE_COUNT. -/
def coveMap1 : List RegRow := [
  ⟨0x0, 0, 1, 0, 1, 0x0, 0xFFF, 0x0, 0x1000, 0x0, 0x14⟩,
  ⟨0x4, 0, 1, 0, 1, 0x0, 0x0, 0x1F0100, 0x0, 0xF, 0x1⟩,
  ⟨0x8, 0, 1, 0, 1, 0x0, 0x0, 0x0, 0x0, 0x1FFFFFF, 0x0⟩,
  ⟨0xC, 0, 1, 0, 1, 0x0, 0x0, 0x0, 0x0, 0xFFFF, 0x0⟩,
  ⟨0x10, 0, 1, 0, 1, 0x0, 0x0, 0x0, 0x0, 0xFFFFFFFF, 0x0⟩,
  ⟨0x14, 0, 1, 0, 1, 0x0, 0x0, 0x0, 0x0, 0xFFFFFF, 0x2C688⟩,
  ⟨0x18, 0, 1, 0, 1, 0x0, 0xFFFFFFFF, 0x0, 0x0, 0x0, 0x0⟩,
  ⟨0x1C, 0, 1, 0, 1, 0x0, 0xFF, 0x0, 0x0, 0x0, 0x0⟩,
  ⟨0x20, 0, 1, 0, 1, 0x0, 0x0, 0x0, 0x0, 0xFFFFFFFF, 0x0⟩,
  ⟨0x24, 0, 1, 0, 1, 0x0, 0x0, 0x0, 0x0, 0xFFFFFFFF, 0x0⟩,
  ⟨0x28, 0, 1, 0, 1, 0x0, 0x0, 0x0, 0x0, 0xFFFFFFFF, 0x0⟩,
  ⟨0x2C, 0, 1, 0, 1, 0x0, 0x0, 0x0, 0x0, 0xFFFFFFFF, 0x0⟩]

/-- Register map of COVE c (R208, R258), part 2: ENG_CTL, ENG_STATUS, ENG_ENTRY, ENG_PC, ENG_CMD, ENG_FAULT. -/
def coveMap2 : List RegRow := [
  ⟨0x100, 32, 12, 0, 1, 0x1, 0x0, 0x0, 0x0, 0x0, 0x0⟩,
  ⟨0x104, 32, 12, 0, 1, 0x0, 0x0, 0x300, 0x0, 0x1F, 0x0⟩,
  ⟨0x108, 32, 12, 0, 1, 0x0, 0xFFFFFF, 0x0, 0x0, 0x0, 0x100000⟩,
  ⟨0x10C, 32, 12, 0, 1, 0x0, 0x0, 0x0, 0x0, 0xFFFFFF, 0x0⟩,
  ⟨0x110, 32, 12, 0, 1, 0x0, 0x0, 0x0, 0xF, 0x0, 0x0⟩,
  ⟨0x114, 32, 12, 0, 1, 0x0, 0x0, 0x0, 0x0, 0xFFFFFFFF, 0x0⟩]

/-- Register map of COVE c (R208, R258). -/
def coveMap : List RegRow := coveMap1 ++ coveMap2

/-! ### DRV and PRB port p (R107) -/

def PORT_CTL (p : Nat) : Nat := 0x200000 + 0x1000 * p
def PORT_STATUS (p : Nat) : Nat := 0x200004 + 0x1000 * p
def CARRIER_LO (p : Nat) : Nat := 0x200008 + 0x1000 * p
def CARRIER_HI (p : Nat) : Nat := 0x20000C + 0x1000 * p
def PORT_GAIN (p : Nat) : Nat := 0x200010 + 0x1000 * p
def OUT_TRIM (p : Nat) : Nat := 0x200014 + 0x1000 * p
def QUEUE_FILL (p : Nat) : Nat := 0x200018 + 0x1000 * p
def SHOT_FLAGS (p : Nat) : Nat := 0x20001C + 0x1000 * p
def LATE_COUNT (p : Nat) : Nat := 0x200020 + 0x1000 * p
def DISCARD_COUNT (p : Nat) : Nat := 0x200024 + 0x1000 * p
def CLIP_COUNT (p : Nat) : Nat := 0x200028 + 0x1000 * p
def CLIP_AT (p : Nat) : Nat := 0x20002C + 0x1000 * p
def CLIP_SLOTS (p : Nat) : Nat := 0x200030 + 0x1000 * p
def SLOT_FREQ_LO (p k : Nat) : Nat := 0x200100 + 0x1000 * p + 0x10 * k
def SLOT_FREQ_HI (p k : Nat) : Nat := 0x200104 + 0x1000 * p + 0x10 * k
def SLOT_FRAME (p k : Nat) : Nat := 0x200108 + 0x1000 * p + 0x10 * k
def SLOT_FILL (p k : Nat) : Nat := 0x20010C + 0x1000 * p + 0x10 * k

/-- Register map of DRV and PRB port p (R107), part 1: PORT_CTL, PORT_STATUS, CARRIER_LO, CARRIER_HI, PORT_GAIN, OUT_TRIM, QUEUE_FILL, SHOT_FLAGS, LATE_COUNT, DISCARD_COUNT, CLIP_COUNT, CLIP_AT. -/
def portMap1 : List RegRow := [
  ⟨0x0, 0, 1, 0, 1, 0x1, 0xF2, 0x0, 0x100, 0x0, 0x0⟩,
  ⟨0x4, 0, 1, 0, 1, 0x0, 0x0, 0x1FF0100, 0x0, 0x7, 0x4⟩,
  ⟨0x8, 0, 1, 0, 1, 0x0, 0xFFFFFFFF, 0x0, 0x0, 0x0, 0x0⟩,
  ⟨0xC, 0, 1, 0, 1, 0x0, 0xFFFFF, 0x0, 0x0, 0x0, 0x40000⟩,
  ⟨0x10, 0, 1, 0, 1, 0x0, 0x3FFFF, 0x0, 0x0, 0x0, 0x1FFFF⟩,
  ⟨0x14, 0, 1, 0, 1, 0x0, 0xFF, 0x0, 0x0, 0x0, 0x0⟩,
  ⟨0x18, 0, 1, 0, 1, 0x0, 0x0, 0x0, 0x0, 0x1FF, 0x0⟩,
  ⟨0x1C, 0, 1, 0, 1, 0x0, 0x0, 0x0, 0x0, 0xFFFF01FF, 0x0⟩,
  ⟨0x20, 0, 1, 0, 1, 0x0, 0x0, 0x0, 0x0, 0xFFFFFFFF, 0x0⟩,
  ⟨0x24, 0, 1, 0, 1, 0x0, 0x0, 0x0, 0x0, 0xFFFFFFFF, 0x0⟩,
  ⟨0x28, 0, 1, 0, 1, 0x0, 0x0, 0x0, 0x0, 0xFFFFFFFF, 0x0⟩,
  ⟨0x2C, 0, 1, 0, 1, 0x0, 0x0, 0x0, 0x0, 0xFFFFFFFF, 0x0⟩]

/-- Register map of DRV and PRB port p (R107), part 2: CLIP_SLOTS, SLOT_FREQ_LO, SLOT_FREQ_HI, SLOT_FRAME, SLOT_FILL. -/
def portMap2 : List RegRow := [
  ⟨0x30, 0, 1, 0, 1, 0x0, 0x0, 0x0, 0x0, 0xFFFF, 0x0⟩,
  ⟨0x100, 16, 16, 0, 1, 0x0, 0xFFFFFFFF, 0x0, 0x0, 0x0, 0x0⟩,
  ⟨0x104, 16, 16, 0, 1, 0x0, 0xFFFFF, 0x0, 0x0, 0x0, 0x40000⟩,
  ⟨0x108, 16, 16, 0, 1, 0x0, 0x3FFFF, 0x0, 0x0, 0x0, 0x0⟩,
  ⟨0x10C, 16, 16, 0, 1, 0x0, 0x0, 0x0, 0x0, 0x7F, 0x0⟩]

/-- Register map of DRV and PRB port p (R107). -/
def portMap : List RegRow := portMap1 ++ portMap2

/-! ### RCV n (R157) -/

def RCV_CTL (n : Nat) : Nat := 0x250000 + 0x1000 * n
def RCV_STATUS (n : Nat) : Nat := 0x250004 + 0x1000 * n
def RCV_QUEUE_FILL (n : Nat) : Nat := 0x250008 + 0x1000 * n
def RESQ_FILL (n : Nat) : Nat := 0x25000C + 0x1000 * n
def RCV_SHOT_FLAGS (n : Nat) : Nat := 0x250010 + 0x1000 * n
def ADC_OVR_COUNT (n : Nat) : Nat := 0x250014 + 0x1000 * n
def RCV_LATE_COUNT (n : Nat) : Nat := 0x250018 + 0x1000 * n
def RCV_DISCARD_COUNT (n : Nat) : Nat := 0x25001C + 0x1000 * n
def RESULT_DROP_COUNT (n : Nat) : Nat := 0x250020 + 0x1000 * n
def AVG_N (n : Nat) : Nat := 0x250024 + 0x1000 * n
def IN_TRIM (n : Nat) : Nat := 0x250028 + 0x1000 * n
def TONE_CFG (n k : Nat) : Nat := 0x250100 + 0x1000 * n + 0x80 * k
def TONE_FREQ_LO (n k : Nat) : Nat := 0x250104 + 0x1000 * n + 0x80 * k
def TONE_FREQ_HI (n k : Nat) : Nat := 0x250108 + 0x1000 * n + 0x80 * k
def TONE_FRAME (n k : Nat) : Nat := 0x25010C + 0x1000 * n + 0x80 * k
def TONE_DEMOD_ROT (n k : Nat) : Nat := 0x250110 + 0x1000 * n + 0x80 * k
def TONE_BND0_A (n k : Nat) : Nat := 0x250114 + 0x1000 * n + 0x80 * k
def TONE_BND0_B (n k : Nat) : Nat := 0x250118 + 0x1000 * n + 0x80 * k
def TONE_BND0_C (n k : Nat) : Nat := 0x25011C + 0x1000 * n + 0x80 * k
def TONE_BND1_A (n k : Nat) : Nat := 0x250120 + 0x1000 * n + 0x80 * k
def TONE_BND1_B (n k : Nat) : Nat := 0x250124 + 0x1000 * n + 0x80 * k
def TONE_BND1_C (n k : Nat) : Nat := 0x250128 + 0x1000 * n + 0x80 * k
def TONE_MAP_CFG (n k : Nat) : Nat := 0x25012C + 0x1000 * n + 0x80 * k
def TONE_MAP_ORG_I (n k : Nat) : Nat := 0x250130 + 0x1000 * n + 0x80 * k
def TONE_MAP_ORG_Q (n k : Nat) : Nat := 0x250134 + 0x1000 * n + 0x80 * k
def TONE_LAST_I (n k : Nat) : Nat := 0x250138 + 0x1000 * n + 0x80 * k
def TONE_LAST_Q (n k : Nat) : Nat := 0x25013C + 0x1000 * n + 0x80 * k
def TONE_LAST_OUT (n k : Nat) : Nat := 0x250140 + 0x1000 * n + 0x80 * k
def TONE_AVG_COUNT (n k : Nat) : Nat := 0x250144 + 0x1000 * n + 0x80 * k

/-- Register map of RCV n (R157), part 1: RCV_CTL, RCV_STATUS, RCV_QUEUE_FILL, RESQ_FILL, RCV_SHOT_FLAGS, ADC_OVR_COUNT, RCV_LATE_COUNT, RCV_DISCARD_COUNT, RESULT_DROP_COUNT, AVG_N, IN_TRIM, TONE_CFG. -/
def rcvMap1 : List RegRow := [
  ⟨0x0, 0, 1, 0, 1, 0x1, 0xF01FE, 0x0, 0x600, 0x0, 0x2⟩,
  ⟨0x4, 0, 1, 0, 1, 0x0, 0x0, 0x7FF0100, 0x0, 0xF, 0x4⟩,
  ⟨0x8, 0, 1, 0, 1, 0x0, 0x0, 0x0, 0x0, 0x7F, 0x0⟩,
  ⟨0xC, 0, 1, 0, 1, 0x0, 0x0, 0x0, 0x0, 0x1FF, 0x0⟩,
  ⟨0x10, 0, 1, 0, 1, 0x0, 0x0, 0x0, 0x0, 0xFFFF07FF, 0x0⟩,
  ⟨0x14, 0, 1, 0, 1, 0x0, 0x0, 0x0, 0x0, 0xFFFFFFFF, 0x0⟩,
  ⟨0x18, 0, 1, 0, 1, 0x0, 0x0, 0x0, 0x0, 0xFFFFFFFF, 0x0⟩,
  ⟨0x1C, 0, 1, 0, 1, 0x0, 0x0, 0x0, 0x0, 0xFFFFFFFF, 0x0⟩,
  ⟨0x20, 0, 1, 0, 1, 0x0, 0x0, 0x0, 0x0, 0xFFFFFFFF, 0x0⟩,
  ⟨0x24, 0, 1, 0, 1, 0x0, 0x1FFFF, 0x0, 0x0, 0x0, 0x400⟩,
  ⟨0x28, 0, 1, 0, 1, 0x0, 0xFF, 0x0, 0x0, 0x0, 0x0⟩,
  ⟨0x100, 128, 16, 0, 1, 0x0, 0x3FFFF7, 0x0, 0x0, 0x0, 0x40⟩]

/-- Register map of RCV n (R157), part 2: TONE_FREQ_LO, TONE_FREQ_HI, TONE_FRAME, TONE_DEMOD_ROT, TONE_BND0_A, TONE_BND0_B, TONE_BND0_C, TONE_BND1_A, TONE_BND1_B, TONE_BND1_C, TONE_MAP_CFG, TONE_MAP_ORG_I. -/
def rcvMap2 : List RegRow := [
  ⟨0x104, 128, 16, 0, 1, 0x0, 0xFFFFFFFF, 0x0, 0x0, 0x0, 0x0⟩,
  ⟨0x108, 128, 16, 0, 1, 0x0, 0xFFFFF, 0x0, 0x0, 0x0, 0x60000⟩,
  ⟨0x10C, 128, 16, 0, 1, 0x0, 0x3FFFF, 0x0, 0x0, 0x0, 0x0⟩,
  ⟨0x110, 128, 16, 0, 1, 0x0, 0x3FFFF, 0x0, 0x0, 0x0, 0x0⟩,
  ⟨0x114, 128, 16, 0, 1, 0x0, 0x3FFFF, 0x0, 0x0, 0x0, 0x0⟩,
  ⟨0x118, 128, 16, 0, 1, 0x0, 0x3FFFF, 0x0, 0x0, 0x0, 0x0⟩,
  ⟨0x11C, 128, 16, 0, 1, 0x0, 0x3FFFF, 0x0, 0x0, 0x0, 0x0⟩,
  ⟨0x120, 128, 16, 0, 1, 0x0, 0x3FFFF, 0x0, 0x0, 0x0, 0x0⟩,
  ⟨0x124, 128, 16, 0, 1, 0x0, 0x3FFFF, 0x0, 0x0, 0x0, 0x0⟩,
  ⟨0x128, 128, 16, 0, 1, 0x0, 0x3FFFF, 0x0, 0x0, 0x0, 0x0⟩,
  ⟨0x12C, 128, 16, 0, 1, 0x0, 0x1FFFFFF, 0x0, 0x0, 0x0, 0x560000⟩,
  ⟨0x130, 128, 16, 0, 1, 0x0, 0x3FFFF, 0x0, 0x0, 0x0, 0x20000⟩]

/-- Register map of RCV n (R157), part 3: TONE_MAP_ORG_Q, TONE_LAST_I, TONE_LAST_Q, TONE_LAST_OUT, TONE_AVG_COUNT. -/
def rcvMap3 : List RegRow := [
  ⟨0x134, 128, 16, 0, 1, 0x0, 0x3FFFF, 0x0, 0x0, 0x0, 0x20000⟩,
  ⟨0x138, 128, 16, 0, 1, 0x0, 0x0, 0x0, 0x0, 0x3FFFF, 0x0⟩,
  ⟨0x13C, 128, 16, 0, 1, 0x0, 0x0, 0x0, 0x0, 0x3FFFF, 0x0⟩,
  ⟨0x140, 128, 16, 0, 1, 0x0, 0x0, 0x0, 0x0, 0xFF, 0x0⟩,
  ⟨0x144, 128, 16, 0, 1, 0x0, 0x0, 0x0, 0x0, 0x1FFFF, 0x0⟩]

/-- Register map of RCV n (R157). -/
def rcvMap : List RegRow := rcvMap1 ++ rcvMap2 ++ rcvMap3

/-! ### FLX f (R121) -/

def FLX_CTL (f : Nat) : Nat := 0x260000 + 0x1000 * f
def FLX_STATUS (f : Nat) : Nat := 0x260004 + 0x1000 * f
def FLX_LEVEL (f : Nat) : Nat := 0x260008 + 0x1000 * f
def FLX_OUT_TRIM (f : Nat) : Nat := 0x260014 + 0x1000 * f
def FLX_QUEUE_FILL (f : Nat) : Nat := 0x260018 + 0x1000 * f
def FLX_SHOT_FLAGS (f : Nat) : Nat := 0x26001C + 0x1000 * f
def FLX_LATE_COUNT (f : Nat) : Nat := 0x260020 + 0x1000 * f
def FLX_DISCARD_COUNT (f : Nat) : Nat := 0x260024 + 0x1000 * f
def FLX_CLIP_COUNT (f : Nat) : Nat := 0x260028 + 0x1000 * f
def FLX_CLIP_AT (f : Nat) : Nat := 0x26002C + 0x1000 * f
def IIR_GAIN (f k : Nat) : Nat := 0x260100 + 0x1000 * f + 0x8 * k
def IIR_BETA (f k : Nat) : Nat := 0x260104 + 0x1000 * f + 0x8 * k
def FIR_TAP (f m : Nat) : Nat := 0x260200 + 0x1000 * f + 0x4 * m
/-- Page select of the shared flux and bias range (R429). -/
def FB_PAGE : Nat := 0x260F00

/-- Register map of FLX f (R121), part 1: FLX_CTL, FLX_STATUS, FLX_LEVEL, FLX_OUT_TRIM, FLX_QUEUE_FILL, FLX_SHOT_FLAGS, FLX_LATE_COUNT, FLX_DISCARD_COUNT, FLX_CLIP_COUNT, FLX_CLIP_AT, IIR_GAIN, IIR_BETA. -/
def flxMap1 : List RegRow := [
  ⟨0x0, 0, 1, 0, 1, 0x1, 0x0, 0x0, 0x300, 0x0, 0x0⟩,
  ⟨0x4, 0, 1, 0, 1, 0x0, 0x0, 0x1FF0100, 0x0, 0xF, 0x4⟩,
  ⟨0x8, 0, 1, 0, 1, 0x0, 0x3FFFF, 0x0, 0x0, 0x0, 0x0⟩,
  ⟨0x14, 0, 1, 0, 1, 0x0, 0xFF, 0x0, 0x0, 0x0, 0x0⟩,
  ⟨0x18, 0, 1, 0, 1, 0x0, 0x0, 0x0, 0x0, 0x1FF, 0x0⟩,
  ⟨0x1C, 0, 1, 0, 1, 0x0, 0x0, 0x0, 0x0, 0xFFFF01FF, 0x0⟩,
  ⟨0x20, 0, 1, 0, 1, 0x0, 0x0, 0x0, 0x0, 0xFFFFFFFF, 0x0⟩,
  ⟨0x24, 0, 1, 0, 1, 0x0, 0x0, 0x0, 0x0, 0xFFFFFFFF, 0x0⟩,
  ⟨0x28, 0, 1, 0, 1, 0x0, 0x0, 0x0, 0x0, 0xFFFFFFFF, 0x0⟩,
  ⟨0x2C, 0, 1, 0, 1, 0x0, 0x0, 0x0, 0x0, 0xFFFFFFFF, 0x0⟩,
  ⟨0x100, 8, 4, 0, 1, 0x3FFFF, 0x0, 0x0, 0x0, 0x0, 0x0⟩,
  ⟨0x104, 8, 4, 0, 1, 0xFFFFFFFF, 0x0, 0x0, 0x0, 0x0, 0x0⟩]

/-- Register map of FLX f (R121), part 2: FIR_TAP, FIR_TAP. -/
def flxMap2 : List RegRow := [
  ⟨0x200, 0, 1, 0, 1, 0x3FFFF, 0x0, 0x0, 0x0, 0x0, 0x10000⟩,
  ⟨0x204, 4, 31, 0, 1, 0x3FFFF, 0x0, 0x0, 0x0, 0x0, 0x0⟩]

/-- Register map of FLX f (R121). -/
def flxMap : List RegRow := flxMap1 ++ flxMap2

/-! ### BIAS b (R131) -/

def BIAS_CTL (b : Nat) : Nat := 0x1270000 + 0x1000 * b
def BIAS_STATUS (b : Nat) : Nat := 0x1270004 + 0x1000 * b
def BIAS_CODE (b : Nat) : Nat := 0x1270008 + 0x1000 * b
def BIAS_CODE_ACT (b : Nat) : Nat := 0x127000C + 0x1000 * b
def BIAS_DG (b : Nat) : Nat := 0x1270010 + 0x1000 * b
def SENSE_V (b : Nat) : Nat := 0x1270014 + 0x1000 * b
def SENSE_I (b : Nat) : Nat := 0x1270018 + 0x1000 * b

/-- Register map of BIAS b (R131), part 1: BIAS_CTL, BIAS_STATUS, BIAS_CODE, BIAS_CODE_ACT, BIAS_DG, SENSE_V, SENSE_I. -/
def biasMap1 : List RegRow := [
  ⟨0x0, 0, 1, 0, 1, 0xF, 0x0, 0x0, 0x0, 0x0, 0x0⟩,
  ⟨0x4, 0, 1, 0, 1, 0x0, 0x0, 0x700, 0x0, 0x8FF, 0x0⟩,
  ⟨0x8, 0, 1, 0, 1, 0xFFFFFF, 0x0, 0x0, 0x0, 0x0, 0x0⟩,
  ⟨0xC, 0, 1, 0, 1, 0x0, 0x0, 0x0, 0x0, 0xFFFFFF, 0x0⟩,
  ⟨0x10, 0, 1, 0, 1, 0x1FFFF, 0x0, 0x0, 0x0, 0x0, 0x11F40⟩,
  ⟨0x14, 0, 1, 0, 1, 0x0, 0x0, 0x0, 0x0, 0xFFFF, 0x0⟩,
  ⟨0x18, 0, 1, 0, 1, 0x0, 0x0, 0x0, 0x0, 0xFFFFFF, 0x0⟩]

/-- Register map of BIAS b (R131). -/
def biasMap : List RegRow := biasMap1

/-! ### DEC (R178) -/

def DEC_CTL : Nat := 0x280000
def DEC_STATUS : Nat := 0x280004
def DEC_SHOT_FLAGS : Nat := 0x280008
def PUB_COUNT : Nat := 0x280010
def DROP_COUNT : Nat := 0x280014
def CLASH_COUNT : Nat := 0x280018
def STALE_COUNT : Nat := 0x28001C
def IMPORT_COUNT : Nat := 0x280020
def SPRING_PEAK : Nat := 0x280024
def DT_CORR_COUNT : Nat := 0x280028
def DT_UNCORR_COUNT : Nat := 0x28002C
def SLOT_PEEK_SEL : Nat := 0x280040
def SLOT_PEEK : Nat := 0x280044
def SLOT_PEEK_STAMP_LO : Nat := 0x280048
def SLOT_PEEK_STAMP_HI : Nat := 0x28004C
def DT_CFG (t : Nat) : Nat := 0x281000 + 0x100 * t
def DT_STATUS (t : Nat) : Nat := 0x281004 + 0x100 * t
def DT_RESULT_LO (t : Nat) : Nat := 0x281008 + 0x100 * t
def DT_RESULT_HI (t : Nat) : Nat := 0x28100C + 0x100 * t
def DT_LOOKUP_COUNT (t : Nat) : Nat := 0x281010 + 0x100 * t
def DT_INVAL_COUNT (t : Nat) : Nat := 0x281014 + 0x100 * t
def DT_SEL (t m : Nat) : Nat := 0x281040 + 0x100 * t + 0x4 * m

/-- Register map of DEC (R178), part 1: DEC_CTL, DEC_STATUS, DEC_SHOT_FLAGS, PUB_COUNT, DROP_COUNT, CLASH_COUNT, STALE_COUNT, IMPORT_COUNT, SPRING_PEAK, DT_CORR_COUNT, DT_UNCORR_COUNT, SLOT_PEEK_SEL. -/
def decMap1 : List RegRow := [
  ⟨0x0, 0, 1, 0, 1, 0x0, 0x0, 0x0, 0x1, 0x0, 0x0⟩,
  ⟨0x4, 0, 1, 0, 1, 0x0, 0x0, 0x3F00, 0x0, 0x1, 0x0⟩,
  ⟨0x8, 0, 1, 0, 1, 0x0, 0x0, 0x0, 0x0, 0xFFFF001F, 0x0⟩,
  ⟨0x10, 0, 1, 0, 1, 0x0, 0x0, 0x0, 0x0, 0xFFFFFFFF, 0x0⟩,
  ⟨0x14, 0, 1, 0, 1, 0x0, 0x0, 0x0, 0x0, 0xFFFFFFFF, 0x0⟩,
  ⟨0x18, 0, 1, 0, 1, 0x0, 0x0, 0x0, 0x0, 0xFFFFFFFF, 0x0⟩,
  ⟨0x1C, 0, 1, 0, 1, 0x0, 0x0, 0x0, 0x0, 0xFFFFFFFF, 0x0⟩,
  ⟨0x20, 0, 1, 0, 1, 0x0, 0x0, 0x0, 0x0, 0xFFFFFFFF, 0x0⟩,
  ⟨0x24, 0, 1, 0, 1, 0x0, 0x0, 0x0, 0x0, 0x3FF, 0x0⟩,
  ⟨0x28, 0, 1, 0, 1, 0x0, 0x0, 0x0, 0x0, 0xFFFFFFFF, 0x0⟩,
  ⟨0x2C, 0, 1, 0, 1, 0x0, 0x0, 0x0, 0x0, 0xFFFFFFFF, 0x0⟩,
  ⟨0x40, 0, 1, 0, 1, 0x3FFF, 0x0, 0x0, 0x0, 0x0, 0x0⟩]

/-- Register map of DEC (R178), part 2: SLOT_PEEK, SLOT_PEEK_STAMP_LO, SLOT_PEEK_STAMP_HI, DT_CFG, DT_STATUS, DT_RESULT_LO, DT_RESULT_HI, DT_LOOKUP_COUNT, DT_INVAL_COUNT, DT_SEL. -/
def decMap2 : List RegRow := [
  ⟨0x44, 0, 1, 0, 1, 0x0, 0x0, 0x0, 0x0, 0xFFFF03FF, 0x0⟩,
  ⟨0x48, 0, 1, 0, 1, 0x0, 0x0, 0x0, 0x0, 0xFFFFFFFF, 0x0⟩,
  ⟨0x4C, 0, 1, 0, 1, 0x0, 0x0, 0x0, 0x0, 0xF, 0x0⟩,
  ⟨0x1000, 256, 8, 0, 1, 0x1, 0x3FFFFFE, 0x0, 0x0, 0x0, 0x2⟩,
  ⟨0x1004, 256, 8, 0, 1, 0x0, 0x0, 0x0, 0x0, 0xFFFF0007, 0x0⟩,
  ⟨0x1008, 256, 8, 0, 1, 0x0, 0x0, 0x0, 0x0, 0xFFFFFFFF, 0x0⟩,
  ⟨0x100C, 256, 8, 0, 1, 0x0, 0x0, 0x0, 0x0, 0xF, 0x0⟩,
  ⟨0x1010, 256, 8, 0, 1, 0x0, 0x0, 0x0, 0x0, 0xFFFFFFFF, 0x0⟩,
  ⟨0x1014, 256, 8, 0, 1, 0x0, 0x0, 0x0, 0x0, 0xFFFFFFFF, 0x0⟩,
  ⟨0x1040, 256, 8, 4, 20, 0x0, 0x1FFFF, 0x0, 0x0, 0x0, 0x0⟩]

/-- Register map of DEC (R178). -/
def decMap : List RegRow := decMap1 ++ decMap2

/-! ### TILE k (R435) -/

def TILE_STATUS (k : Nat) : Nat := 0x290000 + 0x4000 * k
def TILE_LINK_ERR (k : Nat) : Nat := 0x290004 + 0x4000 * k
def TILE_TEMP0 (k : Nat) : Nat := 0x290008 + 0x4000 * k
def TILE_TEMP1 (k : Nat) : Nat := 0x29000C + 0x4000 * k
def TILE_RISE (k : Nat) : Nat := 0x290010 + 0x4000 * k
def TILE_TRIM_DAC (k : Nat) : Nat := 0x290020 + 0x4000 * k
def TILE_TRIM_ADC (k : Nat) : Nat := 0x290024 + 0x4000 * k
def TILE_TRIM_FLUX (k : Nat) : Nat := 0x290028 + 0x4000 * k
def TILE_CTL (k : Nat) : Nat := 0x290030 + 0x4000 * k

/-- Register map of TILE k (R435), part 1: TILE_STATUS, TILE_LINK_ERR, TILE_TEMP0, TILE_TEMP1, TILE_RISE, TILE_TRIM_DAC, TILE_TRIM_ADC, TILE_TRIM_FLUX, TILE_CTL. -/
def tileMap1 : List RegRow := [
  ⟨0x0, 0, 1, 0, 1, 0x0, 0x0, 0x0, 0x0, 0xF7F, 0x0⟩,
  ⟨0x4, 0, 1, 0, 1, 0x0, 0x0, 0x0, 0x0, 0xFFFFFFFF, 0x0⟩,
  ⟨0x8, 0, 1, 0, 1, 0x0, 0x0, 0x0, 0x0, 0xFFFFFFFF, 0x0⟩,
  ⟨0xC, 0, 1, 0, 1, 0x0, 0x0, 0x0, 0x0, 0xFFFFFFFF, 0x0⟩,
  ⟨0x10, 0, 1, 0, 1, 0x0, 0x0, 0x0, 0x0, 0xFFFFFFFF, 0x0⟩,
  ⟨0x20, 0, 1, 0, 1, 0x0, 0x0, 0x0, 0x0, 0xFFFF, 0x0⟩,
  ⟨0x24, 0, 1, 0, 1, 0x0, 0x0, 0x0, 0x0, 0xFFFF, 0x0⟩,
  ⟨0x28, 0, 1, 0, 1, 0x0, 0x0, 0x0, 0x0, 0xFFFF, 0x0⟩,
  ⟨0x30, 0, 1, 0, 1, 0x0, 0x0, 0x0, 0x1, 0x0, 0x0⟩]

/-- Register map of TILE k (R435). -/
def tileMap : List RegRow := tileMap1

/-- Does the row hold the register at offset `o` of its block? -/
def RegRow.hit (r : RegRow) (o : Nat) : Bool :=
  decide (r.base ≤ o) &&
    (let d := o - r.base
     if r.s1 = 0 then d == 0
     else
       let q := d % r.s1
       decide (d / r.s1 < r.n1) && (if r.s2 = 0 then q == 0 else q % r.s2 == 0 && decide (q / r.s2 < r.n2)))

/-- The blocks of BAR0 (R426). -/
inductive Blk where
  | glb | hst | tide | ring | evt | mem | thm | flt | pmc | fuse | scope | cove | port | rcv | flx | bias | dec | tile
  deriving DecidableEq, Repr

/-- The register map of a block. -/
def Blk.map : Blk → List RegRow
  | .glb => glbMap
  | .hst => hstMap
  | .tide => tideMap
  | .ring => ringMap
  | .evt => evtMap
  | .mem => memMap
  | .thm => thmMap
  | .flt => fltMap
  | .pmc => pmcMap
  | .fuse => fuseMap
  | .scope => scopeMap
  | .cove => coveMap
  | .port => portMap
  | .rcv => rcvMap
  | .flx => flxMap
  | .bias => biasMap
  | .dec => decMap
  | .tile => tileMap

/-- A register key as block, instance and offset in the block (R426); keys from 0x127_0000 are the BIAS pages. -/
def locate (k : Nat) : Option (Blk × Nat × Nat) :=
  if k < 0x10000 then some (.glb, 0, k)
  else if k < 0x20000 then some (.hst, 0, k - 0x10000)
  else if k < 0x30000 then some (.tide, 0, k - 0x20000)
  else if k < 0x40000 then some (.ring, 0, k - 0x30000)
  else if k < 0x50000 then some (.evt, 0, k - 0x40000)
  else if k < 0x60000 then some (.mem, 0, k - 0x50000)
  else if k < 0x70000 then some (.thm, 0, k - 0x60000)
  else if k < 0x80000 then some (.flt, 0, k - 0x70000)
  else if k < 0x90000 then some (.pmc, 0, k - 0x80000)
  else if k < 0xA0000 then some (.fuse, 0, k - 0x90000)
  else if k < 0xB0000 then some (.scope, 0, k - 0xA0000)
  else if k < 0x100000 then none
  else if k < 0x200000 then some (.cove, (k - 0x100000) / 0x10000, (k - 0x100000) % 0x10000)
  else if k < 0x250000 then some (.port, (k - 0x200000) / 0x1000, (k - 0x200000) % 0x1000)
  else if k < 0x260000 then some (.rcv, (k - 0x250000) / 0x1000, (k - 0x250000) % 0x1000)
  else if k < 0x280000 then some (.flx, (k - 0x260000) / 0x1000, (k - 0x260000) % 0x1000)
  else if k < 0x290000 then some (.dec, 0, k - 0x280000)
  else if k < 0x2A0000 then some (.tile, (k - 0x290000) / 0x4000, (k - 0x290000) % 0x4000)
  else if 0x1270000 ≤ k ∧ k < 0x1280000 then some (.bias, (k - 0x1270000) / 0x1000, (k - 0x1270000) % 0x1000)
  else none

/-- The row of a register key; D0-D63 have the registers of four tone slots only (R14), FB_PAGE lies in the page of F0. -/
def regInfo (k : Nat) : Option RegRow :=
  if k = FB_PAGE then some ⟨0xF00, 0, 1, 0, 1, 1, 0, 0, 0, 0, 0⟩
  else
    match locate k with
    | none => none
    | some (b, i, o) =>
      if b = .port ∧ i < 64 ∧ 0x140 ≤ o then none
      else b.map.find? (fun r => r.hit o)

/-- The value an unwritten register reads as: its reset value in the register maps. -/
def resetVal (k : Nat) : Reg32 :=
  match regInfo k with
  | some r => r.reset
  | none => 0

end Sys2Proof.Machine
end

