-- ==== Sys2Proof/Machine/Map.lean ====
section
/-! DEFINITION. A sparse table: a list of (key, value) pairs in one canonical form, keys strictly rising and no
entry equal to what an unlisted key reads as.  Memories, register files and numbered units are held in it. -/

namespace Sys2Proof.Machine

/-- A sparse table of values under natural-number keys. -/
structure SMap (α : Type) where
  entries : List (Nat × α)
  deriving DecidableEq, Repr

/-- The table that lists nothing. -/
def SMap.empty {α : Type} : SMap α := ⟨[]⟩

/-- First value listed under a key, or the value `d` an unlisted key reads as. -/
def lookupIn {α : Type} (d : α) (k : Nat) : List (Nat × α) → α
  | [] => d
  | (j, v) :: t => if j = k then v else lookupIn d k t

/-- Insert a pair before the first larger key. -/
def insertIn {α : Type} (k : Nat) (v : α) : List (Nat × α) → List (Nat × α)
  | [] => [(k, v)]
  | (j, w) :: t => if k < j then (k, v) :: (j, w) :: t else (j, w) :: insertIn k v t

/-- Drop every entry of a key. -/
def eraseIn {α : Type} (k : Nat) : List (Nat × α) → List (Nat × α)
  | [] => []
  | (j, w) :: t => if j = k then eraseIn k t else (j, w) :: eraseIn k t

/-- Read a key of the table whose unlisted keys read as `d`. -/
def SMap.get {α : Type} (m : SMap α) (d : α) (k : Nat) : α := lookupIn d k m.entries

/-- Write a key; writing the unlisted value removes the entry. -/
def SMap.put {α : Type} [DecidableEq α] (m : SMap α) (d : α) (k : Nat) (v : α) : SMap α :=
  ⟨if v = d then eraseIn k m.entries else insertIn k v (eraseIn k m.entries)⟩

/-- Change one key by a function of its present value. -/
def SMap.upd {α : Type} [DecidableEq α] (m : SMap α) (d : α) (k : Nat) (f : α → α) : SMap α :=
  m.put d k (f (m.get d k))

/-- Change every listed value; those that become the unlisted value leave the list. -/
def SMap.mapVals {α : Type} [DecidableEq α] (m : SMap α) (d : α) (f : α → α) : SMap α :=
  ⟨(m.entries.map (fun e => (e.1, f e.2))).filter (fun e => decide (e.2 ≠ d))⟩

/-- Drop every entry whose key satisfies `p`. -/
def SMap.dropKeys {α : Type} (m : SMap α) (p : Nat → Bool) : SMap α :=
  ⟨m.entries.filter (fun e => ! p e.1)⟩

/-- The canonical form: keys strictly rising, no entry equal to the unlisted value. -/
abbrev SMap.wf {α : Type} (m : SMap α) (d : α) : Prop :=
  m.entries.Pairwise (fun a b => a.1 < b.1) ∧ ∀ e ∈ m.entries, e.2 ≠ d

end Sys2Proof.Machine
end

