-- ==== Sys2Proof/Machine/State.lean ====
section
/-! DEFINITION. The state of the block: the clocks, the memories, and everything else the spec names, as plain data;
the queue of waiting commands; the reasons a step can stop; and the state after reset. -/

namespace Sys2Proof.Machine

/-- Reasons a command stops with a fault. The spec gives every command of this block an effect, so no meaning raises
one; the constructor is there because the interface asks for the type. Safe. -/
inductive Fault where
  /-- Never raised by a meaning. Safe. -/
  | none
  deriving DecidableEq, Repr

/-- Reasons a command is refused. -/
inductive Refusal where
  /-- Raised by an arm of `exec` whose command has no meaning yet. Safe: nothing can be proved of it. -/
  | notModelled (mnemonic : String)
  deriving DecidableEq, Repr

/-! ### Clocks -/

/-- The two clocks of the tide block (R24, R25) and whether the core clock runs. `tt` is Tide Time as 64 integer bits
over 32 fraction bits. `cyc` counts core cycles since the core clock started and is the model's own: anchoring moves the
Phase Count and Tide Time but not the delays the spec counts in core cycles. -/
structure Clock where
  phase : BitVec 64
  tt : BitVec 96
  on : Bool
  cyc : Nat
  deriving DecidableEq, Repr

/-! ### Memories -/

/-- The memories: on-die words by device byte address (R304), LPDDR5X bytes, single- and double-bit errors
standing in words, device lines and control stores, and the fuse words. -/
structure Mem where
  onDie : SMap Word
  dev : SMap Byte
  err : SMap Nat
  fuse : SMap (BitVec 64)
  deriving DecidableEq, Repr

/-! ### What happened in the present core cycle -/

/-- A pending event of a task input (R332): channel, delivered lineage, REASON for TI3 (R231). -/
structure TiEvent where
  ch : Nat
  lin : BitVec 64
  reason : Nat
  deriving DecidableEq, Repr

/-- What reached a task input in this cycle (R332): 4 * engine + input; the event held back because another was pending, none
if it became pending at once; whether a merge has been counted. -/
structure TiSeen where
  key : Nat
  held : Option TiEvent
  merged : Bool
  deriving DecidableEq, Repr

/-- Occurrences of one performance event in this cycle (R417). -/
structure PerfInc where
  ev : Nat
  idx : Nat
  n : Nat
  deriving DecidableEq, Repr

/-- A decision slot (R159). -/
structure Slot where
  value : Nat
  valid : Bool
  epoch : Nat
  stamp : Nat
  deriving DecidableEq, Repr

/-- What the present cycle has done so far, for the rules about two things in one cycle: sticky bits set (R10), counter
increments (the CNT_CLR rules), channels delivered (R327, R331), task inputs reached, performance increments, whether a
snapshot or a suppression was made, the first event of each capture unit (its sixteenth, OVR before it, whether another followed) and whether the merge buffer has passed its outcomes, mirror
entries written, performance counters written with their values before, bytes a monitored port has moved, how many writes
were refused, FB_PAGE before its first write of the cycle (R429), the on-die words written (R102), the coves whose collector has taken its word
(R309), the rings whose import lane has taken its update, and the ring updates that reached the fabric, by mirror entry (R160, R161). -/
structure CycleLog where
  sets : SMap Reg32
  incs : SMap Nat
  delivered : List (Nat × BitVec 64)
  ti : List TiSeen
  perf : List PerfInc
  snapped : Bool
  loopCh : Option Nat
  capMiss : SMap (Option (Nat × Bool × Bool))
  merged : Bool
  mir : List Nat
  pcntOld : List (Nat × Nat)
  bytes : List PerfInc
  refused : Nat
  fbOld : Option Reg32
  writes : List Nat
  granted : List Nat
  lanes : List Bool
  imports : List (Nat × Slot)
  deriving DecidableEq, Repr

/-! ### Tide grid -/

/-- The interval the grid is in (R37): stopped, the window a start opens, a shot window, a Slack window, a held interval. -/
inductive Win where
  | stopped | start | shot | slack | held
  deriving DecidableEq, Repr

/-- The shot grid (R35 to R42). `shotFin` is the end of the shot window last opened (R37). -/
structure Grid where
  win : Win
  bound : Nat
  next : Nat
  ann : Bool
  annEpoch : Nat
  horizon : Bool
  voted : Nat
  verdict : Option Bool
  done : Bool
  stopping : Bool
  voteMask : Nat
  voteReasons : Nat
  anchorAt : Option Nat
  anchorSet : Option (BitVec 96)
  lastCommit : Option Nat
  started : Nat
  armedAt : SMap Nat
  shotFin : Nat
  deriving DecidableEq, Repr

/-! ### Tide Ring -/

/-- A frame waiting at a ring output (R57), with its arrival stamp and ingress delay when it is being forwarded (R59). -/
structure TxEntry where
  frame : Frame
  arrived : Option Nat
  ingress : Nat
  deriving DecidableEq, Repr

/-- A frame accepted within the duplicate window (R56 rule 7). -/
structure SeenFrame where
  ringB : Bool
  src : BitVec 4
  type : BitVec 4
  seq : BitVec 16
  hops : Nat
  at_ : Nat
  deriving DecidableEq, Repr

/-- A TIME or TAKEOVER frame whose offset waits until it is known which of its two copies crossed fewer links (R63): the ring of the copy kept,
its links, the offset in 1/16 ns, whether the phases slip (R66), and the cycle of the first copy. -/
structure HeldTime where
  ringB : Bool
  src : BitVec 4
  type : BitVec 4
  seq : BitVec 16
  hops : Nat
  off : Int
  slip : Bool
  at_ : Nat
  deriving DecidableEq, Repr

/-- A decision update waiting for the frame builder (R79). -/
structure DecUpd where
  slot : Nat
  val : Nat
  epoch : Nat
  stamp : Nat
  deriving DecidableEq, Repr

/-- An event waiting in the export queue (R330). -/
structure ExpEv where
  ch : Nat
  lin : BitVec 64
  stamp : Nat
  deriving DecidableEq, Repr

/-- Internal state of the Tide Ring block (R54 to R84), stamps in sixteenths of a core cycle: what waits at the two outputs and
when each is free (in half cycles); SEQ; frames accepted lately; the departure of the last DELAY_REQ on each ring; round
trips of each link pair, newest last, those since they were last discarded, and the asymmetry constants in use; ingress
delays last confirmed; offsets since the last staging; the cycle of the last class-0 frame of the Lighthouse; the count k of
R67; the last announced boundary and epoch; the STATUS each member reports; the neighbours' asymmetry constants; the nonce;
whether a Lighthouse is known; the STATUS last reported; whether the grid follows the mirrors after a takeover; a waiting
unwrap; lock and break of each input; LOOP departures and returns; the role in force while a change waits; exported slots in
force; updates and events waiting for frames; when frames were last sent (cycles for ANNOUNCE and TIME, Tide Time else); TIME frames whose better copy
may still come; the count of commit points and the cycle at the servo's last staging (R64). -/
structure RingSt where
  txA : List TxEntry
  txB : List TxEntry
  freeA : Nat
  freeB : Nat
  seq : BitVec 16
  seen : List SeenFrame
  reqA : Option (BitVec 16 × Option Nat)
  reqB : Option (BitVec 16 × Option Nat)
  rttUp : List Int
  rttDn : List Int
  newUp : Nat
  newDn : Nat
  useUp : Int
  useDn : Int
  confA : Option Int
  confB : Option Int
  offs : List Int
  lastLh : Nat
  kMissed : Nat
  lastAnn : Option (Nat × Nat)
  status : SMap (Option (BitVec 5))
  nbUp : Option Nat
  nbDn : Option Nat
  nonce : BitVec 16
  lhKnown : Bool
  lastStatus : BitVec 5
  useMirror : Bool
  unwrapStaged : Bool
  lockSinceA : Nat
  lockSinceB : Nat
  brokenA : Bool
  brokenB : Bool
  loopDepA : Option Nat
  loopDepB : Option Nat
  loopA : Option (Int × Int)
  loopB : Option (Int × Int)
  roleStaged : Option Nat
  exportAct : SMap Reg32
  decOut : List DecUpd
  evOut : List ExpEv
  lastAnnSent : Nat
  lastTimeSent : Nat
  lastReqA : Nat
  lastReqB : Nat
  lastLoop : Nat
  timeHeld : List HeldTime
  servoMark : Option Nat
  servoAt : Nat
  deriving DecidableEq, Repr

/-! ### Event router -/

/-- An event on its way through the router (R325): channel, carried lineage, delivery cycle, made by imports alone. -/
structure RouterEv where
  ch : Nat
  lin : BitVec 64
  due : Nat
  imported : Bool
  deriving DecidableEq, Repr

/-- Pins and router (R325 to R336): events in flight, pending task inputs by 4 * engine + input, the pulses of marker pins, oldest first, by the
cycles in which they begin and end, registered levels of the trigger inputs and of ILK_N asserted, and the
legacy channels whose rise has been acted on. -/
structure EvtSt where
  flight : List RouterEv
  ti : SMap (Option TiEvent)
  marker : SMap (List (Nat × Nat))
  trg : BitVec 8
  ilk : Bool
  safeTiles : BitVec 4
  deriving DecidableEq, Repr

/-! ### Host interface -/

/-- A completion, RESULT or FAULT record waiting to be written (R292, R294): its fields, whether it must signal at once,
the sequence number of the descriptor it ends, and for a RESULT record its FIFO (16 * cove + FIFO), the staged packets it settles
and the host lines it covers. -/
structure Rec where
  kind : Nat
  status : Nat
  cookie : Reg32
  seq : Reg32
  d0 : Reg32
  d1 : BitVec 64
  tide : BitVec 64
  irqNow : Bool
  ends : Option Nat
  fifo : Option (Nat × Nat × Nat)
  deriving DecidableEq, Repr

/-- How far a fetched descriptor is (R276, R277): fetched and not started, acting or waiting on its condition, ended with its
record waiting to be written. -/
inductive DescSt where
  | fetched | active | ended
  deriving DecidableEq, Repr

/-- A descriptor in flight (R276): free-running sequence number, fetch order over all rings, its 64 bytes, its state, the
cycle in which its TIMEOUT passes, a mask its kind uses (refused writes, stopped units), the count of commit points when it
started or how far it has come, and the packets a draining FENCE waits for: 16 * cove + FIFO and the count of commits. -/
structure Desc where
  seq : Nat
  order : Nat
  raw : BitVec 512
  st : DescSt
  deadline : Option Nat
  mask : Nat
  aux : Nat
  marks : List (Nat × Nat)
  deriving DecidableEq, Repr

/-- One descriptor ring with its completion ring (R273): published and consumed counts (R268), records waiting to be
written, descriptors in flight, records unsignalled and the cycle of the first of them (R295), and the RESULT
records written whose lines the host has not returned: record number, 16 * cove + FIFO, lines (R317). -/
structure HostRing where
  prod : Reg32
  cons : Reg32
  recs : List Rec
  descs : List Desc
  unsig : Nat
  t0 : Option Nat
  owed : List (Nat × Nat × Nat)
  deriving DecidableEq, Repr

/-- The accesses of one TIME_CONTROL or QUERY, which land in consecutive cycles (R286, R290): ring, sequence number, fetch order, next
access, the values read so far, true for a QUERY. -/
structure Landing where
  ring : Nat
  seq : Nat
  order : Nat
  idx : Nat
  vals : List Reg32
  query : Bool
  deriving DecidableEq, Repr

/-- The Ring Engine (R267 to R295). -/
structure HostSt where
  rings : SMap HostRing
  order : Nat
  rr : Nat
  nextTick : Option Nat
  pollReads : Option (List Nat)
  nudge : Bool
  landings : List Landing
  heldWrites : List (Nat × Nat × Reg32)
  commitMark : Nat
  deriving DecidableEq, Repr

/-- What leaves the device in the present cycle: the model's own record of it, emptied at each tick. -/
inductive OutItem where
  | hostWrite (addr : BitVec 64) (bytes : List Byte) (relaxed : Bool)
  | frame (ringB : Bool) (f : Frame) (blocks : List (Bool × BitVec 64))
  | errorBlock (ringB : Bool)
  | regValue (off : Nat) (v : Reg32)
  | bar2 (bytes : List Byte)
  | unsupported
  | poisoned
  | smbus (value : Nat) (acked : Bool)
  deriving DecidableEq, Repr

/-! ### Composers -/

/-- A command on its way from an engine to the composers or the receiver of its cove (R223, R225): cove, engine,
window command, its words, the cycle in which it enters its queue. -/
structure Issue where
  cove : Nat
  eng : Nat
  window : Bool
  w0 : Word
  w1 : Word
  w2 : Word
  w3 : Word
  due : Nat
  deriving DecidableEq, Repr

/-- What has become of a queued command: waiting for its fork partner (R99), queued, an arm whose select cycle this is, its arm selected
(R100), fired. -/
inductive CmdSt where
  | waiting | queued | due | selected | fired
  deriving DecidableEq, Repr

/-- One command held in a port queue (R90, R95): resolved fire time, sub-ns fraction, tone slot, duration, its words and
its state. -/
structure PulseCmd where
  v : Int
  k : Nat
  slot : Nat
  len : Nat
  w0 : Word
  w1 : Word
  w2 : Word
  w3 : Word
  st : CmdSt
  deriving DecidableEq, Repr

/-- A pulse being emitted (R92, R97, R111): slot, cycle and sample it started on, length in cc, cycle of its last sample at
the pin, words 1 to 3. -/
structure Emission where
  slot : Nat
  start : Nat
  samp : Nat
  len : Nat
  last : Nat
  w1 : Word
  w2 : Word
  w3 : Word
  deriving DecidableEq, Repr

/-- The horizons of a tone slot (R94) or demodulator (R143): time of the last accepted command and end of the last
accepted pulse or window, each in sixteenths of a ns. -/
structure Horizon where
  cmd : Int
  fin : Int
  deriving DecidableEq, Repr

/-- A converter core (R104, R120, R134): the Phase Count of the write that started it, and whether it is stopping. -/
structure CoreSt where
  start : Option Nat
  stopping : Bool
  deriving DecidableEq, Repr

/-- A composer: port queue, oldest first; pulses being emitted; slot horizons; converter core; baseband sample of the last
cycle after step 5 of R86; whether a clip of this epoch has been recorded; the DAC codes of step 7 on their way to the pin, by the
cycle they were formed for, newest first. -/
structure Composer where
  queue : List PulseCmd
  run : List Emission
  hz : SMap Horizon
  core : CoreSt
  base : Word
  clipped : Bool
  line : List (Nat × List Int)
  deriving DecidableEq, Repr

/-- A running flux ramp (R111): start level, target, length in cc, samples done. -/
structure Ramp where
  l0 : Int
  tgt : Int
  len : Nat
  m : Nat
  deriving DecidableEq, Repr

/-- The level and the predistortion of a flux port (R111, R115 to R118): the level after the last sample of the cycle before
and at the two samples of this one, whether a command of this cycle has acted on each, the running ramp, the wave word read last (R112),
the chain input of the last sample, the inputs the four IIR stages had then and the FIR history newest first in units of 2⁻²¹, the four
IIR states in units of 2⁻⁴⁴, the coefficients in effect (4 gains, 4 rates, 32 taps), the two DAC codes of the last cycle, and the codes on
their way to the pin, by the cycle of their chain input, newest first. -/
structure FluxSt where
  lprev : Int
  lev0 : Int
  lev1 : Int
  at0 : Bool
  at1 : Bool
  ramp : Option Ramp
  wave : Word
  vin : Int
  ins : List Int
  iir : List Int
  hist : List Int
  gain : List Int
  beta : List Nat
  taps : List Int
  codes : List Int
  line : List (Nat × List Int)
  deriving DecidableEq, Repr

/-- State of a bias output (R130). -/
inductive BiasMode where
  | safe | starting | on | stopping
  deriving DecidableEq, Repr

/-- A bias output (R122 to R130): staged writes waiting to apply, applied values waiting for the PWM frame, whether an open load
forces zero at the next frame, frames begun and the cycle in which the present one began, the frame in which a Starting or
Stopping ends, the frame in which a hold ends, the first frame of a range change, the range and code it leads to,
consecutive samples at the compliance bound, and the high cycles of the present frame. -/
structure BiasSt where
  mode : BiasMode
  stCode : Option Nat
  stRange : Option Nat
  stEn : Option Bool
  apCode : Option Nat
  apRange : Option Nat
  apEn : Option Bool
  zero : Bool
  frame : Nat
  begun : Option Nat
  modeFrame : Nat
  holdUntil : Option Nat
  rangeFrom : Option Nat
  newRange : Nat
  newCode : Nat
  overs : Nat
  high : Nat
  deriving DecidableEq, Repr

/-! ### Receivers -/

/-- A window command held in a receiver queue (R139, R144). -/
structure WinCmd where
  v : Int
  k : Nat
  w1 : Word
  w2 : Word
  w3 : Word
  deriving DecidableEq, Repr

/-- A window under way (R140, R152): its command, the cycle and ADC sample it starts on, the cycle of its last pin
sample and that sample's integer Tide Time, the epoch of its shot, whether it is stale, counts as open, and holds a queue entry, the
demodulators whose kernel was written while it was open, weights read before such a write, the linked demodulators found out of band,
and whether an over-range code fell inside it. -/
structure Window where
  cmd : WinCmd
  start : Nat
  samp : Nat
  fin : Nat
  finTide : Nat
  epoch : Nat
  stale : Bool
  isOpen : Bool
  entry : Bool
  race : Nat
  old : List (Nat × Word)
  oob : Nat
  ovr : Bool
  deriving DecidableEq, Repr

/-- An averaging bank (R155). -/
structure AvgBank where
  sumI : Int
  sumQ : Int
  n : List Nat
  count : Nat
  tag : Nat
  deriving DecidableEq, Repr

/-- A word of the result queue (R154): target FIFO, the word, whether it carries STALE, first and last of its packet. -/
structure ResWord where
  fifo : Nat
  word : Word
  stale : Bool
  first : Bool
  last : Bool
  deriving DecidableEq, Repr

/-- What a demodulator mixes with from ADC sample `from_` on, eight samples a core cycle counted from cycle 0 (R136): the Phase Count of that
sample's cycle, and F with θ; none while the core produces no samples (R134). -/
structure Nco where
  from_ : Nat
  ph : Nat
  tune : Option (Nat × Nat)
  deriving DecidableEq, Repr

/-- A read-out receiver: queued commands, updates that have retired and whose pin sample is still to come (R141, R144), windows, horizons,
the core, averaging banks, the result queue, and per demodulator what it has mixed with, newest first. -/
structure Receiver where
  queue : List WinCmd
  upds : List WinCmd
  wins : List Window
  hz : SMap Horizon
  core : CoreSt
  avg : SMap AvgBank
  resq : List ResWord
  nco : SMap (List Nco)
  deriving DecidableEq, Repr

/-! ### Decision Fabric -/

/-- A slot as a cove view shows it, with the order in which the slot store accepted it (R166). -/
structure ViewSlot where
  slot : Slot
  ord : Nat
  deriving DecidableEq, Repr

/-- An update on its way to the slot store (R161 to R165): class 1 an outcome, 2 an engine publication; the source cove
and, for an outcome, the demodulator; the cycle in which it reaches the store. -/
structure SlotUpd where
  slot : Nat
  val : Nat
  epoch : Nat
  stamp : Nat
  cls : Nat
  cove : Nat
  dem : Nat
  due : Nat
  deriving DecidableEq, Repr

/-- A stored update on its way to another cove's view (R164). -/
structure ViewUpd where
  cove : Nat
  num : Nat
  slot : Slot
  ord : Nat
  due : Nat
  deriving DecidableEq, Repr

/-- A Decision Table lookup in flight (R171): start cycle, index, latest source stamp, epoch, and the word once read
(none inside when the memory word is uncorrectable, R406). -/
structure Lookup where
  start : Nat
  idx : Nat
  stamp : Nat
  epoch : Nat
  word : Option (Option Word)
  deriving DecidableEq, Repr

/-- A Decision Table (R169 to R173): EN in effect and staged, a lookup due, the lookup in flight, the valid result with
its epoch, and the last result with its epoch. -/
structure DTable where
  en : Bool
  enNext : Option Bool
  trig : Bool
  flight : Option Lookup
  result : Option (Word × Nat × Nat)
  last : Word
  lastEpoch : Nat
  deriving DecidableEq, Repr

/-- A ring update that waits for the import lane of its ring (R161): true for ring B; sending device, slot, value, epoch, stamp. -/
structure ImportUpd where
  ringB : Bool
  dev : Nat
  slot : Nat
  val : Nat
  epoch : Nat
  stamp : Nat
  deriving DecidableEq, Repr

/-- The Decision Fabric: slot store, mirror by 1024 * device + slot, views by 1024 * cove + slot, outcomes that arrived in
this cycle, merge buffer, updates on their way to the store and to views, the acceptance count, the next free cycle of
each engine lane, the tables, and ring updates that wait for their import lane. -/
structure Fabric where
  store : SMap Slot
  mirror : SMap Slot
  views : SMap ViewSlot
  arrivals : List SlotUpd
  buffer : List SlotUpd
  flight : List SlotUpd
  viewQ : List ViewUpd
  ord : Nat
  lane : SMap Nat
  tables : SMap DTable
  imports : List ImportUpd
  deriving DecidableEq, Repr

/-! ### Yosum engines and coves -/

/-- An address register (R179, R188): pointer, base, length (coding 0 means 65,536), signed step and mode. -/
structure AddrReg where
  p : BitVec 24
  b : BitVec 24
  l : BitVec 16
  s : BitVec 16
  mode : BitVec 2
  deriving DecidableEq, Repr

/-- Where a patched routine goes on after a WAIT or an ELEM NEXT (R243): the next microaddress, none when the instruction ends there; its major
opcode; the progress index and the element count; the PC it has written. -/
structure Cont where
  u : Option Nat
  op : Nat
  elems : Option (Nat × Nat)
  newPc : Option Nat
  deriving DecidableEq, Repr

/-- An AWAIT or WAITEV under way (R228, R230): true for WAITEV; the operand bits of its instruction and the destination (R242);
the select or the task-input mask; the resolved deadline; the value that has arrived with its cycle; the lineage of a
consumed event; the cycle in which the deadline was reached; where a patched routine goes on after its WAIT. -/
structure Wait where
  ev : Bool
  f : BitVec 28
  dst : Nat
  sel : Nat
  deadline : Option Int
  got : Option (Word × Nat)
  lin : BitVec 64
  dead : Option Nat
  cont : Option Cont
  deriving DecidableEq, Repr

/-- What an instruction stalls on (R195, R161, R309): the inputs or the queue its command needs, by window command and word 1; the engine lane
of its cove; a FIFO. -/
inductive StallOn where
  | input (window : Bool) (w1 : Word)
  | lane
  | fifo (f : Nat)
  deriving DecidableEq, Repr

/-- A stall: its first cycle, and what the instruction stalls on. -/
structure Stall where
  since : Nat
  on : StallOn
  deriving DecidableEq, Repr

/-- The state of a physical engine (R179): general registers, address registers, accumulators, PC, the flags in the layout of
S_FLAGS, BEXP; a wait; the element a block instruction goes on from (R222, R234); a STOP that waits (R198); the
micro-temporaries (R242); the fetch buffer, each word's address and whether it was read with a double-bit error (R183, R186); the stall the
instruction in hand is in (R198); whether no instruction has ended since the engine began to run (R232); a mismatch that waits to act: the
Tide Time of its cycle and the cycle in which the checker acts (R205, R222); where a patched routine goes on at its safe point (R249). The
engine's state and its other registers lie in the COVE register map. -/
structure Engine where
  g : SMap Word
  a : SMap AddrReg
  acc : SMap (BitVec 80)
  pc : BitVec 24
  flags : BitVec 6
  bexp : Nat
  wait : Option Wait
  resume : Option Nat
  stop : Bool
  t0 : Word
  t1 : Word
  fbuf : List (Nat × Bool)
  stall : Option Stall
  fresh : Bool
  twin : Option (Nat × Nat)
  cont : Option Cont
  deriving DecidableEq, Repr

/-- What an engine has sent and what has not landed yet (R185, R194, R309): a store, a SIGNAL, an EMIT, a COMMIT, an ABORT. -/
inductive OutKind where
  | store (addr : Nat) (w : Word)
  | signal (ch : Nat) (lin : BitVec 64)
  | emit (fifo : Nat) (w : Word)
  | commit (fifo : Nat)
  | abort (fifo : Nat)
  deriving DecidableEq, Repr

/-- An output of an engine on its way: the logical engine, the cycle of its issue, the cycle in which it lands. -/
structure EngOut where
  eng : Nat
  issued : Nat
  due : Nat
  what : OutKind
  deriving DecidableEq, Repr

/-- A cove's Guarded-mode state (R203 to R206): logical pairs that wait for a reload, the one being reloaded, whether an image
build runs, whether the reload has missed a release. -/
structure CoveSt where
  waiting : List Nat
  loading : Option Nat
  build : Bool
  miss : Bool
  deriving DecidableEq, Repr

/-! ### Result Collectors and bindings -/

/-- A packet committed and not yet staged (R311): its words, each with its stale mark, and the first cycle in which the packer
sees it. -/
structure Packet where
  words : List (Word × Bool)
  vis : Nat
  no : Nat
  deriving DecidableEq, Repr

/-- The open packet of a FIFO (R310): the engine that produces it, none for the receiver, and its words. -/
structure OpenPkt where
  prod : Option Nat
  words : List (Word × Bool)
  deriving DecidableEq, Repr

/-- A staged packet (R317): its first line in the staging area, its lines, whether one carries STALE, its number on its FIFO. -/
structure Staged where
  at_ : Nat
  lines : Nat
  stale : Bool
  no : Nat
  deriving DecidableEq, Repr

/-- An open RESULT record (R318): packets and lines it covers, its first host line, whether a line carries STALE. -/
structure OpenRec where
  packets : Nat
  lines : Nat
  first : Nat
  stale : Bool
  deriving DecidableEq, Repr

/-- A binding (R284, R316 to R322): the ring it reports to and the COOKIE; the host buffer and whether the host half is in
place; the staging area; whether it is lost; the next line to stage and the next host line; packets staged and not copied,
oldest first; packets copied whose record is not written; the open record; the ring and sequence number of an unbind in
progress; whether a host fault has stopped the drain; whether a horizon has passed since the bind. -/
structure Binding where
  ring : Nat
  cookie : Reg32
  hostBase : Nat
  hostLog : Nat
  host : Bool
  stageBase : Nat
  stageLog : Nat
  lost : Bool
  wr : Nat
  hostAt : Nat
  staged : List Staged
  copied : List Staged
  rec_ : Option OpenRec
  unbind : Option (Nat × Nat)
  halted : Bool
  part : Bool
  deriving DecidableEq, Repr

/-- A FIFO of a Result Collector: the open packet, committed packets, the producers whose words are dropped (R312, R313), the
binding, whether OVERSIZE or FLUSH_CUT occurred since the last RESULT record, and how many packets have been committed: the number of the
next one. -/
structure Fifo where
  open_ : Option OpenPkt
  done : List Packet
  drops : List (Option Nat)
  bind : Option Binding
  overFlag : Bool
  cut : Bool
  com : Nat
  deriving DecidableEq, Repr

/-! ### Acquisition Scope -/

/-- A captured point (R339): its index, the Phase Count cycle of its first source sample and that sample's place at the ADC, counted from cycle
0 eight a cycle, its stamp with SKEW in units of 2⁻³² ns, the epoch, whether its source was being calibrated, whether a raw code was at
full scale, whether a FORCE waited as its last sample came, and its two values: sums while it is being formed, Q1.17 once formed. -/
structure ScopePt where
  idx : Nat
  ph : Nat
  raw : Nat
  tt : Int
  epoch : Nat
  stale : Bool
  ovr : Bool
  forced : Bool
  v0 : Int
  v1 : Int
  deriving DecidableEq, Repr

/-- A trigger taken (R344, R345): its point, the first line of the record, whether it was forced, whether PRE was short, whether the
device was not anchored. -/
structure ScopeTrig where
  pt : ScopePt
  first : Nat
  forced : Bool
  short : Bool
  loose : Bool
  deriving DecidableEq, Repr

/-- A record that has ended and whose entry waits for its lines to reach memory (R351): address, bytes, whether it is the unit's last, and
whether it stops the unit. -/
structure ScopeEnd where
  addr : Nat
  bytes : List Byte
  last : Bool
  stop : Bool
  deriving DecidableEq, Repr

/-- What stands in the die buffer of a capture unit (R352): a whole line, with the stamp of the newest point before it that the unit did not
capture; a place where one or more lines found the buffer full; a place where the source stopped. -/
inductive ScopeBuf where
  | line (pts : List ScopePt) (miss : Int)
  | over
  | lost
  deriving DecidableEq, Repr

/-- A capture unit (R339 to R353): the a in effect, the first line of the fill and the next line to be written, the number of the record, the
line being taken and its points begun, the die buffer oldest first, points of the region, the stamp of the newest point not captured
and of the newest before the region, the edge test's two flags, the cycle in which a FORCE came, the integer Tide Time of an event,
the trigger, records whose entries wait, and whether records since the arm carry OVERRUN and SRC_LOST. -/
structure ScopeUnit where
  a : Nat
  first : Nat
  next : Nat
  k : Nat
  take : Nat
  cur : List ScopePt
  buf : List ScopeBuf
  pts : List ScopePt
  miss : Int
  past : Int
  rise : Bool
  fall : Bool
  force : Option Nat
  ev : Option Nat
  trig : Option ScopeTrig
  ends : List ScopeEnd
  overFlag : Bool
  lost : Bool
  deriving DecidableEq, Repr

/-! ### Calibration, fuse writing, microcode loads -/

/-- A calibration request (R356 to R358): ring and sequence number of its descriptor (none for a phase-drift request, and after a
host-side reset), its fields. -/
structure CalReq where
  desc : Option (Nat × Nat)
  kind : Nat
  cls : Nat
  idx : Nat
  param : Nat
  apply : Bool
  noise : Bool
  addr : Nat
  size : Nat
  deriving DecidableEq, Repr

/-- A calibration that runs (R358, R366): its tile, the cycle and the integer Tide Time of its start. -/
structure CalRun where
  req : CalReq
  tile : Nat
  start : Nat
  tt : Nat
  deriving DecidableEq, Repr

/-- Calibrations (R356 to R363): waiting requests oldest first, running ones, corrections waiting for a commit point in the order their
calibrations ended, and the corrections in effect. -/
structure CalSt where
  queue : List CalReq
  runs : List CalRun
  pend : List (Nat × Reg32)
  corr : SMap Reg32
  deriving DecidableEq, Repr

/-- A fuse write in progress (R373 to R375): ring and sequence number of its descriptor (none after a host-side reset), the
generation (none for the customer key slot), the word being written first, words still to write, all words to compare, and whether the marker
is what remains, whether a word has been written. -/
structure FuseWrite where
  desc : Option (Nat × Nat)
  gen : Option Nat
  todo : List (Nat × BitVec 64)
  all : List (Nat × BitVec 64)
  marker : Bool
  begun : Bool
  deriving DecidableEq, Repr

/-- A microcode load between steps 1 and 4 of R257: ring and sequence number of its descriptor, the coves, the image read; in step 3 the coves
still to be written, the first of them being written; the coves whose read-back fails. -/
structure McLoad where
  ring : Nat
  seq : Nat
  mask : Nat
  image : List Byte
  todo : Option (List Nat)
  bad : Nat
  deriving DecidableEq, Repr

/-! ### Power states, temperatures, the governor -/

/-- The power state (R382, R387 to R395): no VAUX; VAUX only, waiting for a cold start; on; on its way into Neap; Neap;
shut-down. -/
inductive PwrMode where
  | off | vaux | on | entry | neap | shut
  deriving DecidableEq, Repr

/-- The VAUX island beside its registers (R380, R387 to R391): power state, MAIN_EN, PERST# asserted, supply monitors in range, the cycle in which
Neap entry ends, a wake source that waits for the end of the entry (its WAKE_CAUSE), a rejected SMBus NEAP not yet read. -/
structure PwrSt where
  mode : PwrMode
  mainEn : Bool
  perst : Bool
  rails : BitVec 17
  entryEnd : Nat
  wake : Option Nat
  refused : Bool
  deriving DecidableEq, Repr

/-- A temperature sensor (R393): consecutive samples at or above each limit (Warning, Throttle, Shut-down), consecutive samples below
each limit less HYST (Warning, Throttle), levels held, and the cycle in which each dwell ends. -/
structure Sensor where
  hi : Nat × Nat × Nat
  lo : Nat × Nat
  held : Bool × Bool
  dwell : Option Nat × Option Nat
  deriving DecidableEq, Repr

/-- The rate watch of a tile (R394): evaluations kept as cycle and sum of the two readings, newest first; consecutive evaluations above and at or
below the limit; whether the tile has tripped; the cycle from which it may trip again. -/
structure RiseSt where
  hist : List (Nat × Int)
  hi : Nat
  lo : Nat
  tripped : Bool
  rearm : Option Nat
  deriving DecidableEq, Repr

/-- Thermal loop and governor (R392 to R397): sensors, tiles, sensors the fast loop has updated since FALLBACK was set, the
cycle of its last update, the cycle in which firmware started, the cycle from which the next change of THROTTLE_STEP counts, the change of
SHED_LEVEL that waits, the cycle since which POWER_NOW has stayed below L − 8 W, the cycle in which each port and cove was
last busy, and what is parked: ports 0-111 as composers, M0-M15 from 112, coves from 128. -/
structure ThmSt where
  sensors : SMap Sensor
  tiles : SMap RiseSt
  seen : BitVec 24
  last : Nat
  fwAt : Nat
  stepAt : Nat
  shed : Option Bool
  below : Option Nat
  busy : SMap Nat
  parked : List Nat
  deriving DecidableEq, Repr

/-- References and tiles (R407 to R410): the cycle since which ALIGNED has been set, a switch back that waits for a commit point, and ERR_TT of
failed tiles, the latest first. -/
structure FltSt where
  aligned : Nat
  revert : Bool
  errTt : List (BitVec 36)
  deriving DecidableEq, Repr

/-! ### Performance unit -/

/-- A running bandwidth monitor (R423, R424): units counted in the present window, bytes short of a unit, whether the window
is partial, the cycle its windows run from while unanchored, and the cycle of the last window end. -/
structure BwMon where
  count : Nat
  rest : Nat
  short : Bool
  from_ : Nat
  ended : Option Nat
  deriving DecidableEq, Repr

/-! ### The whole state -/

/-- Everything of the machine but the clocks, the memories and the queue of commands: setup registers by address (an
unlisted register holds its reset value), staged _LO halves (R11), what happened in this cycle, and the blocks. `held` holds the first cycle in
which an input is free again, port q at q and M(n) at 112 + n (R195), `turns` the engine that last won at the collector of a cove, plus one
(R309); `gather` holds flags on
their way to S_SHOTF (R196), `badDie` and `badLines` the locations of reported uncorrectable errors (R456), `mcHits` the cycles
of the first detections on each interface (R323), `scrubAt` the line of its pass that the patrol scrub has come to (R306). `out` is
what left the device in this cycle and `free` counts the open values drawn: the model's own fields. -/
structure Body where
  regs : SMap Reg32
  staged : SMap (Option Reg32)
  log : CycleLog
  grid : Grid
  incAt : Option Nat
  incOld : Option Reg32
  ring : RingSt
  evt : EvtSt
  host : HostSt
  comps : SMap Composer
  flux : SMap FluxSt
  bias : SMap BiasSt
  rcv : SMap Receiver
  fab : Fabric
  engs : SMap Engine
  coves : SMap CoveSt
  ucode : SMap (Option (BitVec 24))
  udisp : SMap (Option (BitVec 16))
  outs : List EngOut
  fifos : SMap Fifo
  packAt : SMap Nat
  issue : List Issue
  held : SMap Nat
  turns : SMap Nat
  gather : List (Nat × Nat × Nat)
  badDie : List Nat
  badLines : SMap (List Nat)
  mcHits : SMap (List Nat)
  scrubAt : Nat
  scope : SMap ScopeUnit
  cal : CalSt
  fuseWr : Option FuseWrite
  mcLoads : List McLoad
  pwr : PwrSt
  thm : ThmSt
  flt : FltSt
  pcnt : SMap Nat
  bw : SMap BwMon
  out : List OutItem
  free : Nat
  deriving DecidableEq, Repr

/-- The machine: waiting commands first in first out, the clocks, the memories, everything else. -/
structure State where
  pending : List Instr
  clock : Clock
  mem : Mem
  body : Body
  deriving DecidableEq, Repr

/-! ### Reset values -/

def CycleLog.empty : CycleLog := ⟨.empty, .empty, [], [], [], false, none, .empty, false, [], [], [], 0, none, [], [], [], []⟩
def Grid.reset : Grid := ⟨.stopped, 0, 0, false, 0, false, 0, none, true, false, 0, 0, none, none, none, 0, .empty, 0⟩
def RingSt.reset : RingSt :=
  { txA := [], txB := [], freeA := 0, freeB := 0, seq := 0, seen := [], reqA := none, reqB := none, rttUp := [], rttDn := [],
    newUp := 0, newDn := 0, useUp := 0, useDn := 0, confA := none, confB := none, offs := [], lastLh := 0, kMissed := 0,
    lastAnn := none, status := .empty, nbUp := none, nbDn := none, nonce := 0, lhKnown := false,
    lastStatus := 0, useMirror := false, unwrapStaged := false,
    lockSinceA := 0, lockSinceB := 0, brokenA := false, brokenB := false, loopDepA := none, loopDepB := none,
    loopA := none, loopB := none, roleStaged := none, exportAct := .empty, decOut := [], evOut := [], lastAnnSent := 0,
    lastTimeSent := 0, lastReqA := 0, lastReqB := 0, lastLoop := 0, timeHeld := [], servoMark := none, servoAt := 0 }
def EvtSt.reset : EvtSt := ⟨[], .empty, .empty, 0, false, 0⟩
def HostRing.reset : HostRing := ⟨0, 0, [], [], 0, none, []⟩
def HostSt.reset : HostSt :=
  { rings := .empty, order := 0, rr := 0, nextTick := none, pollReads := none, nudge := false,
    landings := [], heldWrites := [], commitMark := 0 }
def CoreSt.reset : CoreSt := ⟨none, false⟩
def Composer.reset : Composer := ⟨[], [], .empty, .reset, 0, false, []⟩
def FluxSt.reset : FluxSt :=
  { lprev := 0, lev0 := 0, lev1 := 0, at0 := false, at1 := false, ramp := none, wave := 0, vin := 0, ins := [0, 0, 0, 0],
    iir := [0, 0, 0, 0], hist := [], gain := [0, 0, 0, 0], beta := [0, 0, 0, 0], taps := [65536], codes := [], line := [] }
def BiasSt.reset : BiasSt :=
  { mode := .safe, stCode := none, stRange := none, stEn := none, apCode := none, apRange := none, apEn := none,
    zero := false, frame := 0, begun := none, modeFrame := 0, holdUntil := none, rangeFrom := none, newRange := 0, newCode := 0,
    overs := 0, high := 0 }
def Receiver.reset : Receiver := ⟨[], [], [], .empty, .reset, .empty, [], .empty⟩
def Slot.reset : Slot := ⟨0, false, 0, 0⟩
def ViewSlot.reset : ViewSlot := ⟨.reset, 0⟩
def DTable.reset : DTable := ⟨false, none, false, none, none, 0, 0⟩
def Fabric.reset : Fabric := ⟨.empty, .empty, .empty, [], [], [], [], 0, .empty, .empty, []⟩
def AddrReg.reset : AddrReg := ⟨0, 0, 0, 0, 0⟩
def Engine.reset : Engine :=
  { g := .empty, a := .empty, acc := .empty, pc := 0, flags := 0, bexp := 35, wait := none, resume := none, stop := false,
    t0 := 0, t1 := 0, fbuf := [], stall := none, fresh := false, twin := none, cont := none }
def CoveSt.reset : CoveSt := ⟨[], none, false, false⟩
def Fifo.reset : Fifo := ⟨none, [], [], none, false, false, 0⟩
def ScopeUnit.reset : ScopeUnit :=
  { a := 0, first := 0, next := 0, k := 0, take := 0, cur := [], buf := [], pts := [], miss := -1, past := -1, rise := false, fall := false,
    force := none, ev := none, trig := none, ends := [], overFlag := false, lost := false }
def CalSt.reset : CalSt := ⟨[], [], [], .empty⟩
def PwrSt.reset : PwrSt := ⟨.on, true, false, 0, 0, none, false⟩
def Sensor.reset : Sensor := ⟨(0, 0, 0), (0, 0), (false, false), (none, none)⟩
def RiseSt.reset : RiseSt := ⟨[], 0, 0, false, none⟩
def ThmSt.reset : ThmSt := ⟨.empty, .empty, 0, 0, 0, 0, none, none, .empty, []⟩
def FltSt.reset : FltSt := ⟨0, false, []⟩
def Mem.reset : Mem := ⟨.empty, .empty, .empty, .empty⟩
def Clock.reset : Clock := ⟨0, 0, true, 0⟩

/-- Everything but clocks, memories and queue right after a reset that stops the core clock: every register at the reset
value of its register map. -/
def Body.reset : Body :=
  { regs := .empty, staged := .empty, log := .empty, grid := .reset, incAt := none, incOld := none, ring := .reset,
    evt := .reset, host := .reset, comps := .empty, flux := .empty, bias := .empty, rcv := .empty, fab := .reset,
    engs := .empty, coves := .empty, ucode := .empty, udisp := .empty, outs := [], fifos := .empty, packAt := .empty,
    issue := [], held := .empty, turns := .empty, gather := [], badDie := [], badLines := .empty, mcHits := .empty, scrubAt := 0,
    scope := .empty, cal := .reset, fuseWr := none, mcLoads := [], pwr := .reset, thm := .reset, flt := .reset, pcnt := .empty, bw := .empty, out := [], free := 0 }

/-- The machine right after reset: the core clock in its first cycle (R24, R25), every register at its reset value, no
command waiting. -/
def State.reset : State := ⟨[], .reset, .reset, .reset⟩

end Sys2Proof.Machine
end

