-- ==== Sys2Proof/Machine/Ops.lean ====
section
/-! DEFINITION. The named operations every block uses: reading and writing setup registers, sticky flags and counters,
publishing an event, sending a fault record, counting a performance event, drawing an open value. -/

namespace Sys2Proof.Machine

/-! ### Time -/

/-- Integer Tide Time (R25). -/
def Clock.now (c : Clock) : Nat := c.tt.toNat / 2 ^ 32
/-- The Phase Count (R24). -/
def Clock.ph (c : Clock) : Nat := c.phase.toNat
/-- The low 36 bits of the integer Tide Time: a short tide (R4). -/
def Clock.short (c : Clock) : Nat := c.now % 2 ^ 36

/-- Lift a function of clocks and body to the whole state. -/
def onBody (f : Clock → Body → Body) (s : State) : State := { s with body := f s.clock s.body }

/-- A command whose whole effect is on the body. -/
def nextBody (f : Clock → Body → Body) (s : State) : Host.Outcome State Fault Refusal := .next (onBody f s)

/-! ### Registers -/

/-- Present value of a register. -/
def Body.rget (b : Body) (k : Nat) : Reg32 := b.regs.get (resetVal k) k
/-- Set a register. -/
def Body.rset (b : Body) (k : Nat) (v : Reg32) : Body := { b with regs := b.regs.put (resetVal k) k v }
/-- One bit of a register. -/
def Body.rbit (b : Body) (k i : Nat) : Bool := bit (b.rget k) i
/-- A field of a register. -/
def Body.rfld (b : Body) (k lo len : Nat) : Nat := fld (b.rget k) lo len
/-- The value of a register as a number. -/
def Body.rnat (b : Body) (k : Nat) : Nat := (b.rget k).toNat
/-- Set a field of a register. -/
def Body.rsetFld (b : Body) (k lo len x : Nat) : Body := b.rset k (setFld (b.rget k) lo len x)
/-- Set one bit of a register. -/
def Body.rsetBit (b : Body) (k i : Nat) (on : Bool) : Body := b.rset k (setBit (b.rget k) i on)
/-- A 64-bit value held in a _LO and a _HI register. -/
def Body.rpair (b : Body) (lo hi : Nat) : Nat := b.rnat lo + 2 ^ 32 * b.rnat hi
/-- Set a _LO and _HI pair. -/
def Body.rsetPair (b : Body) (lo hi x : Nat) : Body := (b.rset lo (r32 x)).rset hi (r32 (x / 2 ^ 32))

/-- Set a sticky W1C bit; a W1C clear in this cycle leaves it set (R10). -/
def Body.stick (b : Body) (k i : Nat) : Body :=
  let b := b.rsetBit k i true
  { b with log := { b.log with sets := b.log.sets.upd 0 k (fun m => setBit m i true) } }

/-- Count `n` in a saturating counter; a clear in this cycle leaves the count of this cycle (R107). -/
def Body.count (b : Body) (k n : Nat) : Body :=
  let b := b.rset k (satInc (b.rget k) n)
  { b with log := { b.log with incs := b.log.incs.upd 0 k (· + n) } }

/-- Clear a counter, keeping what this cycle has counted (R107, R178, R338). -/
def Body.clearCount (b : Body) (k : Nat) : Body := b.rset k (r32 (b.log.incs.get 0 k))

/-- Write-one-to-clear of a mask: a bit set in this cycle stays set (R10). -/
def Body.w1c (b : Body) (k : Nat) (mask v : Reg32) : Body :=
  b.rset k (b.rget k &&& ~~~(mask &&& v &&& ~~~(b.log.sets.get 0 k)))

/-- Set CFG_REJECT, bit 8 of the block's status register (R455). -/
def Body.reject (b : Body) (status : Nat) : Body :=
  let b := b.stick status 8
  { b with log := { b.log with refused := b.log.refused + 1 } }

/-- Stage a _LO half (R11). -/
def Body.stage (b : Body) (lo : Nat) (v : Reg32) : Body := { b with staged := b.staged.put none lo (some v) }
/-- Discard a staged _LO half (R11). -/
def Body.unstage (b : Body) (lo : Nat) : Body := { b with staged := b.staged.put none lo none }
/-- The low half a write of _HI commits: the staged one, else the committed one (R11). -/
def Body.lowFor (b : Body) (lo : Nat) : Reg32 := ((b.staged.get none lo)).getD (b.rget lo)
/-- Commit a pair by a write of its _HI half (R11). -/
def Body.commitPair (b : Body) (lo hi : Nat) (v : Reg32) : Body := ((b.rset lo (b.lowFor lo)).rset hi v).unstage lo

/-! ### Open values, counts, what leaves the device -/

/-- The open value the next use draws. -/
def Body.openValue (b : Body) : BitVec 64 := Config.freeValue b.free
/-- Move past the open value just used. -/
def Body.draw (b : Body) : Body := { b with free := b.free + 1 }

/-- Record occurrences of a performance event in this cycle (R417). -/
def Body.perf (b : Body) (ev idx n : Nat) : Body := { b with log := { b.log with perf := ⟨ev, idx, n⟩ :: b.log.perf } }

/-- Something leaves the device. -/
def Body.emitOut (b : Body) (o : OutItem) : Body := { b with out := b.out ++ [o] }

/-! ### Identity -/

def Body.anchored (b : Body) : Bool := b.rbit TIDE_STATUS 0
def Body.gridRun (b : Body) : Bool := b.rbit TIDE_STATUS 1
def Body.tideBreak (b : Body) : Bool := b.rbit TIDE_STATUS 3
def Body.epoch (b : Body) : Nat := b.rfld SHOT_EPOCH 0 16
def Body.devId (b : Body) : Nat := b.rfld RING_CTL 0 4
def Body.ringEn (b : Body) : Bool := b.rbit RING_CTL 6
/-- A device with its ring closed acts as its own Lighthouse (R41). -/
def Body.isLighthouse (b : Body) : Bool := ! b.ringEn || b.rbit RING_STATUS 4

/-- The grid's settings come from the mirrors: at a member, and at a Lighthouse that took over from another (R67, R70). -/
def Body.mirrored (b : Body) : Bool := ! b.isLighthouse || b.ring.useMirror

/-- Length of the shot window in force (R35, R67). -/
def Body.shotLen (b : Body) : Nat := if b.mirrored then b.rnat GRID_MIRROR_SHOTLEN else b.rnat SHOT_LEN
/-- The grid period in force (R35, R67). -/
def Body.gridPeriod (b : Body) : Nat := if b.mirrored then b.rnat GRID_MIRROR_PERIOD else b.rnat GRID_PERIOD

/-- Tide Time added in `n` core cycles at the active increment, in units of 2⁻³² ns (R25). -/
def Body.tideSpan (b : Body) (n : Nat) : Nat := n * (b.rnat TIDE_INC_ACT * 2 ^ 8)

/-- The integer Tide Time reaches `v` within `n` core cycles at the active increment: the schedules of R40 and R41 count core cycles. -/
def Body.within (b : Body) (c : Clock) (v n : Nat) : Bool := decide (v * 2 ^ 32 ≤ c.tt.toNat + b.tideSpan n)

/-- The least integer Tide Time that lies at least `n` core cycles ahead, `n` positive. -/
def Body.aheadBy (b : Body) (c : Clock) (n : Nat) : Nat := (c.tt.toNat + b.tideSpan (n - 1)) / 2 ^ 32 + 1

/-- Tide Time at sixteenth `sub` of the cycle, in 1/16 ns (R58). -/
def Body.tideAt (b : Body) (c : Clock) (sub : Nat) : Nat := (16 * c.tt.toNat + sub * b.rnat TIDE_INC_ACT * 2 ^ 8) / 2 ^ 32

/-- The announced boundary starts a shot whose window holds `v` (R37, R41, R73). -/
def Body.nextShot (b : Body) (v : Int) : Bool :=
  let g := b.grid
  g.ann && decide (g.verdict = some false) && ! b.tideBreak && decide (g.next ≤ v) && decide (v < g.next + b.shotLen)

/-- Does integer time `v` lie in a Slack window (R37, R39)? Judged by `v` alone: a time just before or after the present interval belongs to
the interval beside it. Never while the grid is stopped (R98). -/
def Body.inSlack (b : Body) (v : Int) : Bool :=
  let g := b.grid
  b.gridRun && ! b.nextShot v &&
  match g.win with
  | .start => decide (g.bound ≤ v)
  | .shot => decide (v < g.bound) || decide (g.shotFin ≤ v)
  | .slack => decide (v < g.bound) || decide (g.shotFin ≤ v)
  | _ => true

/-! ### Fault records (R414, R415) -/

/-- State of host ring `r`. -/
def Body.hring (b : Body) (r : Nat) : HostRing := b.host.rings.get .reset r
def Body.setHring (b : Body) (r : Nat) (h : HostRing) : Body :=
  { b with host := { b.host with rings := b.host.rings.put .reset r h } }

/-- Entries of a completion ring (R273). -/
def Body.cqSize (b : Body) (r : Nat) : Nat := 2 ^ b.rfld (RING_CFG r) 8 5

/-- Records written and waiting, not yet consumed (R294). -/
def Body.cqUsed (b : Body) (r : Nat) : Nat :=
  (b.rget (RING_CQ_PROD r) - (b.hring r).cons).toNat + (b.hring r).recs.length

/-- The ring accepts a fault record: enabled, not stopped, not full (R296). -/
def Body.faultRingOk (b : Body) : Bool :=
  let r := b.rfld HST_CTL 8 8
  b.rbit HST_CTL 16 && b.rbit (HRING_CTL r) 0 && ! b.rbit (HRING_STATUS r) 3 && decide (b.cqUsed r < b.cqSize r)

/-- Put a fault record behind the others, those of one cycle in ascending code order (R414). -/
def insertFault (x : Rec) : List Rec → List Rec
  | [] => [x]
  | y :: t =>
    if y.kind = 0x81 ∧ y.tide = x.tide ∧ x.d0.toNat % 256 < y.d0.toNat % 256 then x :: y :: t
    else y :: insertFault x t

/-- Send one FAULT record with CODE and the fields of DETAIL0 from bit 8 and DETAIL1 (R415). With FAULT_EN clear none is sent;
a record that finds its ring full, stopped or disabled is lost and counted (R296). -/
def Body.fault (b : Body) (c : Clock) (code d0 : Nat) (d1 : Nat) : Body :=
  if b.faultRingOk then
    let r := b.rfld HST_CTL 8 8
    let x : Rec := ⟨0x81, 0, 0, 0, r32 (code + d0), BitVec.ofNat 64 d1, BitVec.ofNat 64 c.now, false, none, none⟩
    let h := b.hring r
    b.setHring r { h with recs := insertFault x h.recs }
  else if b.rbit HST_CTL 16 then b.count FAULT_DROP 1
  else b

/-- Set a W1C bit of RING_STATUS; when it sets, send a RING_EVENT record (R85, R415). -/
def Body.ringFlag (b : Body) (c : Clock) (i : Nat) : Body :=
  let was := b.rbit RING_STATUS i
  let b := b.stick RING_STATUS i
  if was then b else b.fault c 0x0A (i * 2 ^ 8) (b.rnat RING_STATUS)

/-- Refuse a write to the RING block. -/
def Body.ringReject (b : Body) (c : Clock) : Body :=
  let b := b.ringFlag c 8
  { b with log := { b.log with refused := b.log.refused + 1 } }

/-! ### Publishing an event (R325 to R328) -/

/-- A publication carrying the channel's own bit is suppressed (R328). -/
def Body.suppress (b : Body) (ch : Nat) : Body :=
  let top := match b.log.loopCh with
    | some x => max x ch
    | none => ch
  let b := (b.stick EV_STATUS 9).count LOOP_COUNT 1
  let b := b.rsetFld EV_STATUS 10 6 top
  { b with log := { b.log with loopCh := some top } }

/-- OR a publication into the event of its channel and cycle (R327). -/
def mergeFlight (e : RouterEv) : List RouterEv → List RouterEv
  | [] => [e]
  | x :: t =>
    if x.ch = e.ch ∧ x.due = e.due then { x with lin := x.lin ||| e.lin, imported := x.imported && e.imported } :: t
    else x :: mergeFlight e t

/-- Publish onto channel `ch`, entering the router `delay` cycles from now; delivered 2 cc after it enters (R325). -/
def Body.publish (b : Body) (c : Clock) (ch : Nat) (lin : BitVec 64) (delay : Nat) (imported : Bool) : Body :=
  if bit lin ch then b.suppress ch
  else { b with evt := { b.evt with flight := mergeFlight ⟨ch, lin, c.cyc + delay + 2, imported⟩ b.evt.flight } }

/-! ### Tide break and the staged increment -/

/-- Stage an increment (R29), keeping the value a commit point of this same cycle would still apply. -/
def Body.stageInc (b : Body) (c : Clock) (v : Reg32) : Body :=
  let old := if b.rbit TIDE_STATUS 4 then (if b.incAt = some c.cyc then b.incOld else some (b.rget TIDE_INC)) else none
  { ((b.rset TIDE_INC v).rsetBit TIDE_STATUS 4 true) with incAt := some c.cyc, incOld := old }

/-- Start a Tide break (R73): TIDE_BREAK set and the nominal increment staged. -/
def Body.startBreak (b : Body) (c : Clock) : Body :=
  (b.rsetBit TIDE_STATUS 3 true).stageInc c 0x01000000

/-! ### Ports -/

/-- Base of the registers of output port `q`: 0-63 D, 64-79 P, 80-111 F. -/
def portBase (q : Nat) : Nat := if q < 80 then PORT_CTL q else FLX_CTL (q - 80)
/-- The cove that owns output port `q` (R14). -/
def coveOfPort (q : Nat) : Nat := if q < 64 then q / 4 else if q < 80 then q - 64 else (q - 80) / 2
/-- The converter tile that carries output port `q` (R15). -/
def tileOfPort (q : Nat) : Nat := coveOfPort q / 4

def Body.comp (b : Body) (q : Nat) : Composer := b.comps.get .reset q
def Body.setComp (b : Body) (q : Nat) (x : Composer) : Body := { b with comps := b.comps.put .reset q x }
def Body.flx (b : Body) (f : Nat) : FluxSt := b.flux.get .reset f
def Body.setFlx (b : Body) (f : Nat) (x : FluxSt) : Body := { b with flux := b.flux.put .reset f x }
def Body.recv (b : Body) (n : Nat) : Receiver := b.rcv.get .reset n
def Body.setRecv (b : Body) (n : Nat) (x : Receiver) : Body := { b with rcv := b.rcv.put .reset n x }
def Body.biasOf (b : Body) (n : Nat) : BiasSt := b.bias.get .reset n
def Body.setBias (b : Body) (n : Nat) (x : BiasSt) : Body := { b with bias := b.bias.put .reset n x }

/-- A flag on its way to bit `i` of S_SHOTF of cove `n`, where it arrives 2 cc later (R196). -/
def Body.gatherFlag (b : Body) (c : Clock) (n i : Nat) : Body := { b with gather := b.gather ++ [(n, i, c.cyc + 2)] }

/-- Record composer flag `i` of port `q`: SHOT_FLAGS under the current epoch and the sticky copy (R105); the cove gathers
it (R196). -/
def Body.portFlag (b : Body) (c : Clock) (q i : Nat) : Body :=
  let k := portBase q
  let b := (b.rsetBit (k + 0x1C) i true).rsetFld (k + 0x1C) 16 16 b.epoch
  (b.stick (k + 4) (16 + i)).gatherFlag c (coveOfPort q) i

/-- Record receiver flag `i` of input `n` (R156); the cove gathers it (R196). -/
def Body.rcvFlag (b : Body) (c : Clock) (n i : Nat) : Body :=
  let b := (b.rsetBit (RCV_SHOT_FLAGS n) i true).rsetFld (RCV_SHOT_FLAGS n) 16 16 b.epoch
  (b.stick (RCV_STATUS n) (16 + i)).gatherFlag c n (9 + i)

/-- Record fabric flag `i` (R177). -/
def Body.decFlag (b : Body) (i : Nat) : Body :=
  let b := (b.rsetBit DEC_SHOT_FLAGS i true).rsetFld DEC_SHOT_FLAGS 16 16 b.epoch
  b.stick DEC_STATUS (9 + i)

/-- The SHOT_FLAGS registers of ports, inputs and the fabric. -/
def flagRegs : List Nat :=
  (List.range 112).map (fun q => portBase q + 0x1C) ++ (List.range 16).map RCV_SHOT_FLAGS ++ [DEC_SHOT_FLAGS]

/-- Shot flags clear where a new epoch begins, at a shot start, an anchor instant or an adoption, with those on their way to S_SHOTF; the sticky cove flags still come (R105, R156, R177, R196). -/
def Body.clearFlags (b : Body) (epoch : Nat) : Body :=
  let b := flagRegs.foldl (fun b k => b.rset k (r32 (epoch * 2 ^ 16))) b
  let b := (List.range 16).foldl (fun b n => (b.rset (COVE_SHOT_FLAGS n) 0).rset (SHOT_FLAGS_EPOCH n) (r32 epoch)) b
  { b with gather := b.gather.map (fun e => (e.1, (if e.2.1 < 32 then e.2.1 + 32 else e.2.1), e.2.2)),
           comps := b.comps.mapVals .reset (fun x => { x with clipped := false }) }

/-- A pulse's samples enter the interpolator or the flux chain in this cycle (R92, R97). -/
def Emission.on (p : Emission) (c : Clock) : Bool :=
  decide (p.start ≤ c.cyc) && decide (c.cyc < p.start + p.len + (if p.samp = 0 then 0 else 1))

/-- A pulse is being emitted until its last sample has left the pin (R97). -/
def Emission.live (p : Emission) (c : Clock) : Bool := decide (c.cyc ≤ p.last)

/-- Some pulse is being emitted on port `q`. -/
def Body.portEmits (b : Body) (c : Clock) (q : Nat) : Bool := (b.comp q).run.any (·.live c)

/-- A window is open at the pin. -/
def Window.openNow (w : Window) (c : Clock) : Bool := w.isOpen && decide (c.cyc ≤ w.fin)

/-- No pulse is being emitted and no integration window is open anywhere (R40). -/
def Body.quiet (b : Body) (c : Clock) : Bool :=
  ! (b.comps.entries.any (fun e => e.2.run.any (·.live c))) &&
  ! (b.rcv.entries.any (fun e => e.2.wins.any (·.openNow c)))

/-- An output port is idle for SL purposes: queue empty, nothing emitted (R107, R121). -/
def Body.portIdle (b : Body) (c : Clock) (q : Nat) : Bool := (b.comp q).queue.isEmpty && ! b.portEmits c q

/-- An input is idle for SL purposes (R157). -/
def Body.rcvIdle (b : Body) (c : Clock) (n : Nat) : Bool :=
  (b.recv n).queue.isEmpty && ! ((b.recv n).wins.any (fun w => w.entry || w.openNow c))

/-- Carrier, tone or demodulator frequency held in a _LO and _HI register, in units of 2⁻⁴⁸ turns per ns. -/
def Body.freq (b : Body) (lo hi : Nat) : Nat := b.rnat lo + 2 ^ 32 * b.rfld hi 0 20

end Sys2Proof.Machine
end

