-- ==== Sys2Proof/Machine/Cores.lean ====
section
/-! DEFINITION. The converter cores of D, P, F and M ports: starting, stopping, the safe state (R104, R120, R134). -/

namespace Sys2Proof

/-- Control register of a port with a core. -/
def PortRef.ctl : PortRef → Nat
  | .dp p => Machine.PORT_CTL p
  | .fx f => Machine.FLX_CTL f
  | .rx n => Machine.RCV_CTL n

/-- The ports that exist: D0-D63 and P0-P15, F0-F31, M0-M15 (R14). -/
def PortRef.ok : PortRef → Bool
  | .dp p => decide (p < 80)
  | .fx f => decide (f < 32)
  | .rx n => decide (n < 16)

/-- Status register of a port with a core. -/
def PortRef.status (p : PortRef) : Nat := p.ctl + 4

/-- Converter tile of a port with a core (R15). -/
def PortRef.tile : PortRef → Nat
  | .dp p => Machine.tileOfPort p
  | .fx f => Machine.tileOfPort (80 + f)
  | .rx n => n / 4

/-- Class of a port with a core as R287 numbers it: 0 D, 1 P, 2 M, 3 F. -/
def PortRef.cls : PortRef → Nat
  | .dp p => if p < 64 then 0 else 1
  | .fx _ => 3
  | .rx _ => 2

/-- Number of a port among those that can be parked: outputs as composers, inputs from 112 (R397). -/
def PortRef.parkKey : PortRef → Nat
  | .dp p => p
  | .fx f => 80 + f
  | .rx n => 112 + n

/-- Index of a port within its class. -/
def PortRef.idx : PortRef → Nat
  | .dp p => if p < 64 then p else p - 64
  | .fx f => f
  | .rx n => n

end Sys2Proof

namespace Sys2Proof.Machine

/-- Firmware is ready (R385). -/
def Body.fwReady (b : Body) : Bool := b.rfld BOOT_STATUS 0 8 == 5

/-- Converter tile of port `i` of a class: 0 D, 1 P, 2 M, 3 F, 4 B, 5 the tile itself (R15, R287). -/
def tileOfClass (cls i : Nat) : Nat :=
  match cls with
  | 0 => i / 16
  | 3 => i / 8
  | 5 => i
  | _ => i / 4

/-- The affected ports of a calibration request (R358). -/
def CalReq.names (q : CalReq) (cls i : Nat) : Bool :=
  if q.cls = 5 then tileOfClass cls i == q.idx else (q.cls == cls && q.idx == i) || (q.noise && cls == 1 && q.idx == i)

/-- A calibration runs on a port; FLUX_COEF affects nothing (R360). -/
def Body.calOn (b : Body) (cls i : Nat) : Bool := b.cal.runs.any (fun r => r.req.kind != 0x21 && r.req.names cls i)

/-- The converter core of a port. -/
def Body.core (b : Body) : PortRef → CoreSt
  | .dp p => (b.comp p).core
  | .fx f => (b.comp (80 + f)).core
  | .rx n => (b.recv n).core

/-- Replace the converter core of a port. -/
def Body.setCore (b : Body) (p : PortRef) (x : CoreSt) : Body :=
  match p with
  | .dp q => b.setComp q { b.comp q with core := x }
  | .fx f => b.setComp (80 + f) { b.comp (80 + f) with core := x }
  | .rx n => b.setRecv n { b.recv n with core := x }

/-- Writes that set CORE_EN are rejected while the tile has failed or a SAFE legacy channel holds it (R336, R410). -/
def Body.tileHeld (b : Body) (tile : Nat) : Bool := b.rbit FLT_STATUS (16 + tile) || bit b.evt.safeTiles tile

/-- The enable of a port is held off: by either for an output, by a tile failure for an input (R336, R410). -/
def Body.portHeld (b : Body) (p : PortRef) : Bool :=
  match p with
  | .rx n => b.rbit FLT_STATUS (16 + n / 4)
  | _ => b.tileHeld p.tile

/-- A write of CORE_EN is refused: one that sets it while the port is held off or firmware is not ready, one that changes it while a
calibration runs on the port (R336, R360, R385, R410). -/
def Body.coreRefused (b : Body) (p : PortRef) (on : Bool) : Bool :=
  (on && (b.portHeld p || ! b.fwReady)) || (on != b.rbit p.ctl 0 && b.calOn p.cls p.idx)

/-- Stop whatever a port emits. -/
def Body.silence (b : Body) (q : Nat) : Body := b.setComp q { b.comp q with run := [], base := 0, line := [] }

/-- The Breakwater safe state of a port with a core: converter off, CORE_ON and READY clear (R104, R120, R134). -/
def Body.toSafe (b : Body) (p : PortRef) : Body :=
  let b := (b.setCore p .reset).rsetFld p.status 0 2 0
  match p with
  | .dp q => b.silence q
  | .fx f => b.silence (80 + f)
  | .rx _ => b

/-- Start a core: a stop in progress is cancelled, a core already started keeps its start (R104), and a parked one stays
parked (R397). A flux chain starts with every IIR state at the stage input (R120). -/
def Body.coreStart (b : Body) (c : Clock) (p : PortRef) : Body :=
  let x := b.core p
  let was := b.rbit p.ctl 0
  let b := b.rsetBit p.ctl 0 true
  if was && b.thm.parked.contains p.parkKey then b
  else
  let b := { b with thm := { b.thm with parked := b.thm.parked.filter (· ≠ p.parkKey) } }
  match x.start with
  | some _ => b.setCore p { x with stopping := false }
  | none =>
    let b := (b.setCore p ⟨some c.cyc, false⟩).rsetBit p.status 0 true
    match p with
    | .fx f =>
      let l := sval 18 (b.rfld (FLX_LEVEL f) 0 18)
      b.setFlx f { b.flx f with iir := List.replicate 4 (l * 2 ^ 27), vin := l, ins := List.replicate 4 (l * 2 ^ 4) }
    | _ => b

/-- Stop a core: at the next Slack commit point, at once while the grid is stopped (R104). -/
def Body.coreStop (b : Body) (p : PortRef) : Body :=
  let x := b.core p
  let b := b.rsetBit p.ctl 0 false
  match x.start with
  | none => b
  | some _ => if b.gridRun then b.setCore p { x with stopping := true } else b.toSafe p

/-- A write of CORE_EN as the alarms make it: judged and applied as if it had been written (R44, R104). -/
def Body.coreWrite (b : Body) (c : Clock) (p : PortRef) (on : Bool) : Body :=
  if b.coreRefused p on then b.reject p.status else if on then b.coreStart c p else b.coreStop p

/-- 20,000 cc after its start a core is READY (R104); a D, P or F port not while a calibration runs on it (R360). -/
def Body.coreReady (b : Body) (c : Clock) (p : PortRef) : Body :=
  match (b.core p).start with
  | some t => if t + 20000 ≤ c.cyc ∧ (p.cls = 2 ∨ ! b.calOn p.cls p.idx) then b.rsetBit p.status 1 true else b
  | none => b

/-- The ports whose cores wait to stop. -/
def Body.stoppingPorts (b : Body) : List PortRef :=
  ((List.range 112).filter (fun q => (b.comp q).core.stopping)).map (fun q => if q < 80 then .dp q else .fx (q - 80)) ++
  ((List.range 16).filter (fun n => (b.recv n).core.stopping)).map .rx

/-- At a Slack commit point every stopping core goes to its safe state (R104). -/
def Body.coresCommit (b : Body) : Body := b.stoppingPorts.foldl (fun b p => b.toSafe p) b

end Sys2Proof.Machine
end

