-- ==== Sys2Proof/Machine/Bias.lean ====
section
/-! DEFINITION. Bias outputs: staged writes, PWM frames, the deglitcher, range changes, sensing and output states
(R122 to R131). -/

namespace Sys2Proof.Machine

/-- Offset binary of a 24-bit code (R123). -/
def biasU (code : Nat) : Nat := (code + 2 ^ 23) % 2 ^ 24
/-- The 16-bit PWM count of a code (R123). -/
def biasHi (code : Nat) : Nat := biasU code / 256
/-- Bit reversal of an 8-bit number (R123). -/
def bitrev8 (x : Nat) : Nat :=
  ((List.range 8).map (fun i => if x.testBit i then 2 ^ (7 - i) else 0)).sum
/-- High cycles of frame `f` (R123). -/
def biasHigh (code f : Nat) : Nat := biasHi code + (if bitrev8 (f % 256) < biasU code % 256 then 1 else 0)

/-- The code in effect. -/
def Body.biasCode (b : Body) (n : Nat) : Nat := b.rfld (BIAS_CODE_ACT n) 0 24

/-- A new code in effect; a major change with the deglitcher enabled holds the output from this frame (R127). -/
def Body.biasEffect (b : Body) (c : Clock) (n code : Nat) : Body :=
  let old := b.biasCode n
  let major := decide (b.rfld (BIAS_DG n) 0 8 < ((biasHi code : Int) - biasHi old).natAbs)
  let b := b.rset (BIAS_CODE_ACT n) (r32 code)
  let x := b.biasOf n
  let x := { x with high := biasHigh code (c.ph / 65536) }
  if b.rbit (BIAS_DG n) 16 && major then
    (b.setBias n { x with holdUntil := some (x.frame + b.rfld (BIAS_DG n) 8 8) }).rsetBit (BIAS_STATUS n) 2 true
  else b.setBias n x

/-- The code a bias output takes: the last one applied while it is On, outside a range change and unlocked; else zero
(R128 to R130). -/
def Body.biasWanted (b : Body) (n : Nat) : Nat :=
  let x := b.biasOf n
  if decide (x.mode = .on) && x.rangeFrom.isNone && ! b.rbit (BIAS_STATUS n) 11 then x.newCode else 0

/-- Bring the code in effect to the one wanted. -/
def Body.biasSettle (b : Body) (c : Clock) (n : Nat) : Body :=
  let w := b.biasWanted n
  if w = b.biasCode n then b.setBias n { b.biasOf n with high := biasHigh w (c.ph / 65536) } else b.biasEffect c n w

/-- The Safe state (R130): output off, code zero; a range change in progress, or applied and not begun, switches at once (R128). -/
def Body.biasSafe (b : Body) (n : Nat) : Body :=
  let x := b.biasOf n
  let b := match x.apRange with
    | some r => b.rsetFld (BIAS_STATUS n) 6 2 r
    | none => if x.rangeFrom.isSome then b.rsetFld (BIAS_STATUS n) 6 2 x.newRange else b
  let b := (b.rset (BIAS_CODE_ACT n) 0).rsetFld (BIAS_STATUS n) 0 3 0
  b.setBias n { x with mode := .safe, holdUntil := none, rangeFrom := none, apRange := none, high := 0 }

/-- EN cleared and the output Safe at once (R336, R410). -/
def Body.biasForce (b : Body) (n : Nat) : Body :=
  let b := (b.rsetBit (BIAS_CTL n) 0 false).biasSafe n
  b.setBias n { b.biasOf n with stEn := none, apEn := none }

/-- The staged values apply (R125); in the Safe state a range switches at once (R128). -/
def Body.biasApply (b : Body) (n : Nat) : Body :=
  let x := b.biasOf n
  let x := { x with
    apCode := x.stCode.orElse (fun _ => x.apCode), apRange := x.stRange.orElse (fun _ => x.apRange),
    apEn := x.stEn.orElse (fun _ => x.apEn), stCode := none, stRange := none, stEn := none }
  let b := b.rsetBit (BIAS_STATUS n) 5 false
  match x.apRange with
  | some r =>
    if x.mode = .safe then (b.rsetFld (BIAS_STATUS n) 6 2 r).setBias n { x with apRange := none }
    else b.setBias n x
  | none => b.setBias n x

/-- A staged write waits for the Slack commit point and for the end of a calibration, or applies at once while the grid is stopped (R125,
R360). -/
def Body.biasStage (b : Body) (n : Nat) (x : BiasSt) : Body :=
  let b := b.setBias n x
  if b.gridRun || b.calOn 4 n then b.rsetBit (BIAS_STATUS n) 5 true else b.biasApply n

/-- At a Slack commit point every staged bias write applies (R125). -/
def Body.biasCommit (b : Body) : Body :=
  (List.range 16).foldl (fun b n => if b.rbit (BIAS_STATUS n) 5 && ! b.calOn 4 n then b.biasApply n else b) b

/-! ### Writes -/

/-- A write of BIAS_CODE (R125, R129). -/
def Body.writeBiasCode (b : Body) (n : Nat) (v : Reg32) : Body :=
  if b.rbit (BIAS_STATUS n) 11 then b.reject (BIAS_STATUS n)
  else
    let b := b.rset (BIAS_CODE n) (v &&& 0xFFFFFF)
    b.biasStage n { b.biasOf n with stCode := some (fld v 0 24) }

/-- BIAS_CODE_WRITE (R125). -/
def execBiasCodeWrite (n : Fin 16) (v : Reg32) (s : State) : Host.Outcome State Fault Refusal :=
  nextBody (fun _ b => b.writeBiasCode n v) s

/-- A write of BIAS_CTL is refused for RANGE 3, a change of RANGE while one is in progress, an enable that a tile failure, an
interlock or missing firmware holds off, and a change of EN during a calibration (R122, R128, R336, R360, R385, R410). -/
def Body.biasCtlOk (b : Body) (n : Nat) (v : Reg32) : Bool :=
  fld v 1 2 != 3 && ! (b.rbit (BIAS_STATUS n) 1 && fld v 1 2 != b.rfld (BIAS_CTL n) 1 2) &&
  ! (bit v 0 && (b.tileHeld (n / 4) || ! b.fwReady)) && ! (bit v 0 != b.rbit (BIAS_CTL n) 0 && b.calOn 4 n)

/-- A write of BIAS_CTL (R125). -/
def Body.writeBiasCtl (b : Body) (n : Nat) (v : Reg32) : Body :=
  if b.biasCtlOk n v then
    let x := b.biasOf n
    let x := { x with
      stEn := if bit v 0 = b.rbit (BIAS_CTL n) 0 then x.stEn else some (bit v 0)
      stRange := if fld v 1 2 = b.rfld (BIAS_CTL n) 1 2 then x.stRange else some (fld v 1 2) }
    let b := b.rset (BIAS_CTL n) (v &&& 0xF)
    if x.stEn.isSome || x.stRange.isSome then b.biasStage n x else b
  else b.reject (BIAS_STATUS n)

/-- BIAS_EN: a write of BIAS_CTL (R125, R130). -/
def execBiasEn (n : Fin 16) (v : Reg32) (s : State) : Host.Outcome State Fault Refusal :=
  nextBody (fun _ b => b.writeBiasCtl n v) s

/-- A write of BIAS_DG is refused for a zero threshold or hold (R131). -/
def Body.writeBiasDg (b : Body) (n : Nat) (v : Reg32) : Body :=
  if fld v 0 8 = 0 ∨ fld v 8 8 = 0 then b.reject (BIAS_STATUS n) else b.rset (BIAS_DG n) (v &&& 0x1FFFF)

/-- SAFE_LOCK clears when OPEN is 0 and OPEN_SEEN has been cleared (R129). -/
def Body.biasUnlock (b : Body) (n : Nat) : Body :=
  if b.rbit (BIAS_STATUS n) 11 && ! b.rbit (BIAS_STATUS n) 4 && ! b.rbit (BIAS_STATUS n) 10 then
    b.rsetBit (BIAS_STATUS n) 11 false
  else b

/-- A write of BIAS_STATUS (R129, R131). -/
def Body.writeBiasStatus (b : Body) (n : Nat) (v : Reg32) : Body := (b.w1c (BIAS_STATUS n) 0x700 v).biasUnlock n

/-! ### Frames (R123, R130) -/

/-- An applied EN takes effect: Starting or Stopping for 31 frames (R130). -/
def Body.biasTurn (b : Body) (n : Nat) : Body :=
  let x := b.biasOf n
  match x.apEn with
  | none => b
  | some on =>
    let x := { x with apEn := none }
    if on then
      (if x.mode = .safe ∨ x.mode = .stopping then b.setBias n { x with mode := .starting, modeFrame := x.frame + 31 }
       else b.setBias n x)
    else if x.mode = .on ∨ x.mode = .starting then
      (b.setBias n { x with mode := .stopping, modeFrame := x.frame + 31 }).rsetBit (BIAS_STATUS n) 0 false
    else b.setBias n x

/-- An applied code is taken, unless a range change is in progress or the output is locked (R125, R128, R129). -/
def Body.biasTake (b : Body) (n : Nat) : Body :=
  let x := b.biasOf n
  match x.apCode with
  | some v =>
    if x.rangeFrom.isNone && x.apRange.isNone && ! b.rbit (BIAS_STATUS n) 11 then
      b.setBias n { x with apCode := none, newCode := v }
    else b
  | none => b

/-- OPEN with OPEN_SAFE forces the code to zero and locks it, whichever of the two was set last (R129). -/
def Body.biasZero (b : Body) (n : Nat) : Body :=
  let x := b.biasOf n
  if x.zero || (b.rbit (BIAS_STATUS n) 4 && b.rbit (BIAS_CTL n) 3) then (b.setBias n { x with zero := false, newCode := 0 }).rsetBit (BIAS_STATUS n) 11 true else b

/-- A PWM frame begins where the Phase Count is a multiple of 65,536 (R123). -/
def Body.pwmFrame (b : Body) (c : Clock) (n : Nat) : Body :=
  let x := b.biasOf n
  if c.ph % 65536 = 0 ∧ x.begun ≠ some c.cyc then
    let b := b.setBias n { x with frame := x.frame + 1, begun := some c.cyc }
    (((b.biasTurn n).biasZero n).biasTake n).biasSettle c n
  else b

/-- PWM_FRAME (R123). -/
def execPwmFrame (n : Fin 16) (s : State) : Host.Outcome State Fault Refusal := nextBody (fun c b => b.pwmFrame c n) s

/-- BIAS_STATE_END: 31 frames of Starting lead to On, of Stopping to Safe (R130). -/
def Body.biasStateEnd (b : Body) (c : Clock) (n : Nat) : Body :=
  let x := b.biasOf n
  if x.modeFrame ≤ x.frame then
    match x.mode with
    | .starting => (((b.setBias n { x with mode := .on }).rsetBit (BIAS_STATUS n) 0 true).biasTake n).biasSettle c n
    | .stopping => b.biasSafe n
    | _ => b
  else b

/-- BIAS_STATE_END (R130). -/
def execBiasStateEnd (n : Fin 16) (s : State) : Host.Outcome State Fault Refusal := nextBody (fun c b => b.biasStateEnd c n) s

/-- DG_HOLD_END: the hold has lasted DG_HOLD frames (R127). -/
def Body.dgHoldEnd (b : Body) (n : Nat) : Body :=
  let x := b.biasOf n
  match x.holdUntil with
  | some f => if f ≤ x.frame then (b.setBias n { x with holdUntil := none }).rsetBit (BIAS_STATUS n) 2 (b.calOn 4 n) else b
  | none => b

/-- DG_HOLD_END (R127). -/
def execDgHoldEnd (n : Fin 16) (s : State) : Host.Outcome State Fault Refusal := nextBody (fun _ b => b.dgHoldEnd n) s

/-- The steps of a range change: zero code at once; after 31 frames the deglitcher holds and the range switches; after 62 it
is released; after 63 the new code takes effect (R128). -/
def Body.rangeChange (b : Body) (c : Clock) (n : Nat) : Body :=
  let x := b.biasOf n
  match x.rangeFrom with
  | none =>
    match x.apRange with
    | some r =>
      if decide (x.begun = some c.cyc) && decide (x.mode ≠ .safe) then
        if r = b.rfld (BIAS_STATUS n) 6 2 then (b.setBias n { x with apRange := none }).biasTake n
        else
          let b := b.setBias n { x with apRange := none, rangeFrom := some x.frame, newRange := r }
          (b.rsetBit (BIAS_STATUS n) 1 true).biasSettle c n
      else b
    | none => b
  | some f =>
    if f + 63 ≤ x.frame then
      (((b.setBias n { x with rangeFrom := none }).rsetBit (BIAS_STATUS n) 1 false).biasTake n).biasSettle c n
    else if f + 62 = x.frame then (b.setBias n { x with holdUntil := none }).rsetBit (BIAS_STATUS n) 2 (b.calOn 4 n)
    else if f + 31 = x.frame then
      ((b.setBias n { x with holdUntil := some (f + 62) }).rsetFld (BIAS_STATUS n) 6 2 x.newRange).rsetBit (BIAS_STATUS n) 2
        true
    else b

/-- RANGE_CHANGE (R128). -/
def execRangeChange (n : Fin 16) (s : State) : Host.Outcome State Fault Refusal := nextBody (fun c b => b.rangeChange c n) s

/-! ### Sensing (R129) -/

/-- One setting of a live condition: its SEEN bit and, the first time, one fault record (R129, R415). -/
def Body.biasSeen (b : Body) (c : Clock) (n live seen : Nat) (was : Bool) : Body :=
  if b.rbit (BIAS_STATUS n) live && ! was then
    let first := ! b.rbit (BIAS_STATUS n) seen
    let b := b.stick (BIAS_STATUS n) seen
    if first then
      b.fault c 0x0F (n * 2 ^ 8 + (if seen = 9 then 2 ^ 12 else 2 ^ 13))
        (b.rfld (SENSE_V n) 0 16 + b.rfld (SENSE_I n) 0 24 * 2 ^ 32)
    else b
  else b

/-- BIAS_SENSE: a 1 ms sample of pin voltage and current (R129). -/
def Body.biasSense (b : Body) (c : Clock) (n : Nat) (volt : BitVec 16) (amp : BitVec 24) : Body :=
  let b := (b.rset (SENSE_V n) (r32 volt.toNat)).rset (SENSE_I n) (r32 amp.toNat)
  let x := b.biasOf n
  let wasC := b.rbit (BIAS_STATUS n) 3
  let wasO := b.rbit (BIAS_STATUS n) 4
  let overFlag := decide (39 * 8192 ≤ 10 * volt.toInt.natAbs)
  let overs := if overFlag then min 3 (x.overs + 1) else 0
  let code := (sval 24 (b.biasCode n)).natAbs
  let comp := decide (3 ≤ overs)
  let opened := comp && decide (83886 ≤ code) && decide (10 * amp.toInt.natAbs < code)
  let b := (b.rsetBit (BIAS_STATUS n) 3 comp).rsetBit (BIAS_STATUS n) 4 opened
  let b := b.setBias n { x with overs := overs, zero := x.zero || (opened && b.rbit (BIAS_CTL n) 3) }
  ((b.biasSeen c n 3 9 wasC).biasSeen c n 4 10 wasO).biasUnlock n

/-- BIAS_SENSE (R129). -/
def execBiasSense (n : Fin 16) (volt : BitVec 16) (amp : BitVec 24) (s : State) : Host.Outcome State Fault Refusal :=
  nextBody (fun c b => b.biasSense c n volt amp) s

end Sys2Proof.Machine
end

