-- ==== Sys2Proof/Machine/Perf.lean ====
section
/-! DEFINITION. The performance unit: counters, snapshots and bandwidth monitors (R417 to R425). -/

namespace Sys2Proof.Machine

/-! ### Counters (R417 to R420) -/

/-- Value of counter `n`. -/
def Body.pcntOf (b : Body) (n : Nat) : Nat := b.pcnt.get 0 n

/-- Value of counter `n` at the start of this cycle (R420). -/
def Body.pcntStart (b : Body) (n : Nat) : Nat :=
  match b.log.pcntOld.find? (fun e => e.1 = n) with
  | some e => e.2
  | none => b.pcntOf n

/-- A written counter value stands; the value before is kept for this cycle's carry (R420). -/
def Body.pcntPut (b : Body) (n v : Nat) : Body :=
  let old := b.pcntOf n
  let log := if b.log.pcntOld.any (fun e => e.1 = n) then b.log else { b.log with pcntOld := (n, old) :: b.log.pcntOld }
  { b with pcnt := b.pcnt.put 0 n (v % 2 ^ 48), log := log }

/-- PCNT_LO_READ: the low half, and the high half snapshot (R420). -/
def Body.pcntRead (b : Body) (n : Nat) : Body :=
  let v := b.pcntStart n
  (b.rset (PCNT_HI n) (r32 (v / 2 ^ 32))).emitOut (.regValue (PCNT_LO n) (r32 v))

/-- PCNT_LO_READ (R420). -/
def execPcntLoRead (n : Fin 32) (s : State) : Host.Outcome State Fault Refusal := nextBody (fun _ b => b.pcntRead n) s

/-- A write of PCNTn_HI commits the pair (R11, R420). A counter holds its committed low half in its value. -/
def Body.writePcntHi (b : Body) (n : Nat) (v : Reg32) : Body :=
  let lo := match b.staged.get none (PCNT_LO n) with
    | some x => x.toNat
    | none => b.pcntOf n % 2 ^ 32
  (b.pcntPut n (lo + fld v 0 16 * 2 ^ 32)).unstage (PCNT_LO n)

/-- PCNT_HI_WRITE (R420). -/
def execPcntHiWrite (n : Fin 32) (v : Reg32) (s : State) : Host.Outcome State Fault Refusal :=
  nextBody (fun _ b => b.writePcntHi n v) s

/-- An occurrence of an event has been recorded in this cycle. -/
def Body.perfSeen (b : Body) (ev idx : Nat) : Bool := b.log.perf.any (fun p => p.ev == ev && p.idx == idx)

/-- An engine has a slot in a cycle in which it is RUNNING or WAITING (R422), the cycle in which it leaves them included: HALT has its
slot (R424). -/
def Body.engSlot (b : Body) (g : Nat) : Bool :=
  let st := b.rfld (ENG_STATUS g) 0 3
  st == 2 || st == 3 || b.perfSeen 0x18 g

/-- Class of an engine's slot: 0 retired, 1 wasted, 2 starved-front, 3 starved-back; none without a slot (R422). The first cycle of a wait is
retired; its further ones and the cycles of a stall are starved-back; how the cycles of a running engine fall is timing, so an open value (log entry 13). -/
def Body.slotClass (b : Body) (g : Nat) : Option Nat :=
  if ! b.engSlot g then none
  else if b.perfSeen 0x10 g then some 0
  else if b.rfld (ENG_STATUS g) 0 3 = 3 ∨ b.perfSeen 0x13 g = true then some 3
  else some ((Config.freeValue (b.free + g)).toNat % 4)

/-- A counter selects an event that counts slots by class. -/
def Body.classWatched (b : Body) : Bool :=
  (List.range 32).any (fun n => decide (0x10 ≤ b.rfld (PCNT_SEL n) 0 8) && decide (b.rfld (PCNT_SEL n) 0 8 ≤ 0x17))

/-- Occurrences of an event in the present cycle (R418). -/
def Body.occurs (b : Body) (ev idx : Nat) : Nat :=
  if ev = 1 then 1
  else if 0x10 ≤ ev ∧ ev ≤ 0x13 then (if b.slotClass idx = some (ev - 0x10) then 1 else 0)
  else if 0x14 ≤ ev ∧ ev ≤ 0x17 then ((List.range 12).filter (fun e => b.slotClass (12 * idx + e) = some (ev - 0x14))).length
  else if ev = 0x18 then (if b.engSlot idx then 1 else 0)
  else ((b.log.perf.filter (fun p => p.ev = ev ∧ p.idx = idx)).map (·.n)).sum

/-- GATE lets a counter count (R417). -/
def Body.gateOpen (b : Body) (gate : Nat) : Bool :=
  gate == 0 || (gate == 1 && b.rbit TIDE_STATUS 2) || (gate == 2 && ! b.rbit TIDE_STATUS 2)

/-- One counter at the end of a cycle; `carry` tells whether counter n − 1 overflowed in it (R417, R419, R420). -/
def Body.pcntStep (b : Body) (n : Nat) (carry : Bool) : Body × Bool :=
  let ev := b.rfld (PCNT_SEL n) 0 8
  let on := b.rbit PERF_CTL 0 && b.rbit PERF_EN n && b.gateOpen (b.rfld (PCNT_SEL n) 16 2)
  let inc := if ! on then 0 else if ev = 0x7F then (if carry then 1 else 0) else b.occurs ev (b.rfld (PCNT_SEL n) 8 8)
  let start := b.pcntStart n
  let overFlag := decide (2 ^ 48 ≤ start + inc)
  let b := if overFlag then b.stick PERF_OVF n else b
  let written := b.log.pcntOld.any (fun e => e.1 = n)
  (if written then b else { b with pcnt := b.pcnt.put 0 n ((start + inc) % 2 ^ 48) }, overFlag)

/-- Every counter at the end of a cycle, in order, so that a carry reaches its neighbour in the same cycle (R419); the open
values of the slot classes are used up. -/
def Body.pcntTick (b : Body) : Body :=
  let t := ((List.range 32).foldl (fun (p : Body × Bool) n => p.1.pcntStep n p.2) (b, false)).1
  if b.classWatched then { t with free := t.free + 192 } else t

/-! ### Snapshots (R421) -/

/-- Take a snapshot, once in a cycle (R421). -/
def Body.snapshot (b : Body) : Body :=
  if b.log.snapped then b
  else
    let b := (List.range 32).foldl (fun b n => b.rsetPair (PSNAP_LO n) (PSNAP_HI n) (b.pcntStart n)) b
    let b := b.rsetFld PERF_STATUS 16 16 (b.rfld PERF_STATUS 16 16 + 1)
    { b with log := { b.log with snapped := true } }

/-- Every counter cleared; the clear wins over this cycle's increments (R425). -/
def Body.clearAll (b : Body) : Body := (List.range 32).foldl (fun b n => b.pcntPut n 0) b

/-- A write of PERF_CTL (R421, R425). -/
def Body.writePerfCtl (b : Body) (v : Reg32) : Body :=
  let b := b.rset PERF_CTL (v &&& 0x7F9)
  let b := if bit v 1 then b.snapshot else b
  if bit v 2 then b.clearAll else b

/-- SNAP: a write of PERF_CTL with SNAP (R421). -/
def execSnap (v : Reg32) (s : State) : Host.Outcome State Fault Refusal := nextBody (fun _ b => b.writePerfCtl v) s
/-- CLR_ALL: a write of PERF_CTL with CLR_ALL (R425). -/
def execClrAll (v : Reg32) (s : State) : Host.Outcome State Fault Refusal := nextBody (fun _ b => b.writePerfCtl v) s

/-- EVENT and INDEX of R418 that exist. -/
def perfEventOk (ev idx : Nat) : Bool :=
  if ev = 0x01 ∨ ev = 0x02 ∨ ev = 0x03 then idx == 0
  else if 0x10 ≤ ev ∧ ev ≤ 0x13 then decide (idx < 192)
  else if 0x14 ≤ ev ∧ ev ≤ 0x17 then decide (idx < 16)
  else if ev = 0x18 then decide (idx < 192)
  else if 0x20 ≤ ev ∧ ev ≤ 0x22 then decide (idx < 112)
  else if ev = 0x30 ∨ ev = 0x40 then decide (idx < 16)
  else if ev = 0x31 ∨ ev = 0x32 ∨ ev = 0x41 ∨ ev = 0x42 then idx == 0
  else if 0x50 ≤ ev ∧ ev ≤ 0x52 then idx == 0
  else if ev = 0x60 then decide (idx < 64)
  else if ev = 0x61 ∨ ev = 0x7F then idx == 0
  else false

/-- A write of PCNTn_SEL (R418, R419, R425). -/
def Body.writePcntSel (b : Body) (n : Nat) (v : Reg32) : Body :=
  let x := v &&& 0x3FFFF
  if (b.rbit PERF_EN n && x != b.rget (PCNT_SEL n)) || fld v 16 2 == 3 || ! perfEventOk (fld v 0 8) (fld v 8 8) ||
      (n == 0 && fld v 0 8 == 0x7F) then b.reject PERF_STATUS
  else b.rset (PCNT_SEL n) x

/-! ### Bandwidth monitors (R423, R424) -/

/-- Bytes moved at a monitored port in this cycle. -/
def Body.traffic (b : Body) (kind idx n : Nat) : Body :=
  { b with log := { b.log with bytes := ⟨kind, idx, n⟩ :: b.log.bytes } }

/-- Units and bytes left over a monitor counts in this cycle (R423). -/
def Body.bwUnits (b : Body) (c : Clock) (kind idx rest : Nat) : Nat × Nat :=
  let one (x : Bool) : Nat × Nat := (if x then 1 else 0, rest)
  match kind with
  | 0 => one ((b.comp idx).run.any (·.on c))
  | 1 => one ((b.comp (64 + idx)).run.any (·.on c))
  | 2 => one ((b.comp (80 + idx)).run.any (·.on c))
  | 3 => one ((b.recv idx).wins.any (·.openNow c))
  | _ =>
    let n := rest + ((b.log.bytes.filter (fun p => p.ev = kind ∧ p.idx = idx)).map (·.n)).sum
    (n / 64, n % 64)

/-- The monitors at the end of a cycle. -/
def Body.bwTick (b : Body) (c : Clock) : Body :=
  (List.range 8).foldl (fun b m =>
    if b.rbit (BW_CFG m) 10 then
      let x := b.bw.get ⟨0, 0, false, 0, none⟩ m
      let u := b.bwUnits c (b.rfld (BW_CFG m) 0 4) (b.rfld (BW_CFG m) 4 6) x.rest
      { b with bw := b.bw.put ⟨0, 0, false, 0, none⟩ m { x with count := min (2 ^ 32 - 1) (x.count + u.1), rest := u.2 } }
    else b) b

/-- A window of monitor `m` ends in this cycle: at a Phase Count multiple of WIN while anchored, else counted from the write
of EN (R424). -/
def Body.bwEnds (b : Body) (c : Clock) (m : Nat) : Bool :=
  let x := b.bw.get ⟨0, 0, false, 0, none⟩ m
  let w := b.rfld (BW_WIN m) 0 30
  b.rbit (BW_CFG m) 10 && decide (x.ended ≠ some c.cyc) && decide (x.from_ < c.cyc) &&
  (if b.anchored then c.ph % w == 0 else (c.cyc - x.from_) % w == 0)

/-- BW_WINDOW: report the window, unless it is partial (R424). -/
def Body.bwWindow (b : Body) (c : Clock) (m : Nat) : Body :=
  if b.bwEnds c m then
    let x := b.bw.get ⟨0, 0, false, 0, none⟩ m
    let b1 := { b with bw := b.bw.put ⟨0, 0, false, 0, none⟩ m ⟨0, x.rest, false, x.from_, some c.cyc⟩ }
    if x.short then b1
    else
      let b2 := b1.rset (BW_LAST m) (r32 x.count)
      let b3 := b2.rset (BW_PEAK m) (r32 (max x.count (b.rnat (BW_PEAK m))))
      let b4 := b3.rset (BW_MIN m) (r32 (min x.count (b.rnat (BW_MIN m))))
      b4.rset (BW_WINDOWS m) (satInc (b.rget (BW_WINDOWS m)) 1)
  else b

/-- BW_WINDOW (R424). -/
def execBwWindow (m : Fin 8) (s : State) : Host.Outcome State Fault Refusal := nextBody (fun c b => b.bwWindow c m) s

/-- A write of BWm_CFG: KIND and INDEX are SL, EN is RW; EN 1 clears the results and starts, EN 0 stops (R424, R425). -/
def Body.writeBwCfg (b : Body) (c : Clock) (m : Nat) (v : Reg32) : Body :=
  if (b.rbit (BW_CFG m) 10 && (b.rget (BW_CFG m) ^^^ v) &&& 0x3FF != 0) || decide (9 ≤ fld v 0 4) then b.reject PERF_STATUS
  else
    let b := b.rset (BW_CFG m) (v &&& 0x7FF)
    if bit v 10 then
      let b := (((b.rset (BW_LAST m) 0).rset (BW_PEAK m) 0).rset (BW_MIN m) 0xFFFFFFFF).rset (BW_WINDOWS m) 0
      { b with bw := b.bw.put ⟨0, 0, false, 0, none⟩ m ⟨0, 0, true, c.cyc, none⟩ }
    else b

/-- BW_EN: a write of BWm_CFG (R424). -/
def execBwEn (m : Fin 8) (v : Reg32) (s : State) : Host.Outcome State Fault Refusal :=
  nextBody (fun c b => b.writeBwCfg c m v) s

/-- A write of BWm_WIN (R423, R425). -/
def Body.writeBwWin (b : Body) (m : Nat) (v : Reg32) : Body :=
  let x := fld v 0 30
  if (b.rbit (BW_CFG m) 10 && x != b.rfld (BW_WIN m) 0 30) || decide (x < 1000) || decide (1000000000 < x) then
    b.reject PERF_STATUS
  else b.rset (BW_WIN m) (r32 x)

/-- After anchoring the first window of every monitor is partial (R424). -/
def Body.bwAnchor (b : Body) (c : Clock) : Body :=
  (List.range 8).foldl (fun b m =>
    if b.rbit (BW_CFG m) 10 then { b with bw := b.bw.put ⟨0, 0, false, 0, none⟩ m ⟨0, 0, true, c.cyc, some c.cyc⟩ } else b) b

/-- The counters start over at a reset that stops the core clock and at Neap entry (R417). -/
def Body.perfReset (b : Body) : Body := { b with pcnt := .empty, bw := .empty }

end Sys2Proof.Machine
end

