-- ==== Sys2Proof/Machine/RingTx.lean ====
section
/-! DEFINITION. The output side of the Tide Ring: originating a frame, the class queues of R57, what is written into a frame
as it departs (R59), wrapping (R75), and the cycle of the two ring outputs. -/

namespace Sys2Proof
open Machine

/-! ### The four blocks of a frame (R54) -/

/-- The 56-bit header H. -/
def Frame.header (f : Frame) : BitVec 56 :=
  f.type ++ f.src ++ f.dst ++ BitVec.ofBool f.bcast ++ BitVec.ofBool f.orig ++ BitVec.ofBool f.wrapped ++ f.hops ++ f.term ++ f.seq ++ f.arg

/-- The CRC-32 over H, D1, D2 and D3[63:32]; the bytes of each in ascending order (DESIGN CHOICE, assumption 54). -/
def Frame.crc (f : Frame) : BitVec 32 :=
  crc32 (leBytes 7 f.header.toNat ++ leBytes 8 f.d1.toNat ++ leBytes 8 f.d2.toNat ++ leBytes 4 f.d3.toNat)

/-- The four blocks as they leave: a control block of type 0x78 with H (true marks it), then D1, D2 and D3 with the CRC. -/
def Frame.blocks (f : Frame) : List (Bool × BitVec 64) :=
  [(true, f.header ++ (0x78 : BitVec 8)), (false, f.d1), (false, f.d2), (false, f.d3 ++ f.crc)]

end Sys2Proof

namespace Sys2Proof.Machine

/-! ### Queueing -/

/-- Priority class of a frame type (R55). -/
def frameClass (t : Nat) : Nat :=
  if t = 8 then 1 else if t = 9 then 2 else if t = 2 ∨ t = 3 ∨ t = 4 ∨ t = 12 then 3 else 0

/-- Queue a frame behind its own and higher classes (R57). -/
def enqueueTx (e : TxEntry) : List TxEntry → List TxEntry
  | [] => [e]
  | x :: t => if frameClass e.frame.type.toNat < frameClass x.frame.type.toNat then e :: x :: t else x :: enqueueTx e t

/-- Queue an entry at a ring output; with a wrap in place a frame for the dead output leaves on the live one, marked
WRAPPED (R75). A broken input of one ring is the link pair of the other ring's output. -/
def Body.toOutput (b : Body) (ringB : Bool) (e : TxEntry) : Body :=
  let wrap := b.rbit RING_STATUS 3
  let dead := wrap && (if ringB then b.ring.brokenA else b.ring.brokenB)
  let e := if dead then { e with frame := { e.frame with wrapped := true } } else e
  let toB := if dead then ! ringB else ringB
  if toB then { b with ring := { b.ring with txB := enqueueTx e b.ring.txB } }
  else { b with ring := { b.ring with txA := enqueueTx e b.ring.txA } }

/-- Frames that wait at an output, oldest first. -/
def RingSt.tx (r : RingSt) (ringB : Bool) : List TxEntry := if ringB then r.txB else r.txA
/-- Set what waits at an output. -/
def RingSt.setTx (r : RingSt) (ringB : Bool) (l : List TxEntry) : RingSt := if ringB then { r with txB := l } else { r with txA := l }

/-- With a wrap in place the frames that wait at a dead output turn onto the live one (R75). -/
def Body.turnOutput (b : Body) (ringB : Bool) : Body :=
  if b.rbit RING_STATUS 3 && (if ringB then b.ring.brokenA else b.ring.brokenB) then
    (b.ring.tx ringB).foldl (fun b e => b.toOutput ringB e) { b with ring := b.ring.setTx ringB [] }
  else b

/-- The device may originate frames: ring open, no duplicate ID (R51, R82). -/
def Body.canSend (b : Body) : Bool := b.ringEn && ! b.rbit RING_STATUS 12

/-- A frame of this device (R54): SRC, TERM and SEQ filled in. -/
def Body.newFrame (b : Body) (type dst : Nat) (bcast ringB : Bool) (arg d1 d2 d3 : Nat) : Frame :=
  { type := BitVec.ofNat 4 type, src := BitVec.ofNat 4 b.devId, dst := BitVec.ofNat 4 dst, bcast := bcast, orig := ringB,
    wrapped := false, hops := 0, term := BitVec.ofNat 8 (b.rfld RING_STATUS 24 8), seq := b.ring.seq,
    arg := BitVec.ofNat 12 arg, d1 := BitVec.ofNat 64 d1, d2 := BitVec.ofNat 64 d2, d3 := BitVec.ofNat 32 d3 }

/-- Originate one frame on one ring, answering `arrived` (R59) where it turns a request round. -/
def Body.sendOne (b : Body) (ringB : Bool) (type dst : Nat) (bcast : Bool) (arg d1 d2 d3 : Nat) (arrived : Option Nat) :
    Body :=
  if b.canSend then
    let f := b.newFrame type dst bcast ringB arg d1 d2 d3
    let b := (b.toOutput ringB ⟨f, arrived, 0⟩).perf (if ringB then 0x51 else 0x50) 0 1
    { b with ring := { b.ring with seq := b.ring.seq + 1 } }
  else b

/-- Originate a frame on both rings; both copies carry one SEQ (R54). -/
def Body.sendBoth (b : Body) (type dst : Nat) (bcast : Bool) (arg d1 d2 d3 : Nat) : Body :=
  if b.canSend then
    let b1 := b.toOutput false ⟨b.newFrame type dst bcast false arg d1 d2 d3, none, 0⟩
    let b2 := b1.toOutput true ⟨b.newFrame type dst bcast true arg d1 d2 d3, none, 0⟩
    let b3 := (b2.perf 0x50 0 1).perf 0x51 0 1
    { b3 with ring := { b3.ring with seq := b.ring.seq + 1 } }
  else b

/-- Add to the time field D2[59:28] of a frame (R55). -/
def addTime (f : Frame) (x : Int) : Frame :=
  { f with d2 := setFld f.d2 28 32 (wrap 32 ((fld f.d2 28 32 : Int) + x)) }

/-- A departure or arrival stamp in sixteenths of a core cycle, on the cycle count of the model (R58). -/
def Clock.stamp (c : Clock) (sub : Nat) : Nat := 16 * c.cyc + sub

/-- What is written into a frame as it leaves at sixteenth `sub` of the cycle (R58, R59, R83). -/
def Body.departing (b : Body) (c : Clock) (sub : Nat) (e : TxEntry) : Frame :=
  let f := e.frame
  let t := f.type.toNat
  let own := decide (f.src.toNat = b.devId)
  let resid : Int := match e.arrived with
    | some a => (c.stamp sub : Int) - a
    | none => 0
  if t = 3 then (if own then addTime f resid else f)
  else if own then
    if t = 1 ∨ t = 0xB then
      { f with d1 := BitVec.ofNat 64 (b.tideAt c sub / 16), d2 := setFld f.d2 60 4 (b.tideAt c sub), d3 := BitVec.ofNat 32 c.ph }
    else if t = 0xA then
      { f with d2 := setFld f.d2 4 24 (match b.grid.anchorAt with | some a => a - c.cyc | none => 0) }
    else f
  else if t = 1 ∨ t = 0xB ∨ t = 0xA then addTime f (resid + e.ingress)
  else if t = 4 then
    let f := addTime f resid
    { f with d3 := BitVec.ofNat 32 (wrap 32 (f.d3.toNat + b.ring.useUp)) }
  else f

/-- A frame leaves on a ring at sixteenth `sub` of the cycle: departure stamps kept for the round trip and the loop (R58, R60, R62). -/
def Body.depart (b : Body) (c : Clock) (sub : Nat) (ringB : Bool) (e : TxEntry) : Body :=
  let f := b.departing c sub e
  let t := f.type.toNat
  let own := decide (f.src.toNat = b.devId)
  let r := b.ring
  let r := if own ∧ t = 2 then
      (if ringB then { r with reqB := some (f.seq, some (c.stamp sub)) } else { r with reqA := some (f.seq, some (c.stamp sub)) })
    else if own ∧ t = 4 then
      (if ringB then { r with loopDepB := some (c.stamp sub) } else { r with loopDepA := some (c.stamp sub) })
    else r
  Body.traffic { b with ring := r, out := b.out ++ [OutItem.frame ringB f f.blocks] } (if ringB then 8 else 7) 0 33

/-- One ring output in one cycle: a frame leaves when the lane is free, at the start or the middle of the cycle; a frame holds the lane 16.5 cc
(R54, R57). -/
def Body.txTick (b : Body) (c : Clock) (ringB : Bool) : Body :=
  let free := if ringB then b.ring.freeB else b.ring.freeA
  match b.ring.tx ringB with
  | [] => b
  | e :: t =>
    if free ≤ 2 * c.cyc + 1 then
      let half := max (2 * c.cyc) free
      let b := b.depart c (8 * (half - 2 * c.cyc)) ringB e
      let r := b.ring.setTx ringB t
      { b with ring := if ringB then { r with freeB := half + 33 } else { r with freeA := half + 33 } }
    else b

/-- Insert in slot order, behind the earlier updates of the same slot (R79). -/
def insertBySlot (u : DecUpd) : List DecUpd → List DecUpd
  | [] => [u]
  | x :: t => if u.slot < x.slot then u :: x :: t else x :: insertBySlot u t

/-- The 20-bit update field (R55). -/
def updField (l : List DecUpd) (i : Nat) : Nat :=
  match l[i]? with
  | some u => u.slot * 2 ^ 10 + u.val * 2 ^ 2
  | none => 0

/-- Build a DECISION frame from the pending updates, and an EVENT frame from the export queue, when none of the class waits
at the outputs (R79, R330). -/
def Body.buildFrames (b : Body) : Body :=
  let waits (k : Nat) := (b.ring.txA ++ b.ring.txB).any (fun e => frameClass e.frame.type.toNat = k ∧ e.arrived = none)
  let b1 :=
    match b.ring.decOut with
    | [] => b
    | u :: _ =>
      if waits 1 then b
      else
        let all := (b.ring.decOut.filter (fun (x : DecUpd) => x.epoch = u.epoch)).foldl (fun l x => insertBySlot x l) []
        let l := all.take 4
        let r := all.drop 4 ++ b.ring.decOut.filter (fun (x : DecUpd) => x.epoch ≠ u.epoch)
        let first := match l with
          | [] => 0
          | x :: _ => x.stamp
        let b := b.sendBoth 8 0 true l.length (u.epoch * 2 ^ 48 + first * 2 ^ 12)
          (updField l 0 * 2 ^ 44 + updField l 1 * 2 ^ 24 + updField l 2 * 2 ^ 4) (updField l 3 * 2 ^ 12)
        { b with ring := { b.ring with decOut := r } }
  match b1.ring.evOut with
  | [] => b1
  | x :: t =>
    if waits 2 then b1
    else
      let b2 := b1.sendBoth 9 0 true 0 x.lin.toNat (x.ch * 2 ^ 58 + x.stamp * 2 ^ 22) 0
      { b2 with ring := { b2.ring with evOut := t } }

/-- One cycle of the ring outputs: frames are built while the device may originate them (R79, R82, R330), and leave. -/
def Body.ringTick (b : Body) (c : Clock) : Body :=
  if b.ringEn then ((if b.canSend then b.buildFrames else b).txTick c false).txTick c true else b

end Sys2Proof.Machine
end

