-- ==== Sys2Proof/Machine/Events.lean ====
section
/-! DEFINITION. The Event Router: delivery, task inputs, trigger and marker pins, legacy channels (R325 to R338). -/

namespace Sys2Proof.Machine

/-! ### Task inputs (R332) -/

/-- The pending event of a task input, by 4 * engine + input. -/
def Body.tiPending (b : Body) (key : Nat) : Option TiEvent := b.evt.ti.get none key
def Body.setTi (b : Body) (key : Nat) (e : Option TiEvent) : Body :=
  { b with evt := { b.evt with ti := b.evt.ti.put none key e } }

/-- Two events of one cycle at one input merge (R332). -/
def TiEvent.merge (x y : TiEvent) : TiEvent := ⟨min x.ch y.ch, x.lin ||| y.lin, min x.reason y.reason⟩

/-- What the cycle has brought to a task input. -/
def Body.tiSeen (b : Body) (key : Nat) : Option TiSeen := b.log.ti.find? (fun x => x.key = key)
/-- Replace what the cycle has brought to a task input. -/
def Body.setSeen (b : Body) (x : TiSeen) : Body :=
  { b with log := { b.log with ti := x :: b.log.ti.filter (fun y => y.key ≠ x.key) } }

/-- Count a merge, once for an input and cycle (R332). -/
def Body.tiMerged (b : Body) (key : Nat) (x : TiSeen) : Body :=
  if x.merged then b
  else ((b.count COALESCE_COUNT 1).stick EV_STATUS 16).stick (TI_STAT (key / 4)) (12 + key % 4)

/-- An event reaches a task input (R332): it becomes pending at once, merges with another of this cycle, or is held back while
an earlier event is pending. -/
def Body.tiArrive (b : Body) (key : Nat) (e : TiEvent) : Body :=
  match b.tiSeen key with
  | none =>
    if (b.tiPending key).isNone then (b.setTi key (some e)).setSeen ⟨key, none, false⟩
    else b.setSeen ⟨key, some e, false⟩
  | some x =>
    match x.held with
    | some y => (b.tiMerged key x).setSeen ⟨key, some (y.merge e), true⟩
    | none =>
      match b.tiPending key with
      | some y => ((b.tiMerged key x).setTi key (some (y.merge e))).setSeen ⟨key, none, true⟩
      | none => (b.setTi key (some e)).setSeen x

/-- WAITEV or event entry takes the pending event; one that arrived in this cycle becomes the new pending event (R332). -/
def Body.tiTake (b : Body) (key : Nat) : Body :=
  match b.tiSeen key with
  | some x => (b.setTi key x.held).setSeen { x with held := none }
  | none => b.setTi key none

/-- At the end of a cycle every event held back is LOST (R332). -/
def Body.tiEnd (b : Body) : Body :=
  b.log.ti.foldl (fun b x =>
    if x.held.isSome then
      (((b.count LOST_COUNT 1).stick EV_STATUS 17).stick (TI_STAT (x.key / 4)) (8 + x.key % 4)).perf 0x61 0 1
    else b) b

/-- An error event of an engine on TI3 (R197, R231). -/
def Body.tiError (b : Body) (g reason : Nat) : Body := b.tiArrive (4 * g + 3) ⟨0, 0, reason⟩

/-- The subscription entry of an engine is in use: in Guarded mode only those of the logical engines (R331). -/
def Body.listens (b : Body) (g : Nat) : Bool :=
  let n := g / 12
  ! b.rbit (COVE_CTL n) 0 || (g % 2 == 0 && g % 12 / 2 != b.rfld (COVE_CTL n) 2 3)

/-- Does engine `g` subscribe task input `t` to a channel (R338)? -/
def Body.subscribes (b : Body) (g t ch : Nat) : Bool :=
  b.listens g && (if ch < 32 then b.rbit (SUB_LO g t) ch else b.rbit (SUB_HI g t) (ch - 32))

/-- Discard every pending event of an engine (R332). -/
def Body.tiClear (b : Body) (g : Nat) : Body := [0, 1, 2, 3].foldl (fun b t => b.setTi (4 * g + t) none) b

/-- A write of TI_STATi (R332, R338). -/
def Body.writeTiStat (b : Body) (g : Nat) (v : Reg32) : Body :=
  let b := b.w1c (TI_STAT g) 0xFF00 v
  if bit v 16 then b.tiClear g else b

/-- TI_CLR: a write of TI_STATi with TI_CLR (R332). -/
def execTiClr (i : Fin 192) (v : Reg32) (s : State) : Host.Outcome State Fault Refusal := nextBody (fun _ b => b.writeTiStat i v) s

/-! ### Delivery (R325, R329 to R331) -/

/-- A channel bit of a _LO and _HI pair. -/
def Body.chBit (b : Body) (lo hi ch : Nat) : Bool := if ch < 32 then b.rbit lo ch else b.rbit hi (ch - 32)

/-- Add a pulse to those of a marker pin; one that begins while the last is active restarts it (R334). -/
def addPulse (from_ fin : Nat) : List (Nat × Nat) → List (Nat × Nat)
  | [] => [(from_, fin)]
  | (s, e) :: t => if t.isEmpty ∧ from_ ≤ e then [(s, fin)] else (s, e) :: addPulse from_ fin t

/-- A marker pin restarts on a delivery in cycle d: active from d + 6 for WIDTH cc (R334). -/
def Body.marker (b : Body) (c : Clock) (p : Nat) : Body :=
  { b with evt := { b.evt with marker := b.evt.marker.upd [] p (addPulse (c.cyc + 6) (c.cyc + 6 + b.rfld (TRG_CFG p) 16 8)) } }

/-- Queue a delivered event for the ring: not one made by imports alone, and at most 32 (R330). While the device may not send, the queue
fills and then drops: the rule makes no exception (assumption 54). -/
def Body.exportEvent (b : Body) (c : Clock) (e : RouterEv) : Body :=
  if b.chBit EV_EXPORT_LO EV_EXPORT_HI e.ch && ! e.imported then
    if b.ring.evOut.length < 32 then
      { b with ring := { b.ring with evOut := b.ring.evOut ++ [(⟨e.ch, e.lin, c.short⟩ : ExpEv)] } }
    else (b.count EXPORT_DROP_COUNT 1).stick EV_STATUS 18
  else b

/-- Deliver one event to its consumers (R325, R331). -/
def Body.deliver (b : Body) (c : Clock) (e : RouterEv) : Body :=
  let lin := e.lin ||| BitVec.ofNat 64 (2 ^ e.ch)
  let b := (b.count (CH_COUNT e.ch) 1).perf 0x60 e.ch 1
  let b := { b with log := { b.log with delivered := (e.ch, lin) :: b.log.delivered } }
  let b := (List.range 192).foldl (fun b g => (List.range 3).foldl (fun b t =>
    if b.subscribes g t e.ch then b.tiArrive (4 * g + t) ⟨e.ch, lin, 0⟩ else b) b) b
  let b := (List.range 8).foldl (fun b p =>
    if b.rfld (TRG_CFG p) 0 2 = 1 ∧ b.rfld (TRG_CFG p) 4 6 = e.ch then b.marker c p else b) b
  let b := b.exportEvent c e
  let b := (List.range 16).foldl (fun b r =>
    if b.rbit (REPUB_CFG r) 12 && b.rfld (REPUB_CFG r) 0 6 == e.ch then
      b.publish c (b.rfld (REPUB_CFG r) 6 6) lin 0 false
    else b) b
  if b.rbit PERF_CTL 9 && b.rfld PERF_CTL 3 6 == e.ch then b.snapshot else b

/-- Insert by channel. -/
def insertByCh (e : RouterEv) : List RouterEv → List RouterEv
  | [] => [e]
  | x :: t => if e.ch < x.ch then e :: x :: t else x :: insertByCh e t

/-- EVENT_DELIVERY: every event due in this cycle is delivered, lowest channel first (R325). -/
def Body.deliverDue (b : Body) (c : Clock) : Body :=
  let due := (b.evt.flight.filter (fun e => decide (e.due ≤ c.cyc))).foldl (fun l e => insertByCh e l) []
  let b1 := { b with evt := { b.evt with flight := b.evt.flight.filter (fun e => ! decide (e.due ≤ c.cyc)) } }
  due.foldl (fun b e => b.deliver c e) b1

/-- EVENT_DELIVERY (R325). -/
def execEventDelivery (s : State) : Host.Outcome State Fault Refusal := nextBody (fun c b => b.deliverDue c) s

/-- EV_FIRE: a write of EV_FIRE0 or EV_FIRE1 (R333). -/
def Body.evFire (b : Body) (c : Clock) (hi : Bool) (v : Reg32) : Body :=
  (List.range 32).foldl (fun b n => if bit v n then b.publish c (if hi then 32 + n else n) 0 0 false else b) b

/-- EV_FIRE (R333). -/
def execEvFire (hi : Bool) (v : Reg32) (s : State) : Host.Outcome State Fault Refusal :=
  nextBody (fun c b => b.evFire c hi v) s

/-- A write of REPUBr_CFG (R329). -/
def Body.writeRepub (b : Body) (r : Nat) (v : Reg32) : Body :=
  if fld v 0 6 = fld v 6 6 then b.reject EV_STATUS else b.rset (REPUB_CFG r) (v &&& 0x1FFF)

/-- CNT_CLR of the EVT block (R338). -/
def Body.evtClear (b : Body) : Body :=
  let b := [LOOP_COUNT, COALESCE_COUNT, LOST_COUNT, EXPORT_DROP_COUNT].foldl (fun b k => b.clearCount k) b
  (List.range 64).foldl (fun b n => b.clearCount (CH_COUNT n)) b

/-! ### Trigger and marker pins (R334) -/

/-- A marker pin is active: a pulse has begun and not ended; never while the core clock is stopped (R334). -/
def Body.markerOn (b : Body) (c : Clock) (p : Nat) : Bool :=
  c.on && (b.evt.marker.get [] p).any (fun x => decide (x.1 ≤ c.cyc) && decide (c.cyc < x.2))

/-- MARKER_END: pulses whose WIDTH has passed end (R334). -/
def Body.markerEnd (b : Body) (c : Clock) (p : Nat) : Body :=
  { b with evt := { b.evt with marker := b.evt.marker.upd [] p (fun l => l.filter (fun x => ! decide (x.2 ≤ c.cyc))) } }

/-- MARKER_END (R334). -/
def execMarkerEnd (p : Fin 8) (s : State) : Host.Outcome State Fault Refusal := nextBody (fun c b => b.markerEnd c p) s

/-- TRG_EDGE: an input pin's level is registered; the edge EDGE selects, of the level after POL, publishes on CH and enters
the router in the next cycle (R326, R334). -/
def Body.trgEdge (b : Body) (c : Clock) (p : Nat) (rising : Bool) : Body :=
  let b := { b with evt := { b.evt with trg := setBit b.evt.trg p rising } }
  let up := rising != b.rbit (TRG_CFG p) 10
  let edge := b.rfld (TRG_CFG p) 2 2
  if b.rfld (TRG_CFG p) 0 2 = 0 ∧ ((up ∧ edge % 2 = 1) ∨ (¬ up ∧ edge / 2 = 1)) then
    b.publish c (b.rfld (TRG_CFG p) 4 6) 0 1 false
  else b

/-- TRG_EDGE (R334). -/
def execTrgEdge (p : Fin 8) (rising : Bool) (s : State) : Host.Outcome State Fault Refusal :=
  nextBody (fun c b => b.trgEdge c p rising) s

/-- A write of TRG_CFGp (R334, R338). -/
def Body.writeTrgCfg (b : Body) (p : Nat) (v : Reg32) : Body :=
  if fld v 0 2 = 3 ∨ fld v 16 8 = 0 then b.reject EV_STATUS else b.rset (TRG_CFG p) (v &&& 0x00FF07FF)

/-! ### Legacy channels (R335, R336) -/

/-- The level of a legacy channel from its sources (R335). -/
def Body.legLevel (b : Body) (k : Nat) : Bool :=
  (List.range 8).any (fun p => b.rbit (LEG_CFG k) p && b.rfld (TRG_CFG p) 0 2 == 0 && (bit b.evt.trg p != b.rbit (TRG_CFG p) 10)) ||
  (b.rbit (LEG_CFG k) 8 && b.evt.ilk) || (b.rbit (LEG_CFG k) 9 && b.rbit LEG_SW k)

/-- What the device drives on trigger pin `p`: nothing at an input, the marker (DIR 1), the level of a legacy channel without a clock (DIR 2);
POL makes it active low (R334). -/
def Body.trgPin (b : Body) (c : Clock) (p : Nat) : Option Bool :=
  let pol := b.rbit (TRG_CFG p) 10
  match b.rfld (TRG_CFG p) 0 2 with
  | 1 => some (b.markerOn c p != pol)
  | 2 => some (b.legLevel (b.rfld (TRG_CFG p) 4 3) != pol)
  | _ => none

/-- Legacy channels that are high with SAFE set. -/
def Body.safeChannels (b : Body) : List Nat := (List.range 8).filter (fun k => b.rbit LEG_STATUS k && b.rbit (LEG_CFG k) 14)

/-- Tiles a SAFE legacy channel holds (R336). -/
def Body.tilesHeld (b : Body) : BitVec 4 :=
  b.safeChannels.foldl (fun m k => m ||| BitVec.ofNat 4 (b.rfld (LEG_CFG k) 10 4)) 0

/-- Every D, P, F and B port of a tile goes to its Safe state, its enable cleared (R336, R410). -/
def Body.tileSafe (b : Body) (j : Nat) : Body :=
  let b := (List.range 16).foldl (fun b i => (b.rsetBit (PORT_CTL (16 * j + i)) 0 false).toSafe (.dp (16 * j + i))) b
  let b := (List.range 4).foldl (fun b i => (b.rsetBit (PORT_CTL (64 + 4 * j + i)) 0 false).toSafe (.dp (64 + 4 * j + i))) b
  let b := (List.range 8).foldl (fun b i => (b.rsetBit (FLX_CTL (8 * j + i)) 0 false).toSafe (.fx (8 * j + i))) b
  (List.range 4).foldl (fun b i => b.biasForce (4 * j + i)) b

/-- Bring the held tiles and ILK_SAFE up to date; tiles newly held go Safe at once (R336). -/
def Body.holdTiles (b : Body) : Body :=
  let now := b.tilesHeld
  let was := b.evt.safeTiles
  let b := { b with evt := { b.evt with safeTiles := now } }
  let b := b.rsetBit EV_STATUS 19 (! b.safeChannels.isEmpty)
  (List.range 4).foldl (fun b j => if bit now j && ! bit was j then b.tileSafe j else b) b

/-- Every tile a rising SAFE channel names goes Safe. -/
def Body.safeRise (b : Body) (c : Clock) (k : Nat) : Body :=
  let b := b.holdTiles
  let b := (List.range 4).foldl (fun b j => if b.rbit (LEG_CFG k) (10 + j) then b.tileSafe j else b) b
  let chs := (b.safeChannels.map (fun k => 2 ^ k)).sum
  b.fault c 0x10 (chs * 2 ^ 8 + b.evt.safeTiles.toNat * 2 ^ 16) 0

/-- A legacy channel rises (R335, R336): SEEN is latched, its event published while the core clock runs. -/
def Body.legRise (b : Body) (c : Clock) (k : Nat) : Body :=
  let b := (b.rsetBit LEG_STATUS k true).stick LEG_STATUS (8 + k)
  let b := if b.rbit (LEG_CFG k) 22 && c.on then b.publish c (b.rfld (LEG_CFG k) 16 6) 0 1 false else b
  if b.rbit (LEG_CFG k) 14 then b.safeRise c k else b

/-- The level of ILK_N as supplied with a legacy command. -/
def Body.setIlk (b : Body) (ilk : Bool) : Body :=
  { (b.rsetBit LEG_STATUS 16 ilk) with evt := { b.evt with ilk := ilk } }

/-- Does channel `k` rise now? -/
def Body.legRises (b : Body) (k : Nat) : Bool := b.legLevel k && ! b.rbit LEG_STATUS k

/-- LEGACY_FALL: the level falls; the ports stay Safe until started again (R336). -/
def Body.legFall (b : Body) (k : Nat) : Body :=
  if ! b.legLevel k && b.rbit LEG_STATUS k then (b.rsetBit LEG_STATUS k false).holdTiles else b

/-- LEGACY_FALL (R336). -/
def execLegacyFall (k : Fin 8) (ilk : Bool) (s : State) : Host.Outcome State Fault Refusal :=
  nextBody (fun _ b => (b.setIlk ilk).legFall k) s

/-- A write of LEGk_CFG: SAFE set while the channel is high holds its tiles, and the condition arises with its fault record (R336, R338, R414). -/
def Body.writeLegCfg (b : Body) (c : Clock) (k : Nat) (v : Reg32) : Body :=
  let arises := b.rbit LEG_STATUS k && bit v 14 && ! b.rbit (LEG_CFG k) 14
  let b := b.rset (LEG_CFG k) (v &&& 0x007FFFFF)
  if arises then b.safeRise c k else b.holdTiles

end Sys2Proof.Machine
end

