-- ==== Sys2Proof/Machine/Collector.lean ====
section
/-! DEFINITION. The write side of the Result Collectors: open and committed packets, oversize, flush (R308 to R314). -/

namespace Sys2Proof.Machine

/-- Key of FIFO `f` of cove `n`. -/
def fifoKey (n f : Nat) : Nat := 16 * n + f
/-- FIFO `f` of cove `n`. -/
def Body.fifo (b : Body) (n f : Nat) : Fifo := b.fifos.get .reset (fifoKey n f)
def Body.setFifo (b : Body) (n f : Nat) (x : Fifo) : Body := { b with fifos := b.fifos.put .reset (fifoKey n f) x }

/-- Depth in words (R308). -/
def Body.depth (b : Body) (n f : Nat) : Nat := 64 * b.rfld (FIFO_CTL n f) 0 9

/-- Words of the open packet. -/
def Fifo.openLen (x : Fifo) : Nat := match x.open_ with
  | some o => o.words.length
  | none => 0
/-- Words held, open or committed (R314). -/
def Fifo.held (x : Fifo) : Nat := x.openLen + (x.done.map (·.words.length)).sum
/-- A producer has the open packet. -/
def Fifo.owns (x : Fifo) (prod : Option Nat) : Bool := match x.open_ with
  | some o => decide (o.prod = prod)
  | none => false

/-- Words an engine has sent to a FIFO that have not landed. -/
def Body.sent (b : Body) (n f : Nat) : List Nat :=
  b.outs.filterMap (fun o => match o.what with
    | .emit k _ => if o.eng / 12 = n ∧ k = f then some (o.eng % 12) else none
    | _ => none)

/-- A FIFO can take a word of a producer (R309, R310, R312): no other producer has a packet open in it or starting; it is not
full of committed words. The words of a producer being dropped always pass. -/
def Body.canTake (b : Body) (n f : Nat) (prod : Option Nat) : Bool :=
  let x := b.fifo n f
  let sent := b.sent n f
  let free := match x.open_ with
    | some o => decide (o.prod = prod)
    | none => sent.all (fun e => decide (some e = prod))
  x.drops.contains prod ||
  (free && (decide (x.held + sent.length < b.depth n f) || decide (b.depth n f ≤ x.openLen + sent.length)))

/-- The error event of a producer: TI3 of an engine, ERR_EV of the receiver (R154, R197). -/
def Body.prodError (b : Body) (c : Clock) (n : Nat) (prod : Option Nat) (reason : Nat) : Body :=
  match prod with
  | some e => b.tiError (12 * n + e) reason
  | none => if b.rbit (RCV_CTL n) 8 then b.publish c (b.rfld (RCV_CTL n) 2 6) 0 0 false else b

/-- A word lands in a FIFO (R309 to R312). -/
def Body.putWord (b : Body) (c : Clock) (n f : Nat) (prod : Option Nat) (w : Word) (stale : Bool) : Body :=
  let x := b.fifo n f
  if x.drops.contains prod then b
  else
    let words := (match x.open_ with
      | some o => if o.prod = prod then o.words else []
      | none => []) ++ [(w, stale)]
    if b.depth n f < words.length then
      let b := b.setFifo n f { x with open_ := none, drops := x.drops ++ [prod], overFlag := true }
      (((b.count (FIFO_OVERSIZE_COUNT n f) 1).stick MEM_STATUS 9).prodError c n prod 0x81)
    else (b.setFifo n f { x with open_ := some ⟨prod, words⟩ }).perf 0x40 n 1

/-- COMMIT: the open packet is committed; while its producer's words are dropped it only ends the dropping (R311, R312). -/
def Body.commitPkt (b : Body) (c : Clock) (n f : Nat) (prod : Option Nat) : Body :=
  let x := b.fifo n f
  if x.drops.contains prod then b.setFifo n f { x with drops := x.drops.filter (· ≠ prod) }
  else
    match x.open_ with
    | some o =>
      if o.prod = prod then b.setFifo n f { x with open_ := none, done := x.done ++ [⟨o.words, c.cyc + 1, x.com⟩], com := x.com + 1 }
      else b
    | none => b

/-- ABORT: the open packet vanishes; dropping ends (R311, R312). -/
def Body.abortPkt (b : Body) (n f : Nat) (prod : Option Nat) : Body :=
  let x := b.fifo n f
  let x := { x with drops := x.drops.filter (· ≠ prod) }
  b.setFifo n f (if x.owns prod then { x with open_ := none } else x)

/-- An output of an engine to its Result Collector lands (R309). -/
def Body.collect (b : Body) (c : Clock) (g : Nat) : OutKind → Body
  | .emit f w => b.putWord c (g / 12) f (some (g % 12)) w false
  | .commit f => b.commitPkt c (g / 12) f (some (g % 12))
  | .abort f => b.abortPkt (g / 12) f (some (g % 12))
  | _ => b

/-- An output that goes to the Result Collector. -/
def EngOut.result (o : EngOut) : Bool := match o.what with
  | .emit _ _ => true
  | .commit _ => true
  | .abort _ => true
  | _ => false

/-- What an engine has sent to its collector lands before the collector acts on the engine's HALT or STOP (R309). -/
def Body.collectAll (b : Body) (c : Clock) (g : Nat) : Body :=
  let mine := b.outs.filter (fun o => o.result && o.eng == g)
  let b := { b with outs := b.outs.filter (fun o => ! (o.result && o.eng == g)) }
  mine.foldl (fun b o => b.collect c g o.what) b

/-- FIFOs in which an engine has a packet open. -/
def Body.openFifos (b : Body) (g : Nat) : List Nat := (List.range 16).filter (fun f => (b.fifo (g / 12) f).owns (some (g % 12)))

/-- The dropping of an engine's words ends (R312, R313). -/
def Body.endDrops (b : Body) (g : Nat) : Body :=
  (List.range 16).foldl (fun b f =>
    let x := b.fifo (g / 12) f
    b.setFifo (g / 12) f { x with drops := x.drops.filter (· ≠ some (g % 12)) }) b

/-- Rewind every packet an engine has open, each with an error event when `reason` is given (R198, R236). -/
def Body.rewindAll (b : Body) (c : Clock) (g : Nat) (reason : Option Nat) : Body :=
  let b := b.collectAll c g
  let fs := b.openFifos g
  let b := fs.foldl (fun b f => b.abortPkt (g / 12) f (some (g % 12))) b
  let b := match reason with
    | some r => fs.foldl (fun (x : Body) _ => x.tiError g r) b
    | none => b
  b.endDrops g

/-- Flush a FIFO (R313): committed packets are discarded, the open one is rewound and its producer dropped. -/
def Body.flush (b : Body) (c : Clock) (n f : Nat) : Body :=
  let x := b.fifo n f
  match x.open_ with
  | none => b.setFifo n f { x with done := [] }
  | some o =>
    let b := b.setFifo n f { x with done := [], open_ := none, drops := x.drops ++ [o.prod], cut := true }
    ((b.stick MEM_STATUS 10).count (FIFO_CUT_COUNT n f) 1).prodError c n o.prod 0x82

/-- A FIFO is idle while it is unbound and holds no word (R308). -/
def Body.fifoIdle (b : Body) (n f : Nat) : Bool := (b.fifo n f).bind.isNone && (b.fifo n f).held == 0

/-- Sum of the depths of a cove's FIFOs but one, in units of 64 words. -/
def Body.otherDepths (b : Body) (n f : Nat) : Nat :=
  (((List.range 16).filter (· ≠ f)).map (fun k => b.rfld (FIFO_CTL n k) 0 9)).sum

/-- A write of FIFOf_CTL (R308, R313). -/
def Body.writeFifoCtl (b : Body) (c : Clock) (n f : Nat) (v : Reg32) : Body :=
  let d := fld v 0 9
  if d = 0 ∨ 256 < d ∨ 256 < b.otherDepths n f + d ∨ (d ≠ b.rfld (FIFO_CTL n f) 0 9 ∧ ! b.fifoIdle n f) then b.reject MEM_STATUS
  else
    let b := b.rsetFld (FIFO_CTL n f) 0 9 d
    if bit v 16 then b.flush c n f else b

/-- FLUSH: a write of FIFOf_CTL with FLUSH (R313). -/
def execFlush (n : Fin 16) (f : Fin 16) (v : Reg32) (s : State) : Host.Outcome State Fault Refusal :=
  nextBody (fun c b => b.writeFifoCtl c n f v) s

/-- What engines have sent to their collectors and falls due acts at the end of its cycle, so that a flush of the cycle comes first (R309, R313). -/
def Body.landResults (b : Body) (c : Clock) : Body :=
  let due := b.outs.filter (fun o => o.result && decide (o.due ≤ c.cyc))
  let b := { b with outs := b.outs.filter (fun o => ! (o.result && decide (o.due ≤ c.cyc))) }
  due.foldl (fun b o => b.collect c o.eng o.what) b

end Sys2Proof.Machine
end

