-- ==== Sys2Proof/Machine/MemOps.lean ====
section
/-! DEFINITION. The memories: the device address map of the on-die memories (R304), reads with SECDED (R186, R406, R456),
writes with their race rules (R102, R112, R148), packed lines (R7, R8) and bytes of device memory. -/

namespace Sys2Proof.Machine

/-- Device byte address of word `w` of the local data memory of engine `e` (R304). -/
def localAddr (e w : Nat) : Nat := 0xF000000000 + 0x40000 * e + 8 * w
/-- Device byte address of word `w` of the shared memory of cove `n` (R304). -/
def sharedAddr (n w : Nat) : Nat := 0xF100000000 + 0x800000 * n + 8 * w
/-- Device byte address of word `w` of the Envelope RAM of port `p` (R304). -/
def envAddr (p w : Nat) : Nat := 0xF200000000 + 0x40000 * p + 8 * w
/-- Device byte address of word `w` of the kernel RAM of M(n) (R304). -/
def kernAddr (n w : Nat) : Nat := 0xF300000000 + 0x40000 * n + 8 * w
/-- Device byte address of word `w` of Decision Table memory (R304). -/
def tableAddr (w : Nat) : Nat := 0xF400000000 + 8 * w

/-- What an on-die word that nothing has written reads as (log entry 5). -/
def dieDefault : Word := 0
/-- What a byte of device memory that nothing has written reads as (log entry 5). -/
def devDefault : Byte := 0

/-- The word an on-die location holds. -/
def Mem.word (m : Mem) (a : Nat) : Word := m.onDie.get dieDefault a
/-- The error standing at an on-die word or a device line: 0 none, 1 single-bit, 2 double-bit (R186, R305). -/
def Mem.errAt (m : Mem) (a : Nat) : Nat := m.err.get 0 a
/-- A byte of device memory. -/
def Mem.byte (m : Mem) (a : Nat) : Byte := m.dev.get devDefault a

/-- Key of a control-store location of engine pair `p` of cove `n` in the list of errors: a microword, or a dispatch entry
(R238, R240). -/
def storeKey (n p : Nat) (disp : Bool) (u : Nat) : Nat := 0xF500000000 + 0x1000 * (2 * (6 * n + p) + if disp then 1 else 0) + u

/-- Code of an on-die memory in a SRAM_UNCORR record: 0 local, 1 shared, 2 Envelope, 3 kernel, 4 Decision Table, 5 control
store (R415). -/
def dieCode (a : Nat) : Nat := (a - 0xF000000000) / 2 ^ 32
/-- The cove an on-die word belongs to (R181, R304). -/
def dieCove (a : Nat) : Nat :=
  let o := (a - 0xF000000000) % 2 ^ 32
  match dieCode a with
  | 0 => o / 0x40000 / 12
  | 1 => o / 0x800000
  | 2 => if o / 0x40000 < 64 then o / 0x40000 / 4 else o / 0x40000 - 64
  | 3 => o / 0x40000
  | 5 => o / 0x1000 / 12
  | _ => 0

/-- Report an uncorrectable on-die location: a first detection sends a record, a listed one does not, a full list takes no
more (R456). -/
def Body.reportDie (b : Body) (c : Clock) (loc code cove d1 : Nat) : Body :=
  if b.badDie.contains loc then b
  else
    let b := b.fault c 0x06 (code * 2 ^ 8 + cove * 2 ^ 16) d1
    if b.badDie.length < 64 then { b with badDie := b.badDie ++ [loc] } else b

/-- Count a SECDED event of an on-die read (R186, R406); a double-bit error of a control store counts once while it stands (R240). -/
def Body.dieError (b : Body) (c : Clock) (a kind : Nat) : Body :=
  let t := dieCode a = 4
  if kind = 1 then
    if t then b.count DT_CORR_COUNT 1
    else (b.count (MEM_CORR_COUNT (dieCove a)) 1).gatherFlag c (dieCove a) 24
  else if kind = 2 ∧ dieCode a = 5 ∧ a ∈ b.badDie then b
  else if kind = 2 then
    let b := if t then b.count DT_UNCORR_COUNT 1 else b.count (MEM_UNCORR_COUNT (dieCove a)) 1
    let o := a - 0xF500000000
    let d1 := if dieCode a = 5 then o % 0x1000 + 0x1000 * (o / 0x2000 % 6) else a
    b.reportDie c a (dieCode a) (dieCove a) d1
  else b

/-- What reading an on-die word does to the block: its error counted and reported. -/
def Body.noteRead (b : Body) (c : Clock) (m : Mem) (a : Nat) : Body :=
  if m.errAt a = 0 then b else b.dieError c a (m.errAt a)

/-- A read writes a corrected word back, so a single-bit error is gone (R186). -/
def Mem.afterRead (m : Mem) (a : Nat) : Mem := if m.errAt a = 1 then { m with err := m.err.put 0 a 0 } else m

/-- The word a reader other than an engine gets: zero where the error is uncorrectable (R406). -/
def Mem.soft (m : Mem) (a : Nat) : Word := if m.errAt a = 2 then 0 else m.word a

/-- A write stores the word with fresh check bits and removes any error (R186). -/
def Mem.putWord (m : Mem) (a : Nat) (w : Word) : Mem :=
  { m with onDie := m.onDie.put dieDefault a w, err := m.err.put 0 a 0 }

/-- Does a running pulse of a port read word `w` of its range (R102, R112)? A flux pulse reads cove shared memory. -/
def Emission.readsAddr (p : Emission) (c : Clock) (flux : Bool) (w : Nat) : Bool :=
  let op := fld p.w1 32 4
  let a := if flux then fld p.w2 0 20 else fld p.w2 0 15
  p.on c && (op == 1 || op == 2) && decide (a ≤ w) && decide (w < a + p.len)

/-- The Envelope or wave word of a port at a device address, if it is one (R102, R112, R304). -/
def portWord (q a : Nat) : Option Nat :=
  if q < 80 then (if envAddr q 0 ≤ a ∧ a < envAddr (q + 1) 0 then some ((a - envAddr q 0) / 8) else none)
  else if sharedAddr ((q - 80) / 2) 0 ≤ a ∧ a < sharedAddr ((q - 80) / 2 + 1) 0 then some ((a - sharedAddr ((q - 80) / 2) 0) / 8)
  else none

/-- A write of this cycle has landed in the range of a pulse that starts in it (R102, R112). -/
def Body.racedNow (b : Body) (c : Clock) (q : Nat) (p : Emission) : Bool :=
  b.log.writes.any (fun a => match portWord q a with
    | some w => p.readsAddr c (decide (80 ≤ q)) w
    | none => false)

/-- ENV_RACE on port `q` when a write lands in the range of a running pulse (R102, R112). -/
def Body.envRace (b : Body) (c : Clock) (q w : Nat) : Body :=
  if (b.comp q).run.any (fun p => p.readsAddr c (decide (80 ≤ q)) w) then b.portFlag c q 6 else b

/-- Cycle in which weight `m` of a window is read: its last pin sample plus the 46 cc of R150 (R148). -/
def Window.weightRead (w : Window) (m : Nat) : Nat := w.start + (w.samp + 16 * m + 15) / 8 + 46

/-- A kernel write into the range of an open window: KERNEL_RACE, and a weight already read keeps its old value (R148). -/
def Window.kernelWrite (w : Window) (c : Clock) (dem weight : Nat) (old : Word) : Window :=
  let koff := fld w.cmd.w2 11 11
  let n := fld w.cmd.w2 0 11 + 1
  if w.isOpen && bit w.cmd.w1 (12 + dem) && decide (koff ≤ weight) && decide (weight < koff + n) then
    let race := if c.cyc ≤ w.fin then w.race ||| 2 ^ dem else w.race
    let key := 2048 * dem + weight
    if w.weightRead (weight - koff) < c.cyc && ! w.old.any (fun e => e.1 = key) then
      { w with race := race, old := (key, old) :: w.old }
    else { w with race := race }
  else w

/-- The races a write of an on-die word raises, before it lands (R102, R112, R148). -/
def Body.writeRaces (b : Body) (c : Clock) (m : Mem) (a : Nat) : Body :=
  let o := (a - 0xF000000000) % 2 ^ 32
  match dieCode a with
  | 1 =>
    let n := o / 0x800000
    let w := o % 0x800000 / 8
    (b.envRace c (80 + 2 * n) w).envRace c (81 + 2 * n) w
  | 2 => b.envRace c (o / 0x40000) (o % 0x40000 / 8)
  | 3 =>
    let n := o / 0x40000
    let w := o % 0x40000 / 8
    let r := b.recv n
    let wins := r.wins.map (fun x => x.kernelWrite c (w / 2048) (w % 2048) (m.word a))
    b.setRecv n { r with wins := wins }
  | _ => b

/-- A location written whole leaves the list of bad locations (R456). -/
def Body.clearBad (b : Body) (a : Nat) : Body :=
  if b.badDie.contains a then { b with badDie := b.badDie.filter (· ≠ a) } else b

/-- What a write of an on-die word does to the block. -/
def Body.noteWrite (b : Body) (c : Clock) (m : Mem) (a : Nat) : Body :=
  let b := (b.writeRaces c m a).clearBad a
  { b with log := { b.log with writes := a :: b.log.writes } }

/-- Write one on-die word of the machine (R102, R186). -/
def storeWord (s : State) (a : Nat) (w : Word) : State :=
  { s with mem := s.mem.putWord a w, body := s.body.noteWrite s.clock s.mem a }

/-- Write words at consecutive locations. -/
def storeWords (s : State) (a : Nat) : List Word → State
  | [] => s
  | w :: t => storeWords (storeWord s a w) (a + 8) t

/-! ### Packed lines (R7, R8) -/

/-- The tag of a packed line, bits [511:504]. -/
def lineTag (l : BitVec 512) : Nat := fld l 504 8
/-- COUNT of a line's tag. -/
def lineCount (l : BitVec 512) : Nat := fld l 504 4
/-- A line R8 accepts: COUNT is neither 0 nor 15. -/
def lineOk (l : BitVec 512) : Bool := lineCount l != 0 && lineCount l != 15
/-- The valid words of a line. -/
def lineWords (l : BitVec 512) : List Word := (List.range (lineCount l)).map (fun k => BitVec.ofNat 36 (fld l (36 * k) 36))
/-- Build a packed line from at most 14 words. -/
def packLine (ws : List Word) (first last stale : Bool) : BitVec 512 :=
  let body := (ws.zipIdx.map (fun e => e.1.toNat * 2 ^ (36 * e.2))).sum
  let tag := ws.length + (if first then 16 else 0) + (if last then 32 else 0) + (if stale then 64 else 0)
  BitVec.ofNat 512 (body + tag * 2 ^ 504)
/-- The 64 bytes of a line. -/
def lineBytes (l : BitVec 512) : List Byte := leBytes 64 l.toNat

/-! ### Device memory -/

/-- `n` bytes of device memory from address `a`. -/
def Mem.bytes (m : Mem) (a n : Nat) : List Byte := (List.range n).map (fun i => m.byte (a + i))
/-- Write bytes of device memory. -/
def Mem.putBytes (m : Mem) (a : Nat) : List Byte → Mem
  | [] => m
  | x :: t => ({ m with dev := m.dev.put devDefault a x }).putBytes (a + 1) t
/-- The line at an aligned address. -/
def Mem.line (m : Mem) (a : Nat) : BitVec 512 := BitVec.ofNat 512 (ofBytes (m.bytes a 64))
/-- A whole line is written with fresh check bits (R305). -/
def Mem.putLine (m : Mem) (a : Nat) (l : BitVec 512) : Mem :=
  let m := m.putBytes a (lineBytes l)
  { m with err := m.err.put 0 a 0 }

end Sys2Proof.Machine
end

