-- ==== Sys2Proof/Machine/Fabric.lean ====
section
/-! DEFINITION. The Decision Fabric: slots and their validity, publication and the merge buffer, views, remote slots, and
Decision Tables (R159 to R178). -/

namespace Sys2Proof.Machine

/-! ### Validity and reading -/

/-- A slot valid for the current epoch (R159). -/
def Slot.current (x : Slot) (epoch : Nat) : Bool := x.valid && x.epoch == epoch

/-- Key of a mirror entry (R167). -/
def mirrorKey (d n : Nat) : Nat := 1024 * d + n
/-- Key of a slot in a cove's view (R164). -/
def viewKey (cove n : Nat) : Nat := 1024 * cove + n

/-- The copy of slot `n` of device `d` that cove `cove` reads: its view of a local slot, or the mirror (R167, R168). -/
def Body.seenSlot (b : Body) (cove d n : Nat) : Slot :=
  if d = b.devId then (b.fab.views.get .reset (viewKey cove n)).slot else b.fab.mirror.get .reset (mirrorKey d n)

/-- The copy of slot `n` of device `d` that Decision Tables read: the slot store, or the mirror (R170). -/
def Body.storedSlot (b : Body) (d n : Nat) : Slot :=
  if d = b.devId then b.fab.store.get .reset n else b.fab.mirror.get .reset (mirrorKey d n)

/-- Decision Table `t`. -/
def Body.table (b : Body) (t : Nat) : DTable := b.fab.tables.get .reset t
def Body.setTable (b : Body) (t : Nat) (x : DTable) : Body :=
  { b with fab := { b.fab with tables := b.fab.tables.put .reset t x } }

/-- The result of a table, if it is valid for the current epoch (R171, R173). -/
def Body.tableResult (b : Body) (t : Nat) : Option Word :=
  let x := b.table t
  match x.result with
  | some (w, e, _) => if x.en && e == b.epoch then some w else none
  | none => none

/-- The condition a fork pair reads (R91, R100, R168): the selected bit, or none where the slot or result is not valid. -/
def Body.condition (b : Body) (cove : Nat) (csrc : Bool) (csel : Nat) : Option Bool :=
  if csrc then
    match b.tableResult (bitsAt csel 10 3) with
    | some w => some (bit w (bitsAt csel 3 7))
    | none => none
  else
    let x := b.seenSlot cove (bitsAt csel 13 4) (bitsAt csel 3 10)
    if x.current b.epoch then some (x.value.testBit (bitsAt csel 0 3)) else none

/-! ### Decision Tables -/

/-- Index width of table `t` (R169). -/
def Body.tableW (b : Body) (t : Nat) : Nat := b.rfld (DT_CFG t) 1 5
/-- First word of table `t` (R169). -/
def Body.tableBase (b : Body) (t : Nat) : Nat := b.rfld (DT_CFG t) 6 20
/-- The source slot of index bit `m` (R170). -/
def Body.tableSource (b : Body) (t m : Nat) : Slot :=
  b.storedSlot (b.rfld (DT_SEL t m) 13 4) (b.rfld (DT_SEL t m) 3 10)
/-- A table is complete when every source slot is valid for the current epoch (R171). -/
def Body.tableComplete (b : Body) (t : Nat) : Bool :=
  (List.range (b.tableW t)).all (fun m => (b.tableSource t m).current b.epoch)
/-- The index of a table (R170). -/
def Body.tableIndex (b : Body) (t : Nat) : Nat :=
  ((List.range (b.tableW t)).map (fun m =>
    if (b.tableSource t m).value.testBit (b.rfld (DT_SEL t m) 0 3) then 2 ^ m else 0)).sum
/-- Does slot `n` of device `d` feed table `t`? -/
def Body.feeds (b : Body) (t d n : Nat) : Bool :=
  (List.range (b.tableW t)).any (fun m => b.rfld (DT_SEL t m) 13 4 == d && b.rfld (DT_SEL t m) 3 10 == n)

/-- A source update: a valid result or a lookup in flight is invalidated, and a lookup falls due (R171, R172). -/
def Body.touchTable (b : Body) (t : Nat) : Body :=
  let x := b.table t
  if ! x.en then b
  else
    let live := x.flight.isSome || (b.tableResult t).isSome
    let b := b.setTable t { x with result := none, flight := none, trig := true }
    if live then (b.count (DT_INVAL_COUNT t) 1).decFlag 4 else b

/-- Tell every table that a source slot was updated. -/
def Body.slotTouched (b : Body) (d n : Nat) : Body :=
  (List.range 8).foldl (fun b t => if b.feeds t d n then b.touchTable t else b) b

/-- TABLE_LOOKUP: a complete, enabled table with a lookup due starts it (R171). -/
def Body.tableLookup (b : Body) (c : Clock) (t : Nat) : Body :=
  let x := b.table t
  if x.en && x.trig && b.tableComplete t then
    let age (m : Nat) : Int := resolveTide c.now (b.tableSource t m).stamp
    let stamp := (List.range (b.tableW t)).foldl (fun best m => if age best < age m then m else best) 0
    let l : Lookup := ⟨c.cyc, b.tableIndex t, (b.tableSource t stamp).stamp, b.epoch, none⟩
    (b.setTable t { x with trig := false, flight := some l }).count (DT_LOOKUP_COUNT t) 1
  else b

/-- TABLE_LOOKUP (R171). -/
def execTableLookup (t : Fin 8) (s : State) : Host.Outcome State Fault Refusal := nextBody (fun c b => b.tableLookup c t) s

/-- 4 cc after its start a lookup reads its word (R171, R406). -/
def tableRead (s : State) (t : Nat) : State :=
  let x := s.body.table t
  match x.flight with
  | some l =>
    if l.word.isNone && decide (l.start + 4 ≤ s.clock.cyc) then
      let a := tableAddr (s.body.tableBase t + l.idx)
      let w := if s.mem.errAt a = 2 then none else some (s.mem.word a)
      let b := s.body.noteRead s.clock s.mem a
      { s with mem := s.mem.afterRead a, body := b.setTable t { x with flight := some { l with word := some w } } }
    else s
  | none => s

/-- TABLE_RESULT_LAND: 5 cc after its start a lookup's result is valid in every cove (R171, R172). -/
def Body.tableLand (b : Body) (c : Clock) (t : Nat) : Body :=
  let x := b.table t
  match x.flight with
  | some l =>
    match l.word with
    | some w =>
      if l.start + 5 ≤ c.cyc then
        match w with
        | some v => b.setTable t { x with flight := none, result := some (v, l.epoch, l.stamp), last := v, lastEpoch := l.epoch }
        | none => b.setTable t { x with flight := none }
      else b
    | none => b
  | none => b

/-- TABLE_RESULT_LAND (R171). -/
def execTableResultLand (t : Fin 8) (s : State) : Host.Outcome State Fault Refusal := nextBody (fun c b => b.tableLand c t) s

/-- DTt_CFG is refused for W outside 1 to 20, a BASE that is no multiple of 2^W, and a change of W or BASE while EN is 1
(R169, R178). -/
def Body.dtCfgAllowed (b : Body) (t : Nat) (v : Reg32) : Bool :=
  let w := fld v 1 5
  ! (b.rbit (DT_CFG t) 0 && fld v 1 25 != b.rfld (DT_CFG t) 1 25) &&
  decide (1 ≤ w) && decide (w ≤ 20) && fld v 6 20 % 2 ^ w == 0

/-- EN of a table takes effect (R171, R173). -/
def Body.applyTableEn (b : Body) (t : Nat) (on : Bool) : Body :=
  let x := b.table t
  if on then b.setTable t { x with en := true, enNext := none, trig := true }
  else b.setTable t { x with en := false, enNext := none, trig := false, flight := none, result := none }

/-- A write of DTt_CFG: EN applies at the next Slack commit point, or at once while the grid is stopped (R173). -/
def Body.writeDtCfg (b : Body) (t : Nat) (v : Reg32) : Body :=
  if b.dtCfgAllowed t v then
    let b := b.rset (DT_CFG t) (v &&& 0x03FFFFFF)
    if b.gridRun then b.setTable t { b.table t with enNext := some (bit v 0) } else b.applyTableEn t (bit v 0)
  else b.reject DEC_STATUS

/-- TABLE_EN: a write of EN in DTt_CFG (R173). -/
def execTableEn (t : Fin 8) (v : Reg32) (s : State) : Host.Outcome State Fault Refusal :=
  nextBody (fun _ b => b.writeDtCfg t v) s

/-- Staged table enables apply at a Slack commit point (R173). -/
def Body.tablesCommit (b : Body) : Body :=
  (List.range 8).foldl (fun b t =>
    match (b.table t).enNext with
    | some on => b.applyTableEn t on
    | none => b) b

/-! ### Storing an update (R162 to R166) -/

/-- Is the update stored (R162)? -/
def storable (cur : Slot) (epoch now : Nat) : Bool := epoch == now || ! cur.current now

/-- A cove view applies an update unless it already shows a later one (R166). -/
def Body.viewApply (b : Body) (cove n : Nat) (x : ViewSlot) : Body :=
  let cur := b.fab.views.get .reset (viewKey cove n)
  if cur.ord ≤ x.ord then { b with fab := { b.fab with views := b.fab.views.put .reset (viewKey cove n) x } } else b

/-- Slot `n` is exported on the ring (R79). -/
def Body.exported (b : Body) (n : Nat) : Bool := bit (b.ring.exportAct.get 0 (n / 32)) (n % 32)

/-- One update reaches the slot store; `seen` lists the slots stored in this cycle, for the clash count (R162, R165). -/
def Body.storeUpd (b : Body) (c : Clock) (seen : List Nat) (u : SlotUpd) : Body × List Nat :=
  let cur := b.fab.store.get .reset u.slot
  if storable cur u.epoch b.epoch then
    let x : Slot := ⟨u.val, true, u.epoch, u.stamp⟩
    let ord := b.fab.ord + 1
    let b := { b with fab := { b.fab with
      store := b.fab.store.put .reset u.slot x, ord := ord,
      viewQ := b.fab.viewQ ++ [(⟨u.cove, u.slot, x, ord, u.due + 4⟩ : ViewUpd)] } }
    let b := b.viewApply u.cove u.slot ⟨x, ord⟩
    let b := b.slotTouched b.devId u.slot
    let b := if seen.contains u.slot then (b.count CLASH_COUNT 1).decFlag 2 else b
    let b := if b.exported u.slot && u.epoch == b.epoch && b.canSend then
        { b with ring := { b.ring with decOut := b.ring.decOut ++ [⟨u.slot, u.val, u.epoch, u.stamp⟩] } }
      else b
    (b, u.slot :: seen)
  else ((b.count STALE_COUNT 1).decFlag 3, seen)

/-- Insert in the order of R165: outcomes in buffer order, then engine publications by ascending cove. -/
def insertUpd (u : SlotUpd) : List SlotUpd → List SlotUpd
  | [] => [u]
  | x :: t =>
    if u.cls < x.cls ∨ (u.cls = x.cls ∧ u.cls = 2 ∧ u.cove < x.cove) then u :: x :: t else x :: insertUpd u t

/-- The updates due in this cycle reach the slot store, then the views they are due in (R164). -/
def Body.fabricDue (b : Body) (c : Clock) : Body :=
  let due := (b.fab.flight.filter (fun u => decide (u.due ≤ c.cyc))).foldl (fun l u => insertUpd u l) []
  let rest := b.fab.flight.filter (fun u => ! decide (u.due ≤ c.cyc))
  let b := { b with fab := { b.fab with flight := rest } }
  let b := (due.foldl (fun (p : Body × List Nat) u => p.1.storeUpd c p.2 u) (b, [])).1
  let vs := b.fab.viewQ.filter (fun v => decide (v.due ≤ c.cyc))
  let b := { b with fab := { b.fab with viewQ := b.fab.viewQ.filter (fun v => ! decide (v.due ≤ c.cyc)) } }
  vs.foldl (fun b v =>
    (List.range 16).foldl (fun b n => if n = v.cove then b else b.viewApply n v.num ⟨v.slot, v.ord⟩) b) b

/-- A ring update of device `d` reaches its mirror entry (R161, R162, R167). -/
def Body.mirrorUpd (b : Body) (d n val epoch stamp : Nat) : Body :=
  let k := mirrorKey d n
  let cur := b.fab.mirror.get .reset k
  let b : Body := { b with log := { b.log with imports := b.log.imports ++ [(k, ⟨val, true, epoch, stamp⟩)] } }
  if storable cur epoch b.epoch then
    let clash := b.log.mir.contains k
    let b := { b with fab := { b.fab with mirror := b.fab.mirror.put .reset k ⟨val, true, epoch, stamp⟩ },
                      log := { b.log with mir := k :: b.log.mir } }
    let b := (b.count IMPORT_COUNT 1).perf 0x52 0 1
    let b := if clash then (b.count CLASH_COUNT 1).decFlag 2 else b
    b.slotTouched d n
  else (b.count STALE_COUNT 1).decFlag 3

/-- The import lane of a ring takes an update: it has its update of this cycle. -/
def Body.importNow (b : Body) (u : ImportUpd) : Body :=
  ({ b with log := { b.log with lanes := u.ringB :: b.log.lanes } } : Body).mirrorUpd u.dev u.slot u.val u.epoch u.stamp

/-- The lane of a ring is free: it has taken no update in this cycle and none waits for it. -/
def Body.importFree (b : Body) (ringB : Bool) : Bool := ! b.log.lanes.contains ringB && ! b.fab.imports.any (fun u => u.ringB == ringB)

/-- A ring update reaches the fabric at one per cc from each ring; behind others it waits (R161). -/
def Body.importUpd (b : Body) (u : ImportUpd) : Body :=
  if b.importFree u.ringB then b.importNow u else { b with fab := { b.fab with imports := b.fab.imports ++ [u] } }

/-- At the start of a cycle the oldest waiting update of a ring passes. -/
def Body.importDue (b : Body) (ringB : Bool) : Body :=
  match b.fab.imports.find? (fun u => u.ringB == ringB) with
  | some u => ({ b with fab := { b.fab with imports := b.fab.imports.erase u } } : Body).importNow u
  | none => b

/-! ### The outcome path (R163) -/

/-- Order outcomes of one cycle by input and demodulator (R163). -/
def insertOutcome (u : SlotUpd) : List SlotUpd → List SlotUpd
  | [] => [u]
  | x :: t =>
    if u.cove < x.cove ∨ (u.cove = x.cove ∧ u.dem < x.dem) then u :: x :: t else x :: insertOutcome u t

/-- An outcome finds room in the merge buffer or is dropped (R163). -/
def Body.enterMerge (b : Body) (u : SlotUpd) : Body :=
  if b.fab.buffer.length < 512 then
    let b := { b with fab := { b.fab with buffer := b.fab.buffer ++ [u] } }
    let b := if b.rnat SPRING_PEAK < b.fab.buffer.length then b.rset SPRING_PEAK (r32 b.fab.buffer.length) else b
    (b.decFlag 0).perf 0x32 0 1
  else (b.count DROP_COUNT 1).decFlag 1

/-- At the end of a cycle its outcomes go straight to the slot store if the buffer was empty in it, or into the merge buffer (R163, R164). -/
def Body.outcomesEnd (b : Body) (c : Clock) : Body :=
  let l := b.fab.arrivals.foldl (fun a u => insertOutcome u a) []
  let b := { b with fab := { b.fab with arrivals := [] } }
  if l.isEmpty then b
  else if b.fab.buffer.isEmpty && ! b.log.merged && decide (l.length ≤ 32) then
    let b := { b with fab := { b.fab with flight := b.fab.flight ++ l.map (fun (u : SlotUpd) => { u with due := c.cyc + 2 }) } }
    (b.count PUB_COUNT l.length).perf 0x31 0 l.length
  else l.foldl (fun b u => b.enterMerge u) b

/-- MERGE_PASS: each cycle the 32 oldest outcomes of the merge buffer pass to the slot store (R163). -/
def Body.mergePass (b : Body) (c : Clock) : Body :=
  if b.log.merged || b.fab.buffer.isEmpty then b
  else
    let l := b.fab.buffer.take 32
    let b := { b with fab := { b.fab with buffer := b.fab.buffer.drop 32,
                                          flight := b.fab.flight ++ l.map (fun (u : SlotUpd) => { u with due := c.cyc + 2 }) },
                      log := { b.log with merged := true } }
    (b.count PUB_COUNT l.length).perf 0x31 0 l.length

/-- MERGE_PASS (R163). -/
def execMergePass (s : State) : Host.Outcome State Fault Refusal := nextBody (fun c b => b.mergePass c) s

/-- Engine `g` publishes: the lane of its cove has its update of this cycle, and the update carries the epoch and time of its issue (R161); it
reaches the fabric 2 cc later, 3 cc in Guarded mode (R194, R204), and the store 2 cc after that (R164). -/
def Body.publishSlot (b : Body) (c : Clock) (g n val : Nat) (guarded : Bool) : Body :=
  { b with fab := { b.fab with lane := b.fab.lane.put 0 (g / 12) (c.cyc + 1),
                               flight := b.fab.flight ++ [⟨n, val, b.epoch, c.short, 2, g / 12, g % 12, c.cyc + (if guarded then 5 else 4)⟩] } }

/-! ### Register reads with snapshots (R178) -/

/-- SLOT_PEEK_READ: the selected slot, with its stamp snapshot (R178). -/
def Body.slotPeek (b : Body) : Body :=
  let x := b.storedSlot (b.rfld SLOT_PEEK_SEL 0 4) (b.rfld SLOT_PEEK_SEL 4 10)
  let v := r32 (x.value + (if x.valid then 2 ^ 8 else 0) + (if x.current b.epoch then 2 ^ 9 else 0) + x.epoch * 2 ^ 16)
  let b := b.rset SLOT_PEEK v
  let b := b.rset SLOT_PEEK_STAMP_LO (r32 x.stamp)
  (b.rset SLOT_PEEK_STAMP_HI (r32 (x.stamp / 2 ^ 32))).emitOut (.regValue SLOT_PEEK v)

/-- SLOT_PEEK_READ (R178). -/
def execSlotPeekRead (s : State) : Host.Outcome State Fault Refusal := nextBody (fun _ b => b.slotPeek) s

/-- DT_RESULT_LO_READ: the last result of a table, with its high half and status snapshot (R178). -/
def Body.dtResultRead (b : Body) (t : Nat) : Body :=
  let x := b.table t
  let st := r32 ((if (b.tableResult t).isSome then 1 else 0) + (if x.flight.isSome then 2 else 0) +
    (if b.tableComplete t then 4 else 0) + x.lastEpoch * 2 ^ 16)
  let lo := BitVec.ofNat 32 x.last.toNat
  let b := b.rset (DT_RESULT_LO t) lo
  let b := b.rset (DT_RESULT_HI t) (r32 (fld x.last 32 4))
  (b.rset (DT_STATUS t) st).emitOut (.regValue (DT_RESULT_LO t) lo)

/-- DT_RESULT_LO_READ (R178). -/
def execDtResultLoRead (t : Fin 8) (s : State) : Host.Outcome State Fault Refusal := nextBody (fun _ b => b.dtResultRead t) s

/-- CNT_CLR of the DEC block (R178). -/
def Body.decClear (b : Body) : Body :=
  let b := [PUB_COUNT, DROP_COUNT, CLASH_COUNT, STALE_COUNT, IMPORT_COUNT, DT_CORR_COUNT, DT_UNCORR_COUNT].foldl
    (fun b k => b.clearCount k) (b.rset SPRING_PEAK 0)
  (List.range 8).foldl (fun b t => (b.clearCount (DT_LOOKUP_COUNT t)).clearCount (DT_INVAL_COUNT t)) b

end Sys2Proof.Machine
end

