-- ==== Sys2Proof/Machine/Operands.lean ====
section
/-! DEFINITION. Operands of Yosum instructions: the fields of bits [27:0] (R209), the registers of an engine (R179, R215),
the address registers and their modes (R187, R188). -/

namespace Sys2Proof.Machine

/-! ### Fields of an instruction (R209) -/

/-- rd, rs, or the source of a store. -/
def fRd (f : BitVec 28) : Nat := fld f 23 5
/-- ra or rc. -/
def fRa (f : BitVec 28) : Nat := fld f 18 5
/-- rb. -/
def fRb (f : BitVec 28) : Nat := fld f 13 5
/-- MOD of format R. -/
def fMod (f : BitVec 28) : Nat := fld f 0 13
/-- IMM of format I. -/
def fImm (f : BitVec 28) : BitVec 18 := BitVec.ofNat 18 f.toNat
/-- IMM23 of format L. -/
def fImm23 (f : BitVec 28) : BitVec 23 := BitVec.ofNat 23 f.toNat
/-- COND of format B. -/
def fCond (f : BitVec 28) : Nat := fld f 24 4
/-- TARGET of format B. -/
def fTarget (f : BitVec 28) : Nat := fld f 0 24
/-- An of format M. -/
def fAn (f : BitVec 28) : Nat := fld f 20 3
/-- NU of format M. -/
def fNu (f : BitVec 28) : Bool := bit f 19
/-- Aa of format K. -/
def fAa (f : BitVec 28) : Nat := fld f 15 3
/-- Ab of format K. -/
def fAb (f : BitVec 28) : Nat := fld f 12 3
/-- Ad of format K. -/
def fAd (f : BitVec 28) : Nat := fld f 9 3
/-- The accumulator number within MOD. -/
def fAcc (f : BitVec 28) : Nat := fld f 6 2
/-- The shift within MOD. -/
def fSh (f : BitVec 28) : Nat := fld f 0 6
/-- The FIFO number within MOD. -/
def fFifo (f : BitVec 28) : Nat := fld f 0 4
/-- REL of an issue instruction (R224). -/
def fRel (f : BitVec 28) : Nat := fld f 0 2

/-! ### Registers of an engine -/

/-- A general register; G0 reads zero (R215). -/
def Engine.reg (x : Engine) (r : Nat) : Word := if r = 0 then 0 else x.g.get 0 r
/-- Write a general register; a write to G0 is discarded (R215). -/
def Engine.setReg (x : Engine) (r : Nat) (w : Word) : Engine := if r = 0 then x else { x with g := x.g.put 0 r w }
/-- An accumulator as an integer. -/
def Engine.accOf (x : Engine) (k : Nat) : Int := (x.acc.get 0 k).toInt
/-- Write an accumulator. -/
def Engine.setAcc (x : Engine) (k : Nat) (v : Int) : Engine := { x with acc := x.acc.put 0 k (BitVec.ofInt 80 v) }
/-- An address register. -/
def Engine.areg (x : Engine) (k : Nat) : AddrReg := x.a.get ⟨0, 0, 0, 0, 0⟩ k
def Engine.setAreg (x : Engine) (k : Nat) (r : AddrReg) : Engine := { x with a := x.a.put ⟨0, 0, 0, 0, 0⟩ k r }

/-- A word as a signed integer. -/
def Word.int (w : Word) : Int := w.toInt
/-- An integer taken modulo 2³⁶. -/
def wordOf (x : Int) : Word := BitVec.ofInt 36 x

/-! ### Address registers (R187, R188) -/

/-- The length, coding 0 meaning 65,536 (R179). -/
def AddrReg.len (r : AddrReg) : Nat := if r.l = 0 then 65536 else r.l.toNat

/-- Reverse the order of the low `m` bits (R188). -/
def revBits : Nat → Nat → Nat
  | 0, _ => 0
  | m + 1, x => x % 2 * 2 ^ m + revBits m (x / 2)

/-- The exponent of a power of two. -/
def log2Of (n : Nat) : Nat := Nat.log2 n

/-- The pointer after an access (R188). -/
def AddrReg.next (r : AddrReg) : AddrReg :=
  let p : Int := r.p.toNat
  let b : Int := r.b.toNat
  let s : Int := r.s.toInt
  let l : Int := r.len
  let q : Int :=
    if r.mode = 0 then p + s
    else if r.mode = 1 then b + (p - b + s) % l
    else
      let m := log2Of r.len
      b + revBits m (((revBits m ((p - b) % l).toNat : Int) + s) % l).toNat
  { r with p := BitVec.ofInt 24 q }

/-- The limits on a loaded configuration (R188). -/
def AddrReg.valid (r : AddrReg) : Bool :=
  r.mode == 0 || r.mode == 1 ||
  (r.mode == 2 && decide (2 ≤ r.len) && r.len == 2 ^ log2Of r.len && r.b.toNat % r.len == 0)

/-- The addresses `n` accesses use, as a first and a last (R221); none where the range leaves the 24-bit space. -/
def AddrReg.range (r : AddrReg) (n : Nat) : Option (Nat × Nat) :=
  if r.mode = 0 then
    let fin : Int := (r.p.toNat : Int) + r.s.toInt * ((n : Int) - 1)
    if fin < 0 ∨ 2 ^ 24 ≤ fin then none else some (min r.p.toNat fin.toNat, max r.p.toNat fin.toNat)
  else some (r.b.toNat, r.b.toNat + r.len - 1)

/-- A range lies within one region of the engine address map (R181, R221). -/
def oneRegion (lo hi : Nat) : Bool :=
  decide (hi ≤ 0x7FFF) || (decide (0x100000 ≤ lo) && decide (hi ≤ 0x1FFFFF)) ||
  (decide (0x200000 ≤ lo) && decide (hi ≤ 0x227FFF) && lo / 0x8000 == hi / 0x8000) ||
  (decide (0x240000 ≤ lo) && decide (hi ≤ 0x247FFF))

end Sys2Proof.Machine
end

