-- ==== Sys2Proof/Machine/Flags.lean ====
section
/-! DEFINITION. Results and flags of the Yosum arithmetic (R189 to R193, R210, R213). The flags are kept in the layout of
S_FLAGS (R180): bit 0 Z, 1 N, 2 C, 3 V, 4 SAT, 5 ACC_SAT. -/

namespace Sys2Proof.Machine

/-- Z and N of a result (R213). -/
def setZN (fl : BitVec 6) (r : Word) : BitVec 6 := setBit (setBit fl 0 (r == 0)) 1 (bit r 35)
def setC (fl : BitVec 6) (x : Bool) : BitVec 6 := setBit fl 2 x
def setV (fl : BitVec 6) (x : Bool) : BitVec 6 := setBit fl 3 x
/-- SAT is sticky: it is only ever set here (R213). -/
def stickSat (fl : BitVec 6) (x : Bool) : BitVec 6 := if x then setBit fl 4 true else fl
/-- ACC_SAT is sticky (R192). -/
def stickAcc (fl : BitVec 6) (x : Bool) : BitVec 6 := if x then setBit fl 5 true else fl

/-- What a two-operand instruction makes of the flags, ra and rb: its result and the new flags. -/
abbrev AluOp := BitVec 6 → Word → Word → Word × BitVec 6

/-- Signed overflow of an exact result. -/
def signedOvf (x : Int) : Bool := ovfS 36 x

/-- ADD: C is the carry out of bit 35, V signed overflow. -/
def aluAdd : AluOp := fun fl a b =>
  let r := a + b
  (r, setV (setC (setZN fl r) (decide (2 ^ 36 ≤ a.toNat + b.toNat))) (signedOvf (a.toInt + b.toInt)))

/-- SUB and CMP: C is 1 when ra ≥ rb unsigned. -/
def aluSub : AluOp := fun fl a b =>
  let r := a - b
  (r, setV (setC (setZN fl r) (decide (b.toNat ≤ a.toNat))) (signedOvf (a.toInt - b.toInt)))

/-- Bitwise results clear C and V. -/
def logicFlags (fl : BitVec 6) (r : Word) : Word × BitVec 6 := (r, setV (setC (setZN fl r) false) false)
def aluAnd : AluOp := fun fl a b => logicFlags fl (a &&& b)
def aluOr : AluOp := fun fl a b => logicFlags fl (a ||| b)
def aluXor : AluOp := fun fl a b => logicFlags fl (a ^^^ b)

/-- A result that sets Z and N alone. -/
def znOnly (fl : BitVec 6) (r : Word) : Word × BitVec 6 := (r, setZN fl r)
/-- The shift count, rb[5:0]. -/
def shiftOf (b : Word) : Nat := fld b 0 6
def aluShl : AluOp := fun fl a b => znOnly fl (a <<< shiftOf b)
def aluShr : AluOp := fun fl a b => znOnly fl (a >>> shiftOf b)
def aluSra : AluOp := fun fl a b => znOnly fl (a.sshiftRight (shiftOf b))
def aluMin : AluOp := fun fl a b => znOnly fl (if a.toInt ≤ b.toInt then a else b)
def aluMax : AluOp := fun fl a b => znOnly fl (if a.toInt ≤ b.toInt then b else a)
/-- TST: flags of ra AND rb, C and V left alone. -/
def aluTst : AluOp := fun fl a b => znOnly fl (a &&& b)

/-- A result that may have been clamped: Z, N, V, and SAT on a clamp (R210, R213). -/
def clampFlags (fl : BitVec 6) (r : Word) (clamped : Bool) : Word × BitVec 6 :=
  (r, stickSat (setV (setZN fl r) clamped) clamped)

/-- ADDS: the sum saturated to 36 bits. -/
def aluAdds : AluOp := fun fl a b =>
  let x := a.toInt + b.toInt
  clampFlags fl (wordOf (satS 36 x)) (ovfS 36 x)

/-- The complex sum with each half saturated to 18 bits, and whether a half clamped. -/
def cadd (a b : Word) : Word × Bool :=
  let i := cI a + cI b
  let q := cQ a + cQ b
  (mkC (satS 18 i) (satS 18 q), ovfS 18 i || ovfS 18 q)

/-- CADD. -/
def aluCadd : AluOp := fun fl a b => clampFlags fl (cadd a b).1 (cadd a b).2

/-- EXT: the field of ra that MOD names, zero- or sign-extended (R210). -/
def extField (m : Nat) (a : Word) : Word :=
  let p := bitsAt m 6 6
  let w := bitsAt m 0 6 + 1
  let x : Int := if m.testBit 12 then a.toInt else a.toNat
  let y : Nat := (x / (2 : Int) ^ p % (2 : Int) ^ w).toNat
  if m.testBit 12 then wordOf (sval w y) else wordOf y

/-- INS: the low bits of `a` put into the field of `old` that MOD names (R210). -/
def insField (m : Nat) (old a : Word) : Word :=
  let p := bitsAt m 6 6
  let w := bitsAt m 0 6 + 1
  let mask : Word := BitVec.ofNat 36 ((2 ^ w - 1) * 2 ^ p)
  (old &&& ~~~mask) ||| (BitVec.ofNat 36 (a.toNat * 2 ^ p) &&& mask)

/-! ### Accumulators (R189 to R192) -/

/-- Add to an accumulator, saturating at 80 bits and setting ACC_SAT (R192). -/
def Engine.accAdd (x : Engine) (k : Nat) (v : Int) : Engine :=
  let y := x.accOf k + v
  { x.setAcc k (satS 80 y) with flags := stickAcc x.flags (ovfS 80 y) }

/-- The halves of a × b, or of a × conj(b), in units of 2⁻³⁴ (R190). -/
def cmul (a b : Word) (conj : Bool) : Int × Int :=
  let q := if conj then -cQ b else cQ b
  (cI a * cI b - cQ a * q, cI a * q + cQ a * cI b)

/-- Accumulate a real product (R189). -/
def Engine.mac (x : Engine) (k : Nat) (a b : Word) (sub : Bool) : Engine :=
  let p := a.toInt * b.toInt
  x.accAdd k (if sub then -p else p)

/-- Accumulate a complex product into the pair k, k + 1 (R190). -/
def Engine.cmac (x : Engine) (k : Nat) (a b : Word) (conj sub : Bool) : Engine :=
  let p := cmul a b conj
  (x.accAdd k (if sub then -p.1 else p.1)).accAdd (k + 1) (if sub then -p.2 else p.2)

/-! ### Narrowing (R191, R193) -/

/-- Bits below the sign bit that equal it, for a signed value of n + 1 bits (R193). -/
def headroom (n : Nat) (v : Int) : Nat :=
  let u : Nat := if v < 0 then (-v - 1).toNat else v.toNat
  n - (if u = 0 then 0 else Nat.log2 u + 1)

/-- A narrowed word, whether it clamped, and its headroom. -/
structure Narrowed where
  word : Word
  clamped : Bool
  head : Nat
  deriving DecidableEq, Repr

/-- Real narrowing by s (R191). -/
def narrowReal (v : Int) (s : Nat) : Narrowed :=
  let y := shrEven v s
  ⟨wordOf (satS 36 y), ovfS 36 y, if ovfS 36 y then 0 else headroom 35 y⟩

/-- Complex narrowing by s (R191). -/
def narrowCplx (vi vq : Int) (s : Nat) : Narrowed :=
  let i := shrEven vi s
  let q := shrEven vq s
  let cl := ovfS 18 i || ovfS 18 q
  ⟨mkC (satS 18 i) (satS 18 q), cl, if cl then 0 else min (headroom 17 i) (headroom 17 q)⟩

/-- A narrowing updates BEXP and, on a clamp, SAT (R191, R193); V is `v`. -/
def Engine.narrowed (x : Engine) (r : Narrowed) (v : Bool) : Engine :=
  { x with bexp := min x.bexp r.head, flags := stickSat (setV x.flags v) r.clamped }

/-! ### Conditions (R213) -/

/-- A branch condition; none for a reserved code. -/
def condHolds (fl : BitVec 6) (cond : Nat) : Option Bool :=
  let z := bit fl 0
  let n := bit fl 1
  let c := bit fl 2
  let v := bit fl 3
  match cond with
  | 0 => some true
  | 1 => some z
  | 2 => some (! z)
  | 3 => some n
  | 4 => some (! n)
  | 5 => some c
  | 6 => some (! c)
  | 7 => some v
  | 8 => some (! v)
  | 9 => some (n != v)
  | 10 => some (n == v)
  | 11 => some (! z && n == v)
  | 12 => some (z || n != v)
  | 13 => some (bit fl 4)
  | _ => none

end Sys2Proof.Machine
end

