-- ==== Sys2Proof/Machine/Engine.lean ====
section
/-! DEFINITION. The Yosum engine as its instructions use it: the pair that carries it, its state, faults, fetch, the memories
it reaches (R179 to R186, R198 to R205, R244). -/

namespace Sys2Proof.Machine

/-! ### Names and states -/

/-- Guarded mode of cove `n` (R200). -/
def Body.guarded (b : Body) (n : Nat) : Bool := b.rbit (COVE_CTL n) 0

/-- The physical pair that carries logical pair `p` of cove `n` (R202). -/
def Body.pairOf (b : Body) (n p : Nat) : Nat := b.rfld (PAIR_MAP n) (3 * p) 3

/-- The physical engine whose state engine `g` uses: itself in Open mode, in Guarded mode the even twin of the pair that
carries its logical pair; the odd twin holds the same values (R202, R204). -/
def Body.phys (b : Body) (g : Nat) : Nat :=
  if b.guarded (g / 12) then 12 * (g / 12) + 2 * b.pairOf (g / 12) (g % 12 / 2) else g

/-- The pair `p` of cove `n` is the spare (R201). -/
def Body.isSpare (b : Body) (n p : Nat) : Bool := p == b.rfld (COVE_CTL n) 2 3

/-- The odd twin of an active pair (R201). -/
def Body.oddTwin (b : Body) (g : Nat) : Bool := b.guarded (g / 12) && g % 2 == 1 && ! b.isSpare (g / 12) (g % 12 / 2)

/-- The engine whose ENGe registers name `g`: the logical engine of an active pair, else itself (R201). -/
def Body.leader (b : Body) (g : Nat) : Nat := if b.oddTwin g then g - 1 else g

/-- STATE of an engine (R198). -/
def Body.engState (b : Body) (g : Nat) : Nat := b.rfld (ENG_STATUS (b.leader g)) 0 3
/-- What the slot accounting needs of a change of STATE: a wait begins with a retired slot, and an engine that leaves RUNNING and WAITING
has had its slot in this cycle (R422). -/
def Body.slotMark (b : Body) (g st : Nat) : Body :=
  if st = 3 then b.perf 0x10 (b.leader g) 1
  else if (b.engState g = 2 ∨ b.engState g = 3) ∧ st ≠ 2 then b.perf 0x18 (b.leader g) 1
  else b
/-- Set STATE. -/
def Body.setEngState (b : Body) (g st : Nat) : Body := (b.slotMark g st).rsetFld (ENG_STATUS (b.leader g)) 0 3 st

/-- The state of the physical engine behind engine `g`. -/
def Body.eng (b : Body) (g : Nat) : Engine := b.engs.get .reset (b.phys g)

/-- An engine that may carry its instruction out, addressed by its logical name: RUNNING, or WAITING in a stall; a mismatch that is to act
lets it only end the instruction it stalls in (R198, R201, R205, R222). -/
def Body.mayIssue (b : Body) (g : Nat) : Bool :=
  let x := b.eng g
  (b.engState g == 2 || (b.engState g == 3 && x.stall.isSome)) && ! b.oddTwin g && (x.twin.isNone || x.stall.isSome)

/-- An engine that fetches and executes: no instruction begins once a STOP waits (R198). -/
def Body.runs (b : Body) (g : Nat) : Bool := b.mayIssue g && ! (b.eng g).stop
def Body.setEng (b : Body) (g : Nat) (x : Engine) : Body := { b with engs := b.engs.put .reset (b.phys g) x }
def State.eng (s : State) (g : Nat) : Engine := s.body.eng g
def State.setEng (s : State) (g : Nat) (x : Engine) : State := { s with body := s.body.setEng g x }

def Body.cove (b : Body) (n : Nat) : CoveSt := b.coves.get .reset n
def Body.setCove (b : Body) (n : Nat) (x : CoveSt) : Body := { b with coves := b.coves.put .reset n x }

/-! ### Faults (R199, R205, R206) -/

/-- The engine leaves RUNNING or WAITING: a wait, a stall, a resumption and a waiting STOP are gone. -/
def Engine.quiet (x : Engine) : Engine :=
  { x with wait := none, resume := none, stop := false, stall := none, twin := none, cont := none }

/-- An instruction faults: FAULTED, cause and PC recorded, ENG_FAULT, the error events and one record (R199). -/
def Body.engFault (b : Body) (c : Clock) (g cause : Nat) : Body :=
  let n := g / 12
  let x := b.eng g
  let b := (b.setEng g x.quiet).setEngState g 4
  let b := b.rset (ENG_FAULT g) (r32 (cause + x.pc.toNat * 2 ^ 8))
  let b := ((b.endDrops g).gatherFlag c n 21).tiError g cause
  let b := if b.rbit (COVE_CTL n) 11 then b.publish c (b.rfld (COVE_CTL n) 5 6) 0 0 false else b
  b.fault c 0x07 (cause * 2 ^ 8 + g * 2 ^ 16) x.pc.toNat

/-- Outputs of the cycle before and of this one never leave the pair (R205). -/
def Body.cutOutputs (b : Body) (c : Clock) (g : Nat) : Body :=
  let late (t : Nat) : Bool := decide (c.cyc ≤ t + 1)
  { b with
    outs := b.outs.filter (fun o => ! (o.eng == g && late o.issued))
    issue := b.issue.filter (fun (i : Issue) => ! (i.eng == g && late (i.due - 7)))
    fab := { b.fab with flight := b.fab.flight.filter (fun (u : SlotUpd) =>
      ! (u.cls == 2 && u.cove == g / 12 && u.dem == g % 12 && late (u.due - 5))) } }

/-- A mismatch acts (R205): both twins FAULTED with cause 0x03, TWIN_MISMATCH, one record; the pair waits for a reload (R206). `t` is the
Tide Time of the mismatch cycle. -/
def Body.twinStop (b : Body) (c : Clock) (g t : Nat) : Body :=
  let n := g / 12
  let p := g % 12 / 2
  let x := b.eng g
  let b := (b.setEng g x.quiet).setEngState g 4
  let b := b.rset (ENG_FAULT g) (r32 (3 + x.pc.toNat * 2 ^ 8))
  let b := (b.endDrops g).gatherFlag c n 22
  let b := b.fault c 0x08 (g * 2 ^ 16 + b.pairOf n p * 2 ^ 24) t
  b.setCove n { b.cove n with waiting := (b.cove n).waiting ++ [p] }

/-- Integer Tide Time one cycle ago. -/
def Body.tideBefore (b : Body) (c : Clock) : Nat := (c.tt.toNat - b.rnat TIDE_INC_ACT * 2 ^ 8) / 2 ^ 32

/-- Can the pair of engine `g` show a mismatch: an active pair that runs or waits, with none that is to act. -/
def Body.pairActive (b : Body) (g : Nat) : Bool :=
  b.guarded (g / 12) && g % 2 == 0 && (b.engState g == 2 || b.engState g == 3) && (b.eng g).twin.isNone

/-- The checker detects a mismatch of the cycle before: its outputs never leave, and the pair stops; in a stall, which is no safe point, the
pair stops when the stall ends (R198, R205, R222). -/
def Body.twinMismatch (b : Body) (c : Clock) (g : Nat) : Body :=
  let t := b.tideBefore c
  let b := b.cutOutputs c g
  if (b.eng g).stall.isSome then b.setEng g { b.eng g with twin := some (t, c.cyc) } else b.twinStop c g t

/-- TWIN_MISMATCH: the checker detects in this cycle a mismatch of the cycle before (R205). -/
def execTwinMismatch (e : Fin 192) (s : State) : Host.Outcome State Fault Refusal :=
  nextBody (fun c b => if b.pairActive e then b.twinMismatch c e else b) s

/-- A mismatch that waits acts at the start of a cycle: one of the cycle before is detected now, one detected in a stall acts once the stall
has ended (R205, R222). -/
def Body.twinOne (b : Body) (c : Clock) (g : Nat) : Body :=
  match (b.eng g).twin with
  | none => b
  | some (t, due) =>
    if b.oddTwin g || (b.eng g).stall.isSome || decide (c.cyc < due) then b
    else (if due = c.cyc then b.cutOutputs c g else b).twinStop c g t

/-- Every mismatch that is to act. -/
def Body.twinsDue (b : Body) (c : Clock) : Body :=
  if b.engs.entries.any (fun x => x.2.twin.isSome) then (List.range 192).foldl (fun b g => b.twinOne c g) b else b

/-! ### Memory (R181 to R186, R202, R406) -/

/-- The device byte address an engine address reaches; none outside the map (R181). -/
def Body.engAddr (b : Body) (g a : Nat) : Option Nat :=
  let n := g / 12
  if a ≤ 0x7FFF then some (localAddr (b.phys g) a)
  else if 0x100000 ≤ a ∧ a ≤ 0x1FFFFF then some (sharedAddr n (a - 0x100000))
  else if 0x200000 ≤ a ∧ a ≤ 0x227FFF then
    let p := (a - 0x200000) / 0x8000
    some (envAddr (if p < 4 then 4 * n + p else 64 + n) (a % 0x8000))
  else if 0x240000 ≤ a ∧ a ≤ 0x247FFF then some (kernAddr n (a % 0x8000))
  else none

/-- A local data memory address. -/
def isLocal (a : Nat) : Bool := decide (a ≤ 0x7FFF)

/-- What a step of an engine leaves: the state, and the cause of a fault. -/
abbrev Act := State × Option Nat

/-- A store of the engine that has not landed, the latest first. -/
def Body.pendingStore (b : Body) (g d : Nat) : Option Word :=
  (b.outs.reverse.findSome? (fun o => match o.what with
    | .store a w => if o.eng = g ∧ a = d then some w else none
    | _ => none))

/-- The local copies an access checks: both twins' in Guarded mode (R202, R406). -/
def Body.copies (b : Body) (g a d : Nat) : List Nat := if isLocal a && b.guarded (g / 12) then [d, d + 0x40000] else [d]

/-- Read a word at device address `d` for an engine: a single-bit error is corrected, a double-bit error faults with 0x02, or in
one twin's local memory counts as a mismatch, cause 0x03 (R186, R406). -/
def readAt (s : State) (g a d : Nat) : Word × Act :=
  let ds := s.body.copies g a d
  let body := ds.foldl (fun b d => b.noteRead s.clock s.mem d) s.body
  let mem := ds.foldl (fun m d => m.afterRead d) s.mem
  let t : State := { s with body := body, mem := mem }
  if ds.any (fun d => s.mem.errAt d == 2) then (0, t, some (if ds.length = 2 then 3 else 2))
  else (s.mem.word d, t, none)

/-- A load by an engine at engine address `a`; it sees the engine's own earlier stores. -/
def engRead (s : State) (g a : Nat) : Word × Act :=
  match s.body.engAddr g a with
  | none => (0, s, some 1)
  | some d =>
    match s.body.pendingStore g d with
    | some w => (w, s, none)
    | none => readAt s g a d

/-- Cycles from issue to the landing of a store (R185, R204). -/
def Body.storeLag (b : Body) (g a : Nat) : Nat := (if a < 0x200000 then 3 else 5) + (if b.guarded (g / 12) then 1 else 0)

/-- A store by an engine: local data memory at once, in both twins' copies in Guarded mode; other memory when it lands
(R185, R204). An address outside the map stores nothing; it has been checked before. -/
def engWrite (s : State) (g a : Nat) (w : Word) : State :=
  match s.body.engAddr g a with
  | none => s
  | some d =>
    if isLocal a then (s.body.copies g a d).foldl (fun s d => storeWord s d w) s
    else
      let o : EngOut := ⟨g, s.clock.cyc, s.clock.cyc + s.body.storeLag g a, .store d w⟩
      { s with body := { s.body with outs := s.body.outs ++ [o] } }

/-- Word `i` of the event block, read as any word of local data memory is (R186, R231). -/
def readEv (s : State) (g i : Nat) : Word × Act := readAt s g (0x7FF0 + i) (localAddr (s.body.phys g) (0x7FF0 + i))
/-- Write a word of the event block. -/
def State.setEvWord (s : State) (g i : Nat) (w : Word) : State := engWrite s g (0x7FF0 + i) w

/-! ### The microcode image (R238, R239, R244) -/

/-- Microword `u` of the standard image: CYC is 0 in 0x000 to 0x8FF, which it occupies (R239, R247). -/
def romWord (u : Nat) : BitVec 24 := if u < 0x900 then Config.rom u &&& 0xF9FFFF else Config.rom u

/-- START of the standard routine of an opcode, in 0x000 to 0x8FF (R239). -/
def romStart (op : Nat) : Nat := fld (Config.romDispatch op) 0 12 % 0x900

/-- Microword `u` of the control stores of cove `n`: the patch's, else the standard image's (R238, R254). -/
def Body.microword (b : Body) (n u : Nat) : BitVec 24 := (b.ucode.get none (4096 * n + u)).getD (romWord u)

/-- The opcodes of the opcode map (R210). -/
def opListed (op : Nat) : Bool :=
  [0x00, 0x01, 0x20, 0x2B, 0x2C, 0x30, 0x31, 0x32, 0x33, 0x7C, 0x7D, 0x7E, 0x80, 0x81, 0x82].contains op ||
  (decide (0x10 ≤ op) && decide (op ≤ 0x1F)) || (decide (0x22 ≤ op) && decide (op ≤ 0x27)) ||
  (decide (0x40 ≤ op) && decide (op ≤ 0x4D)) || (decide (0x50 ≤ op) && decide (op ≤ 0x58)) ||
  (decide (0x60 ≤ op) && decide (op ≤ 0x66)) || (decide (0x70 ≤ op) && decide (op ≤ 0x73)) ||
  (decide (0x78 ≤ op) && decide (op ≤ 0x79)) || (decide (0x90 ≤ op) && decide (op ≤ 0x94))

/-- The dispatch entry a patch gives an opcode in cove `n` (R238, R252). -/
def Body.patchEntry (b : Body) (n op : Nat) : Option (BitVec 16) := b.udisp.get none (256 * n + op)

/-- The opcode has a routine: the patch's entry, else the standard table (R210, R244). -/
def Body.opDefined (b : Body) (n op : Nat) : Bool :=
  match b.patchEntry n op with
  | some d => bit d 12
  | none => opListed op

/-- START of the routine of an opcode (R244). -/
def Body.opStart (b : Body) (n op : Nat) : Nat :=
  match b.patchEntry n op with
  | some d => fld d 0 12
  | none => romStart op

/-- The microwords of a routine, from its first to the first with END: the path of a standard routine is open (log entry 12). -/
def Body.routine (b : Body) (n : Nat) : Nat → Nat → List Nat
  | 0, _ => []
  | k + 1, u => if bit (b.microword n u) 20 then [u] else u :: b.routine n k (u + 1)

/-- A patch has changed what an opcode does: its dispatch entry, or a microword of its standard routine (R244, R255). -/
def Body.patched (b : Body) (n op : Nat) : Bool :=
  (b.patchEntry n op).isSome ||
  (b.ucode.entries.any (fun e => e.1 / 4096 == n) && opListed op &&
    (b.routine n (4096 - romStart op) (romStart op)).any (fun u => (b.ucode.get none (4096 * n + u)).isSome))

/-! ### Issue of an instruction -/

/-- A double-bit error in a control store of a Guarded pair moves the logical engine to the spare (R240). -/
def Body.storeError (b : Body) (g : Nat) : Body :=
  let n := g / 12
  if b.guarded n then b.setCove n { b.cove n with waiting := (b.cove n).waiting ++ [g % 12 / 2] } else b

/-- The engine reads a control-store location: corrected, or cause 0x02 (R240). -/
def readStore (s : State) (g : Nat) (disp : Bool) (u : Nat) : Act :=
  let k := storeKey (g / 12) (s.body.phys g % 12 / 2) disp u
  let t : State := { s with body := s.body.noteRead s.clock s.mem k, mem := s.mem.afterRead k }
  if s.mem.errAt k = 2 then ({ t with body := t.body.storeError g }, some 2) else (t, none)

/-- The device address of word `a` of the engine address map, in the shared memory of the cove of engine `g`. -/
def fetchAddr (g a : Nat) : Nat := sharedAddr (g / 12) (a - 0x100000)

/-- The PC lies in cove shared memory (R181). -/
def inShared (a : Nat) : Bool := decide (0x100000 ≤ a) && decide (a ≤ 0x1FFFFF)

/-- The aligned group of four words that holds an address. -/
def groupOf (a : Nat) : List Nat := (List.range 4).map (fun i => a - a % 4 + i)

/-- One access of a fetch: the four words are checked, and those from `a` on enter the buffer (R183, R186). -/
def fetchGroup (s : State) (g a : Nat) : State :=
  let ds := (groupOf a).map (fetchAddr g)
  let body := ds.foldl (fun b d => b.noteRead s.clock s.mem d) s.body
  let new := ((groupOf a).filter (fun w => decide (a ≤ w))).map (fun w => (w, decide (s.mem.errAt (fetchAddr g w) = 2)))
  let t : State := { s with body := body, mem := ds.foldl (fun m d => m.afterRead d) s.mem }
  t.setEng g { t.eng g with fbuf := (t.eng g).fbuf ++ new }

/-- Fetch the group that follows the buffer while it has room for one (R183). -/
def fetchAhead (s : State) (g : Nat) : State :=
  let x := s.eng g
  let a := match x.fbuf.getLast? with
    | some e => e.1 + 1
    | none => x.pc.toNat
  if x.fbuf.length ≤ 4 ∧ inShared a then fetchGroup s g a else s

/-- The buffer begins with the word at the PC: what lies before it is passed, and groups are fetched while there is room (R183). -/
def refill (s : State) (g : Nat) : State :=
  let x := s.eng g
  fetchAhead (fetchAhead (s.setEng g { x with fbuf := x.fbuf.dropWhile (fun e => e.1 != x.pc.toNat) }) g) g

/-- The word in hand was read with a double-bit error. -/
def Engine.headBad (x : Engine) : Bool := match x.fbuf with
  | e :: _ => e.2
  | [] => false

/-- An engine that stalled tries again: it is RUNNING. -/
def wake (s : State) (g : Nat) : State :=
  if (s.eng g).stall.isSome then { s with body := s.body.rsetFld (ENG_STATUS (s.body.leader g)) 0 3 2 } else s

/-- Fetch and dispatch of an instruction with major opcode `op`: the faults of R181, R186 and R240 come before it. -/
def fetched (s : State) (g op : Nat) : Act :=
  let s := wake s g
  if ! inShared (s.eng g).pc.toNat then (s, some 1)
  else
    let s := refill s g
    if (s.eng g).headBad then (s, some 2) else readStore s g true op

/-- An error stands in the control store of the pair that carries engine `g`. -/
def State.storeBad (s : State) (g : Nat) : Bool :=
  let k := storeKey (g / 12) (s.body.phys g % 12 / 2) false 0
  s.mem.err.entries.any (fun e => decide (k ≤ e.1) && decide (e.1 < k + 0x1000))

/-- The microwords of a standard routine are read (R240). -/
def readRoutine (s : State) (g op : Nat) : Act :=
  if s.storeBad g then
    (s.body.routine (g / 12) (4096 - romStart op) (romStart op)).foldl (fun a u => match a.2 with
      | some _ => a
      | none => readStore a.1 g false u) (s, none)
  else (s, none)

/-- A standard instruction in hand: fetched, dispatched and its microwords read. -/
def inHand (s : State) (g op : Nat) : Act :=
  let r := fetched s g op
  match r.2 with
  | some cause => (r.1, some cause)
  | none => readRoutine r.1 g op

/-- A fault of an instruction: cause 0x03 is a mismatch, which the checker detects in the next cycle (R205, R406), any other an engine fault
(R199). -/
def engStop (s : State) (g cause : Nat) : State :=
  { s with body :=
      if cause = 3 then s.body.setEng g { s.body.eng g with twin := some (s.clock.now, s.clock.cyc + 1) }
      else s.body.engFault s.clock g cause }

/-- What follows from an action: a fault stops the engine (R199). -/
def actEnd (g : Nat) (r : Act) (k : State → State) : State :=
  match r.2 with
  | some cause => engStop r.1 g cause
  | none => k r.1

/-- Carry out what is in hand after `get`; a fault stops the engine before any effect (R199). -/
def carryOut (g : Nat) (get act : State → Act) (s : State) : State := actEnd g (get s) (fun t => actEnd g (act t) id)

/-- Carry out a standard instruction. Where a patch has changed its opcode, the routine of the patch is in its place: PATCHED_OPCODE runs it,
and an opcode with no routine faults with cause 0x10 (R244, R255). -/
def instrNow (g op : Nat) (act : State → Act) (s : State) : State :=
  if s.body.patched (g / 12) op then
    (if s.body.opDefined (g / 12) op then s else carryOut g (fun s => fetched s g op) (fun s => (s, some 0x10)) s)
  else carryOut g (fun s => inHand s g op) act s

/-- Carry out one instruction of a running engine. -/
def instr (g op : Nat) (act : State → Act) (s : State) : State := if s.body.runs g then instrNow g op act s else s

/-- The instruction in hand stalls with no effect; STATE is WAITING on a full queue and stays RUNNING on a held input, a lane or a lost grant
(R198, log entry 57). -/
def stallAt (g : Nat) (on : StallOn) (full : Bool) (s : State) : State :=
  let x := s.eng g
  let since := match x.stall with
    | some y => y.since
    | none => s.clock.cyc
  let b := (s.body.setEng g { x with stall := some ⟨since, on⟩ }).perf 0x13 (s.body.leader g) 1
  { s with body := b.rsetFld (ENG_STATUS (s.body.leader g)) 0 3 (if full then 3 else 2) }

/-- The next instruction in sequence. -/
def Engine.advance (x : Engine) : Engine := { x with pc := x.pc + 1, resume := none, stall := none, fresh := false, cont := none }
/-- The instruction ends: the PC moves on. -/
def State.ends (s : State) (g : Nat) : State := s.setEng g (s.eng g).advance
/-- Continue at an address. -/
def Engine.goto (x : Engine) (a : Nat) : Engine :=
  { x with pc := BitVec.ofNat 24 a, resume := none, stall := none, fresh := false, cont := none }
/-- A safe point inside an instruction: the progress index is saved (R222, R249). -/
def Engine.safeAt (x : Engine) (i : Nat) : Engine := { x with resume := some i, stall := none, fresh := false }

/-- An instruction that changes the engine alone. -/
def regAct (g : Nat) (f : Engine → Engine) (s : State) : Act := (s.setEng g (f (s.eng g)).advance, none)

/-- An instruction that changes the engine alone or faults. -/
def regActF (g : Nat) (f : Engine → Except Nat Engine) (s : State) : Act :=
  match f (s.eng g) with
  | .ok x => (s.setEng g x.advance, none)
  | .error cause => (s, some cause)

/-! ### The collector's grant (R154, R309) -/

/-- The stall of an engine of cove `n` on a FIFO: its first cycle and the FIFO. -/
def Body.fifoStall (b : Body) (n e : Nat) : Option (Nat × Nat) :=
  if b.oddTwin (12 * n + e) then none
  else
    match (b.eng (12 * n + e)).stall with
    | some ⟨t, .fifo f⟩ => some (t, f)
    | _ => none

/-- The other engines of a cove that wait for a FIFO which can take their word: engine and first cycle of the wait. -/
def Body.rivals (b : Body) (n e : Nat) : List (Nat × Nat) :=
  (List.range 12).filterMap (fun k =>
    if k = e then none
    else
      match b.fifoStall n k with
      | some (t, f) => if b.canTake n f (some k) then some (k, t) else none
      | none => none)

/-- The place of an engine in the rotation: the first after the one that last won is 0; before the first grant E0 comes first (log entry
57). -/
def Body.turnOf (b : Body) (n e : Nat) : Nat := (e + 12 - b.turns.get 0 n % 12) % 12

/-- The receiver's result queue has a word its FIFO can take. -/
def Body.rcvReady (b : Body) (n : Nat) : Bool :=
  match (b.recv n).resq with
  | x :: _ => b.canTake n x.fifo none
  | [] => false

/-- A wait of 4 or more consecutive cycles. -/
def longWait (c : Clock) (since : Nat) : Bool := decide (since + 4 ≤ c.cyc)

/-- The collector grants a word of engine `e` of cove `n` in this cycle (R309): one word a cycle; first an engine that has waited 4 cycles, the
longest waiter and then the lower number; then the receiver; then the other engines in rotation. -/
def Body.mayEmit (b : Body) (c : Clock) (n f e : Nat) : Bool :=
  let since := match b.fifoStall n e with
    | some x => x.1
    | none => c.cyc
  b.canTake n f (some e) && ! b.log.granted.contains n &&
  (if longWait c since then (b.rivals n e).all (fun r => decide (since < r.2) || (decide (since = r.2) && decide (e < r.1)))
   else ! b.rcvReady n && (b.rivals n e).all (fun r => ! longWait c r.2 && decide (b.turnOf n e < b.turnOf n r.1)))

/-- The collector grants the receiver's head word in this cycle. -/
def Body.mayResult (b : Body) (c : Clock) (n : Nat) : Bool :=
  b.rcvReady n && ! b.log.granted.contains n && (b.rivals n 12).all (fun r => ! longWait c r.2)

/-- The collector of a cove has taken its word of this cycle. -/
def Body.noteGrant (b : Body) (n : Nat) : Body := { b with log := { b.log with granted := n :: b.log.granted } }
/-- An engine has won. -/
def Body.noteTurn (b : Body) (n e : Nat) : Body := { b.noteGrant n with turns := b.turns.put 0 n ((e + 1) % 12) }

/-- RESULT_WORD: the head of a receiver's result queue goes to its FIFO when it is granted; the last word of a packet commits it, or ends the
dropping of an oversize packet (R154, R309 to R312). -/
def Body.resultWord (b : Body) (c : Clock) (n : Nat) : Body :=
  match (b.recv n).resq with
  | [] => b
  | x :: t =>
    if b.mayResult c n then
      let b := (b.noteGrant n).setRecv n { b.recv n with resq := t }
      let b := b.putWord c n x.fifo none x.word x.stale
      if x.last then b.commitPkt c n x.fifo none else b
    else b

/-- RESULT_WORD (R309). -/
def execResultWord (n : Fin 16) (s : State) : Host.Outcome State Fault Refusal := nextBody (fun c b => b.resultWord c n) s

end Sys2Proof.Machine
end

