-- ==== Sys2Proof/Machine/Accum.lean ====
section
/-! DEFINITION. Yosum accumulators: multiply-accumulate, narrowing, moves (R189 to R193, R210, R218). -/

namespace Sys2Proof.Machine

/-- An accumulator pair must be named by 0 or 2 (R210). -/
def pairOk (f : BitVec 28) : Bool := fAcc f % 2 == 0

/-- A real accumulation of ra × rb (R189). -/
def macOp (f : BitVec 28) (sub : Bool) (x : Engine) : Engine := x.mac (fAcc f) (x.reg (fRa f)) (x.reg (fRb f)) sub

/-- MAC (R189). -/
def execMac (e : Fin 192) (f : BitVec 28) (s : State) : Host.Outcome State Fault Refusal :=
  .next (instr e 0x40 (regAct e (macOp f false)) s)

/-- MSU (R189). -/
def execMsu (e : Fin 192) (f : BitVec 28) (s : State) : Host.Outcome State Fault Refusal :=
  .next (instr e 0x41 (regAct e (macOp f true)) s)

/-- A complex accumulation of ra × rb or ra × conj(rb); an odd pair number is cause 0x11 (R190, R210). -/
def cmacOp (f : BitVec 28) (conj sub : Bool) (x : Engine) : Except Nat Engine :=
  if pairOk f then .ok (x.cmac (fAcc f) (x.reg (fRa f)) (x.reg (fRb f)) conj sub) else .error 0x11

/-- CMAC (R190). -/
def execCmac (e : Fin 192) (f : BitVec 28) (s : State) : Host.Outcome State Fault Refusal :=
  .next (instr e 0x42 (regActF e (cmacOp f false false)) s)

/-- CMACJ (R190). -/
def execCmacj (e : Fin 192) (f : BitVec 28) (s : State) : Host.Outcome State Fault Refusal :=
  .next (instr e 0x43 (regActF e (cmacOp f true false)) s)

/-- CMSU (R190). -/
def execCmsu (e : Fin 192) (f : BitVec 28) (s : State) : Host.Outcome State Fault Refusal :=
  .next (instr e 0x44 (regActF e (cmacOp f false true)) s)

/-- CMSUJ (R190). -/
def execCmsuj (e : Fin 192) (f : BitVec 28) (s : State) : Host.Outcome State Fault Refusal :=
  .next (instr e 0x45 (regActF e (cmacOp f true true)) s)

/-- Update the pointers of address registers, each once (R188, R220). -/
def Engine.stepPtrs (x : Engine) : List Nat → Engine
  | [] => x
  | k :: t => (x.setAreg k (x.areg k).next).stepPtrs t

/-- Two memory operands through Aa and Ab (R210): both addresses are checked, then both are read. -/
def readPair (s : State) (g : Nat) (f : BitVec 28) : (Word × Word) × Act :=
  let x := s.eng g
  let a := (x.areg (fAa f)).p.toNat
  let b := (x.areg (fAb f)).p.toNat
  if (s.body.engAddr g a).isNone || (s.body.engAddr g b).isNone then ((0, 0), s, some 1)
  else
    let r := engRead s g a
    match r.2.2 with
    | some cause => ((0, 0), r.2.1, some cause)
    | none =>
      let q := engRead r.2.1 g b
      ((r.1, q.1), q.2)

/-- MACM and CMACM: read the operands, accumulate, update the pointers. -/
def macmAct (g : Nat) (f : BitVec 28) (acc : Engine → Word → Word → Engine) (s : State) : Act :=
  let r := readPair s g f
  match r.2.2 with
  | some cause => (r.2.1, some cause)
  | none => regAct g (fun x => (acc x r.1.1 r.1.2).stepPtrs [fAa f, fAb f].eraseDups) r.2.1

/-- MACM (R210). -/
def execMacm (e : Fin 192) (f : BitVec 28) (s : State) : Host.Outcome State Fault Refusal :=
  .next (instr e 0x46 (macmAct e f (fun x a b => x.mac (fAcc f) a b false)) s)

/-- CMACM (R190, R210). -/
def cmacmAct (g : Nat) (f : BitVec 28) (s : State) : Act :=
  if pairOk f then macmAct g f (fun x a b => x.cmac (fAcc f) a b (bit f 0) false) s else (s, some 0x11)

/-- CMACM (R190). -/
def execCmacm (e : Fin 192) (f : BitVec 28) (s : State) : Host.Outcome State Fault Refusal := .next (instr e 0x47 (cmacmAct e f) s)

/-- NRW: rd := real narrowing of an accumulator (R191, R218). -/
def nrwOp (f : BitVec 28) (x : Engine) : Engine :=
  let r := narrowReal (x.accOf (fAcc f)) (fSh f)
  (x.setReg (fRd f) r.word).narrowed r r.clamped

/-- NRW (R191). -/
def execNrw (e : Fin 192) (f : BitVec 28) (s : State) : Host.Outcome State Fault Refusal :=
  .next (instr e 0x48 (regAct e (nrwOp f)) s)

/-- CNRW: rd := complex narrowing of a pair by 0 to 40; otherwise, or for an odd pair, cause 0x11 (R191, R210, R218). -/
def cnrwOp (f : BitVec 28) (x : Engine) : Except Nat Engine :=
  if ! pairOk f ∨ 40 < fSh f then .error 0x11
  else
    let r := narrowCplx (x.accOf (fAcc f)) (x.accOf (fAcc f + 1)) (fSh f)
    .ok ((x.setReg (fRd f) r.word).narrowed r r.clamped)

/-- CNRW (R191). -/
def execCnrw (e : Fin 192) (f : BitVec 28) (s : State) : Host.Outcome State Fault Refusal :=
  .next (instr e 0x49 (regActF e (cnrwOp f)) s)

/-- CLRA: clear each accumulator whose MOD bit is set (R210). -/
def clraOp (f : BitVec 28) (x : Engine) : Engine :=
  [0, 1, 2, 3].foldl (fun x k => if bit f k then x.setAcc k 0 else x) x

/-- CLRA (R210). -/
def execClra (e : Fin 192) (f : BitVec 28) (s : State) : Host.Outcome State Fault Refusal :=
  .next (instr e 0x4A (regAct e (clraOp f)) s)

/-- RDA: a part of an accumulator; selector 3 is cause 0x11 (R210). -/
def rdaOp (f : BitVec 28) (x : Engine) : Except Nat Engine :=
  let a := x.acc.get 0 (fAcc f)
  match fld f 0 2 with
  | 0 => .ok (x.setReg (fRd f) (a.extractLsb' 0 36))
  | 1 => .ok (x.setReg (fRd f) (a.extractLsb' 36 36))
  | 2 => .ok (x.setReg (fRd f) ((a.extractLsb' 72 8).signExtend 36))
  | _ => .error 0x11

/-- RDA (R210). -/
def execRda (e : Fin 192) (f : BitVec 28) (s : State) : Host.Outcome State Fault Refusal :=
  .next (instr e 0x4B (regActF e (rdaOp f)) s)

/-- WRA: ACC[71:36] := ra, ACC[35:0] := rb, ACC[79:72] := copies of ra[35] (R210). -/
def wraOp (f : BitVec 28) (x : Engine) : Engine :=
  { x with acc := x.acc.put 0 (fAcc f) ((x.reg (fRa f)).signExtend 44 ++ x.reg (fRb f)) }

/-- WRA (R210). -/
def execWra (e : Fin 192) (f : BitVec 28) (s : State) : Host.Outcome State Fault Refusal :=
  .next (instr e 0x4C (regAct e (wraOp f)) s)

/-- WRAH: ACC[79:72] := ra[7:0] (R210). -/
def wrahOp (f : BitVec 28) (x : Engine) : Engine :=
  let a := x.acc.get 0 (fAcc f)
  { x with acc := x.acc.put 0 (fAcc f) ((x.reg (fRa f)).extractLsb' 0 8 ++ a.extractLsb' 0 72) }

/-- WRAH (R210). -/
def execWrah (e : Fin 192) (f : BitVec 28) (s : State) : Host.Outcome State Fault Refusal :=
  .next (instr e 0x4D (regAct e (wrahOp f)) s)

end Sys2Proof.Machine
end

