-- ==== Sys2Proof/Machine/Alu.lean ====
section
/-! DEFINITION. Yosum arithmetic and logic, moves and special registers (R210, R213, R217). -/

namespace Sys2Proof.Machine

/-- rd := op of ra and rb, with its flags. -/
def aluReg (f : BitVec 28) (op : AluOp) (x : Engine) : Engine :=
  let r := op x.flags (x.reg (fRa f)) (x.reg (fRb f))
  { x.setReg (fRd f) r.1 with flags := r.2 }

/-- The same with rb replaced by the immediate. -/
def aluImm (f : BitVec 28) (op : AluOp) (imm : Word) (x : Engine) : Engine :=
  let r := op x.flags (x.reg (fRa f)) imm
  { x.setReg (fRd f) r.1 with flags := r.2 }

/-- Flags alone, rd unwritten. -/
def aluTest (f : BitVec 28) (op : AluOp) (b : Word) (x : Engine) : Engine :=
  { x with flags := (op x.flags (x.reg (fRa f)) b).2 }

/-- IMM sign-extended (R210). -/
def immS (f : BitVec 28) : Word := (fImm f).signExtend 36
/-- IMM zero-extended (R210). -/
def immZ (f : BitVec 28) : Word := (fImm f).setWidth 36

/-- NOP (R210). -/
def execNop (e : Fin 192) (_f : BitVec 28) (s : State) : Host.Outcome State Fault Refusal :=
  .next (instr e 0x00 (fun s => (s.ends e, none)) s)

/-- ADD (R210). -/
def execAdd (e : Fin 192) (f : BitVec 28) (s : State) : Host.Outcome State Fault Refusal :=
  .next (instr e 0x10 (regAct e (aluReg f aluAdd)) s)

/-- SUB (R210). -/
def execSub (e : Fin 192) (f : BitVec 28) (s : State) : Host.Outcome State Fault Refusal :=
  .next (instr e 0x11 (regAct e (aluReg f aluSub)) s)

/-- AND (R210). -/
def execAnd (e : Fin 192) (f : BitVec 28) (s : State) : Host.Outcome State Fault Refusal :=
  .next (instr e 0x12 (regAct e (aluReg f aluAnd)) s)

/-- OR (R210). -/
def execOr (e : Fin 192) (f : BitVec 28) (s : State) : Host.Outcome State Fault Refusal :=
  .next (instr e 0x13 (regAct e (aluReg f aluOr)) s)

/-- XOR (R210). -/
def execXor (e : Fin 192) (f : BitVec 28) (s : State) : Host.Outcome State Fault Refusal :=
  .next (instr e 0x14 (regAct e (aluReg f aluXor)) s)

/-- SHL (R210). -/
def execShl (e : Fin 192) (f : BitVec 28) (s : State) : Host.Outcome State Fault Refusal :=
  .next (instr e 0x15 (regAct e (aluReg f aluShl)) s)

/-- SHR (R210). -/
def execShr (e : Fin 192) (f : BitVec 28) (s : State) : Host.Outcome State Fault Refusal :=
  .next (instr e 0x16 (regAct e (aluReg f aluShr)) s)

/-- SRA (R210). -/
def execSra (e : Fin 192) (f : BitVec 28) (s : State) : Host.Outcome State Fault Refusal :=
  .next (instr e 0x17 (regAct e (aluReg f aluSra)) s)

/-- MIN (R210). -/
def execMin (e : Fin 192) (f : BitVec 28) (s : State) : Host.Outcome State Fault Refusal :=
  .next (instr e 0x18 (regAct e (aluReg f aluMin)) s)

/-- MAX (R210). -/
def execMax (e : Fin 192) (f : BitVec 28) (s : State) : Host.Outcome State Fault Refusal :=
  .next (instr e 0x19 (regAct e (aluReg f aluMax)) s)

/-- ADDS (R210). -/
def execAdds (e : Fin 192) (f : BitVec 28) (s : State) : Host.Outcome State Fault Refusal :=
  .next (instr e 0x1A (regAct e (aluReg f aluAdds)) s)

/-- CMP (R210). -/
def execCmp (e : Fin 192) (f : BitVec 28) (s : State) : Host.Outcome State Fault Refusal :=
  .next (instr e 0x1B (regAct e (fun x => aluTest f aluSub (x.reg (fRb f)) x)) s)

/-- TST (R210). -/
def execTst (e : Fin 192) (f : BitVec 28) (s : State) : Host.Outcome State Fault Refusal :=
  .next (instr e 0x1C (regAct e (fun x => aluTest f aluTst (x.reg (fRb f)) x)) s)

/-- CADD (R210). -/
def execCadd (e : Fin 192) (f : BitVec 28) (s : State) : Host.Outcome State Fault Refusal :=
  .next (instr e 0x1F (regAct e (aluReg f aluCadd)) s)

/-- ADDI (R210). -/
def execAddi (e : Fin 192) (f : BitVec 28) (s : State) : Host.Outcome State Fault Refusal :=
  .next (instr e 0x20 (regAct e (aluImm f aluAdd (immS f))) s)

/-- ANDI (R210). -/
def execAndi (e : Fin 192) (f : BitVec 28) (s : State) : Host.Outcome State Fault Refusal :=
  .next (instr e 0x22 (regAct e (aluImm f aluAnd (immZ f))) s)

/-- ORI (R210). -/
def execOri (e : Fin 192) (f : BitVec 28) (s : State) : Host.Outcome State Fault Refusal :=
  .next (instr e 0x23 (regAct e (aluImm f aluOr (immZ f))) s)

/-- XORI (R210). -/
def execXori (e : Fin 192) (f : BitVec 28) (s : State) : Host.Outcome State Fault Refusal :=
  .next (instr e 0x24 (regAct e (aluImm f aluXor (immZ f))) s)

/-- SHLI (R210). -/
def execShli (e : Fin 192) (f : BitVec 28) (s : State) : Host.Outcome State Fault Refusal :=
  .next (instr e 0x25 (regAct e (aluImm f aluShl (immZ f))) s)

/-- SHRI (R210). -/
def execShri (e : Fin 192) (f : BitVec 28) (s : State) : Host.Outcome State Fault Refusal :=
  .next (instr e 0x26 (regAct e (aluImm f aluShr (immZ f))) s)

/-- SRAI (R210). -/
def execSrai (e : Fin 192) (f : BitVec 28) (s : State) : Host.Outcome State Fault Refusal :=
  .next (instr e 0x27 (regAct e (aluImm f aluSra (immZ f))) s)

/-- CMPI (R210). -/
def execCmpi (e : Fin 192) (f : BitVec 28) (s : State) : Host.Outcome State Fault Refusal :=
  .next (instr e 0x2B (regAct e (aluTest f aluSub (immS f))) s)

/-- TSTI (R210). -/
def execTsti (e : Fin 192) (f : BitVec 28) (s : State) : Host.Outcome State Fault Refusal :=
  .next (instr e 0x2C (regAct e (aluTest f aluTst (immZ f))) s)

/-- EXT (R210). -/
def extOp (f : BitVec 28) (x : Engine) : Engine :=
  let r := extField (fMod f) (x.reg (fRa f))
  { x.setReg (fRd f) r with flags := setZN x.flags r }

/-- EXT (R210). -/
def execExt (e : Fin 192) (f : BitVec 28) (s : State) : Host.Outcome State Fault Refusal :=
  .next (instr e 0x1D (regAct e (extOp f)) s)

/-- INS (R210). -/
def insOp (f : BitVec 28) (x : Engine) : Engine :=
  let r := insField (fMod f) (x.reg (fRd f)) (x.reg (fRa f))
  { x.setReg (fRd f) r with flags := setZN x.flags r }

/-- INS (R210). -/
def execIns (e : Fin 192) (f : BitVec 28) (s : State) : Host.Outcome State Fault Refusal :=
  .next (instr e 0x1E (regAct e (insOp f)) s)

/-- LI: rd := IMM23 sign-extended (R210). -/
def execLi (e : Fin 192) (f : BitVec 28) (s : State) : Host.Outcome State Fault Refusal :=
  .next (instr e 0x30 (regAct e (fun x => x.setReg (fRd f) ((fImm23 f).signExtend 36))) s)

/-- LIH: rd[35:18] := IMM (R210). -/
def lihWord (old : Word) (imm : BitVec 18) : Word := imm ++ BitVec.ofNat 18 old.toNat

/-- LIH (R210). -/
def execLih (e : Fin 192) (f : BitVec 28) (s : State) : Host.Outcome State Fault Refusal :=
  .next (instr e 0x31 (regAct e (fun x => x.setReg (fRd f) (lihWord (x.reg (fRd f)) (fImm f)))) s)

/-! ### Special registers (R180, R217) -/

/-- The value of a special register; none for a reserved number. -/
def specialReg (s : State) (g : Nat) (k : Nat) : Option Word :=
  let x := s.eng g
  match k with
  | 0 => some (BitVec.ofNat 36 (g + g / 12 * 2 ^ 8 + s.body.devId * 2 ^ 12))
  | 1 => some (BitVec.ofNat 36 s.body.epoch)
  | 2 => some (BitVec.ofNat 36 s.clock.now)
  | 3 => some (BitVec.ofNat 36 s.clock.ph)
  | 4 => some (BitVec.ofNat 36 (s.body.rfld (COVE_SHOT_FLAGS (g / 12)) 0 25))
  | 5 => some (BitVec.ofNat 36 x.bexp)
  | 6 => some (x.flags.setWidth 36)
  | _ => none

/-- Write a special register: BEXP takes the whole word, above 35 as 35; S_FLAGS takes six bits; the others ignore it (R180). -/
def Engine.writeSpecial (x : Engine) (k : Nat) (w : Word) : Engine :=
  match k with
  | 5 => { x with bexp := min w.toNat 35 }
  | 6 => { x with flags := BitVec.ofNat 6 w.toNat }
  | _ => x

/-- MOVS: rd := special register, or cause 0x11 (R217). -/
def movsAct (g : Nat) (f : BitVec 28) (s : State) : Act :=
  match specialReg s g (fld f 0 4) with
  | some w => regAct g (fun x => x.setReg (fRd f) w) s
  | none => (s, some 0x11)

/-- MOVS (R217). -/
def execMovs (e : Fin 192) (f : BitVec 28) (s : State) : Host.Outcome State Fault Refusal := .next (instr e 0x32 (movsAct e f) s)

/-- MOVSW: special register := ra, or cause 0x11 (R217). -/
def movswAct (g : Nat) (f : BitVec 28) (s : State) : Act :=
  if 7 ≤ fld f 0 4 then (s, some 0x11) else regAct g (fun x => x.writeSpecial (fld f 0 4) (x.reg (fRa f))) s

/-- MOVSW (R217). -/
def execMovsw (e : Fin 192) (f : BitVec 28) (s : State) : Host.Outcome State Fault Refusal := .next (instr e 0x33 (movswAct e f) s)

end Sys2Proof.Machine
end

