-- ==== Sys2Proof/Machine/LoadStore.lean ====
section
/-! DEFINITION. Yosum loads, stores and address-register instructions (R187, R188, R209, R215, R216, R219). -/

namespace Sys2Proof.Machine

/-- The addresses of `n` successive accesses through an address register, and the register after them; NU leaves the pointer
(R187, R188, R209). -/
def walk (r : AddrReg) (nu : Bool) : Nat → List Nat × AddrReg
  | 0 => ([], r)
  | n + 1 =>
    let t := walk (if nu then r else r.next) nu n
    (r.p.toNat :: t.1, t.2)

/-- Read words at a list of addresses; the first failure ends it. -/
def readAll (g : Nat) : List Nat → State → List Word × Act
  | [], s => ([], s, none)
  | a :: t, s =>
    let r := engRead s g a
    match r.2.2 with
    | some cause => ([], r.2.1, some cause)
    | none =>
      let q := readAll g t r.2.1
      (r.1 :: q.1, q.2)

/-- Every address lies in the map (R216). -/
def addrsOk (s : State) (g : Nat) (as : List Nat) : Bool := as.all (fun a => (s.body.engAddr g a).isSome)

/-- Load words: all addresses checked, then read, then `fin` applied to the engine (R216). -/
def loadAct (g : Nat) (as : List Nat) (fin : List Word → Engine → Engine) (s : State) : Act :=
  if addrsOk s g as then
    let r := readAll g as s
    match r.2.2 with
    | some cause => (r.2.1, some cause)
    | none => regAct g (fin r.1) r.2.1
  else (s, some 1)

/-- Store words at a list of addresses, in order. -/
def storeAll (g : Nat) : List (Nat × Word) → State → State
  | [], s => s
  | p :: t, s => storeAll g t (engWrite s g p.1 p.2)

/-- Store words: all addresses checked, then written, then `fin` applied to the engine (R216). -/
def storeAct (g : Nat) (ps : List (Nat × Word)) (fin : Engine → Engine) (s : State) : Act :=
  if addrsOk s g (ps.map (·.1)) then regAct g fin (storeAll g ps s) else (s, some 1)

/-- The walk of an M-format instruction. -/
def mWalk (f : BitVec 28) (n : Nat) (x : Engine) : List Nat × AddrReg := walk (x.areg (fAn f)) (fNu f) n

/-- LD: rd := [An] (R216). -/
def ldAct (g : Nat) (f : BitVec 28) (s : State) : Act :=
  let w := mWalk f 1 (s.eng g)
  loadAct g w.1 (fun ws x => (x.setAreg (fAn f) w.2).setReg (fRd f) (ws.headD 0)) s

/-- LD (R216). -/
def execLd (e : Fin 192) (f : BitVec 28) (s : State) : Host.Outcome State Fault Refusal := .next (instr e 0x50 (ldAct e f) s)

/-- ST: [An] := ra (R216). -/
def stAct (g : Nat) (f : BitVec 28) (s : State) : Act :=
  let x := s.eng g
  let w := mWalk f 1 x
  storeAct g [((x.areg (fAn f)).p.toNat, x.reg (fRd f))] (fun x => x.setAreg (fAn f) w.2) s

/-- ST (R216). -/
def execSt (e : Fin 192) (f : BitVec 28) (s : State) : Host.Outcome State Fault Refusal := .next (instr e 0x51 (stAct e f) s)

/-- LD2: rd and rd + 1 from two successive accesses; an odd rd is cause 0x12, and a load into G0 discards both (R215, R216). -/
def ld2Act (g : Nat) (f : BitVec 28) (s : State) : Act :=
  if fRd f % 2 = 1 then (s, some 0x12)
  else
    let w := mWalk f 2 (s.eng g)
    loadAct g w.1 (fun ws x =>
      let x := x.setAreg (fAn f) w.2
      if fRd f = 0 then x else (x.setReg (fRd f) (ws.headD 0)).setReg (fRd f + 1) (ws.tail.headD 0)) s

/-- LD2 (R215). -/
def execLd2 (e : Fin 192) (f : BitVec 28) (s : State) : Host.Outcome State Fault Refusal := .next (instr e 0x52 (ld2Act e f) s)

/-- ST2: rd and rd + 1 stored by two successive accesses; an odd rd is cause 0x12 (R215, R216). -/
def st2Act (g : Nat) (f : BitVec 28) (s : State) : Act :=
  if fRd f % 2 = 1 then (s, some 0x12)
  else
    let x := s.eng g
    let w := mWalk f 2 x
    storeAct g (w.1.zip [x.reg (fRd f), x.reg (fRd f + 1)]) (fun x => x.setAreg (fAn f) w.2) s

/-- ST2 (R215). -/
def execSt2 (e : Fin 192) (f : BitVec 28) (s : State) : Host.Outcome State Fault Refusal := .next (instr e 0x53 (st2Act e f) s)

/-- The address of LDO and STO: (ra[23:0] + IMM) mod 2²⁴ (R210). -/
def offAddr (f : BitVec 28) (x : Engine) : Nat := (BitVec.ofNat 24 (x.reg (fRa f)).toNat + (fImm f).signExtend 24).toNat

/-- LDO (R210). -/
def ldoAct (g : Nat) (f : BitVec 28) (s : State) : Act :=
  loadAct g [offAddr f (s.eng g)] (fun ws x => x.setReg (fRd f) (ws.headD 0)) s

/-- LDO (R210). -/
def execLdo (e : Fin 192) (f : BitVec 28) (s : State) : Host.Outcome State Fault Refusal := .next (instr e 0x54 (ldoAct e f) s)

/-- STO: the store of format I; its source is the rd field (R209, R210). -/
def stoAct (g : Nat) (f : BitVec 28) (s : State) : Act :=
  storeAct g [(offAddr f (s.eng g), (s.eng g).reg (fRd f))] id s

/-- STO (R210). -/
def execSto (e : Fin 192) (f : BitVec 28) (s : State) : Host.Outcome State Fault Refusal := .next (instr e 0x55 (stoAct e f) s)

/-- SETA: every field of An from the group ra; ra above 29 is cause 0x12, a configuration outside R188 cause 0x04 (R219). -/
def setaOp (f : BitVec 28) (x : Engine) : Except Nat Engine :=
  let ra := fRa f
  if 29 < ra then .error 0x12
  else
    let m := x.reg (ra + 2)
    let r : AddrReg := ⟨BitVec.ofNat 24 (x.reg ra).toNat, BitVec.ofNat 24 (x.reg (ra + 1)).toNat, BitVec.ofNat 16 m.toNat,
      BitVec.ofNat 16 (fld m 16 16), BitVec.ofNat 2 (fld m 32 2)⟩
    if r.valid then .ok (x.setAreg (fld f 0 3) r) else .error 0x04

/-- SETA (R219). -/
def execSeta (e : Fin 192) (f : BitVec 28) (s : State) : Host.Outcome State Fault Refusal :=
  .next (instr e 0x56 (regActF e (setaOp f)) s)

/-- SETP: P of An := ra[23:0] (R219). -/
def setpOp (f : BitVec 28) (x : Engine) : Engine :=
  x.setAreg (fld f 0 3) { x.areg (fld f 0 3) with p := BitVec.ofNat 24 (x.reg (fRa f)).toNat }

/-- SETP (R219). -/
def execSetp (e : Fin 192) (f : BitVec 28) (s : State) : Host.Outcome State Fault Refusal :=
  .next (instr e 0x57 (regAct e (setpOp f)) s)

/-- GETA: rd := P of An, zero-extended (R210). -/
def getaOp (f : BitVec 28) (x : Engine) : Engine := x.setReg (fRd f) ((x.areg (fld f 0 3)).p.setWidth 36)

/-- GETA (R210). -/
def execGeta (e : Fin 192) (f : BitVec 28) (s : State) : Host.Outcome State Fault Refusal :=
  .next (instr e 0x58 (regAct e (getaOp f)) s)

end Sys2Proof.Machine
end

