-- ==== Sys2Proof/Machine/Block.lean ====
section
/-! DEFINITION. Yosum block instructions: elements, checks before the first, safe points between them (R220 to R222, R234). -/

namespace Sys2Proof.Machine

/-- How an element ends: done, stalled with no effect, or faulting with a cause. -/
inductive ElemEnd where
  | done
  | stall (on : StallOn) (full : Bool)
  | fault (cause : Nat)
  deriving DecidableEq, Repr

/-- One element of a block instruction. -/
abbrev Elem := State → State × ElemEnd

/-- Read the words of an element, then finish it; a double-bit error leaves the element without effect (R222). -/
def readElem (g : Nat) (as : List Nat) (fin : List Word → State → State × ElemEnd) : Elem := fun s =>
  let r := readAll g as s
  match r.2.2 with
  | some cause => (r.2.1, .fault cause)
  | none => fin r.1 r.2.1

/-- The pointer of an address register. -/
def Engine.ptr (x : Engine) (k : Nat) : Nat := (x.areg k).p.toNat

/-- An element is complete: engine changes, writes, then pointer updates (R222). -/
def elemDone (g : Nat) (chg : Engine → Engine) (writes : List (Nat × Word)) (regs : List Nat) (s : State) : State × ElemEnd :=
  let s := storeAll g writes s
  (s.setEng g ((chg (s.eng g)).stepPtrs regs), .done)

/-- BDOT (R189, R190, R220). -/
def elemBdot (g : Nat) (f : BitVec 28) : Elem := fun s =>
  let x := s.eng g
  readElem g [x.ptr (fAa f), x.ptr (fAb f)] (fun ws s =>
    let a := ws.headD 0
    let b := ws.tail.headD 0
    let chg (x : Engine) : Engine := if bit f 8 then x.cmac (fAcc f) a b (bit f 0) false else x.mac (fAcc f) a b false
    elemDone g chg [] [fAa f, fAb f].eraseDups s) s

/-- Narrowing of a product by s, complex or real (R191, R220). -/
def scaleOf (cplx : Bool) (a rs : Word) (s : Nat) : Narrowed :=
  if cplx then narrowCplx (cmul a rs false).1 (cmul a rs false).2 s else narrowReal (a.toInt * rs.toInt) s

/-- V is kept set once an element has clamped (R220). -/
def Engine.narrowedV (x : Engine) (r : Narrowed) : Engine := x.narrowed r (r.clamped || bit x.flags 3)

/-- BSCALE (R220). -/
def elemBscale (g : Nat) (f : BitVec 28) : Elem := fun s =>
  let x := s.eng g
  readElem g [x.ptr (fAa f)] (fun ws s =>
    let r := scaleOf (bit f 8) (ws.headD 0) (x.reg (fRd f)) (fSh f)
    elemDone g (fun x => x.narrowedV r) [(x.ptr (fAd f), r.word)] [fAa f, fAd f].eraseDups s) s

/-- The saturated sum of two words, and whether it clamped (R220). -/
def baccSum (cplx : Bool) (d a : Word) : Word × Bool :=
  if cplx then cadd d a
  else
    let y := d.toInt + a.toInt
    (wordOf (satS 36 y), ovfS 36 y)

/-- BACC (R220). -/
def elemBacc (g : Nat) (f : BitVec 28) : Elem := fun s =>
  let x := s.eng g
  readElem g [x.ptr (fAd f), x.ptr (fAa f)] (fun ws s =>
    let r := baccSum (bit f 8) (ws.headD 0) (ws.tail.headD 0)
    let chg (x : Engine) : Engine := if r.2 then { x with flags := stickSat (setV x.flags true) true } else x
    elemDone g chg [(x.ptr (fAd f), r.1)] [fAa f, fAd f].eraseDups s) s

/-- BCOPY (R220). -/
def elemBcopy (g : Nat) (f : BitVec 28) : Elem := fun s =>
  let x := s.eng g
  readElem g [x.ptr (fAa f)] (fun ws s => elemDone g id [(x.ptr (fAd f), ws.headD 0)] [fAa f, fAd f].eraseDups s) s

/-- The address of a bin (R220). -/
def binAddr (x : Engine) (f : BitVec 28) (a : Word) : Nat :=
  let r := x.areg (fAb f)
  let v : Int := (a.toInt - (x.reg (fRd f)).toInt) / (2 : Int) ^ fSh f
  (r.b.toNat + (clampI 0 ((r.len : Int) - 1) v).toNat) % 2 ^ 24

/-- A bin incremented, saturating at 2³⁵ − 1 (R220). -/
def binInc (w : Word) : Word := if w.toInt < 2 ^ 35 - 1 then w + 1 else w

/-- BHIST (R220). -/
def elemBhist (g : Nat) (f : BitVec 28) : Elem := fun s =>
  let x := s.eng g
  readElem g [x.ptr (fAa f)] (fun ws s =>
    let d := binAddr x f (ws.headD 0)
    readElem g [d] (fun vs s => elemDone g id [(d, binInc (vs.headD 0))] [fAa f] s) s) s

/-- The two results of a butterfly, by 17 or 18 bits (R220). -/
def butterfly (a b d : Word) (sh : Nat) : Narrowed × Narrowed :=
  let t := cmul b d false
  (narrowCplx (cI a * 2 ^ 17 + t.1) (cQ a * 2 ^ 17 + t.2) sh, narrowCplx (cI a * 2 ^ 17 - t.1) (cQ a * 2 ^ 17 - t.2) sh)

/-- BFLY (R220). -/
def elemBfly (g : Nat) (f : BitVec 28) : Elem := fun s =>
  let x := s.eng g
  readElem g [x.ptr (fAa f), x.ptr (fAb f), x.ptr (fAd f)] (fun ws s =>
    let r := butterfly (ws.headD 0) (ws.tail.headD 0) (ws.tail.tail.headD 0) (17 + fld f 0 1)
    elemDone g (fun x => (x.narrowedV r.1).narrowedV r.2) [(x.ptr (fAa f), r.1.word), (x.ptr (fAb f), r.2.word)]
      [fAa f, fAb f, fAd f].eraseDups s) s

/-- An EMIT leaves the engine; in Guarded mode the pair 1 cc later (R204, R309). -/
def Body.sendOut (b : Body) (c : Clock) (g : Nat) (k : OutKind) : Body :=
  { b with outs := b.outs ++ [(⟨g, c.cyc, c.cyc + (if b.guarded (g / 12) then 2 else 1), k⟩ : EngOut)] }

/-- BEMIT: an element without a grant stalls with no effect (R198, R220, R222, R309). -/
def elemBemit (g : Nat) (f : BitVec 28) : Elem := fun s =>
  let x := s.eng g
  let n := g / 12
  if s.body.mayEmit s.clock n (fFifo f) (g % 12) then
    readElem g [x.ptr (fAa f)] (fun ws s =>
      elemDone g id [] [fAa f] { s with body := (s.body.noteTurn n (g % 12)).sendOut s.clock g (.emit (fFifo f) (ws.headD 0)) }) s
  else (s, .stall (.fifo (fFifo f)) (! s.body.canTake n (fFifo f) (some (g % 12))))

/-- Carry out at most `k` elements; answers how many were completed and how the last one ended. -/
def runElems (el : Elem) : Nat → State → Nat × State × ElemEnd
  | 0, s => (0, s, .done)
  | k + 1, s =>
    let r := el s
    match r.2 with
    | .done =>
      let q := runElems el k r.1
      (q.1 + 1, q.2)
    | _ => (0, r)

/-- Every address register range of the remaining elements lies in one region (R221). -/
def rangesOk (x : Engine) (regs : List Nat) (n : Nat) : Bool :=
  regs.all (fun k => match (x.areg k).range n with
    | some r => oneRegion r.1 r.2
    | none => false)

/-- A block instruction: count, ranges and the addresses of the next element checked, then at most `upto` elements up to a safe point. One that
is not finished goes on from its progress index at the next issue (R220 to R222, R234); one whose next element stalls has its stall noted.
`clearV` marks the instructions that begin by V := 0. -/
def blockAct (g : Nat) (f : BitVec 28) (upto : Nat) (fieldOk clearV : Bool) (regs : List Nat) (extra : Engine → Bool)
    (el : Elem) (s : State) : Act :=
  let x := s.eng g
  let n := (x.reg (fRa f)).toNat
  let i := x.resume.getD 0
  if ! fieldOk then (s, some 0x11)
  else if 65536 < n then (s, some 0x13)
  else if n ≤ i then (s.ends g, none)
  else if ! (rangesOk x regs (n - i) && addrsOk s g (regs.map x.ptr) && extra x) then (s, some 1)
  else if upto = 0 then (s, none)
  else
    let s := if clearV && x.resume.isNone then s.setEng g { x with flags := setV x.flags false } else s
    let r := runElems el (min upto (n - i)) s
    match r.2.2 with
    | .fault cause => (r.2.1, some cause)
    | .stall on full =>
      if r.1 = 0 then (stallAt g on full r.2.1, none) else (r.2.1.setEng g ((r.2.1.eng g).safeAt (i + r.1)), none)
    | .done =>
      if i + r.1 = n then (r.2.1.ends g, none) else (r.2.1.setEng g ((r.2.1.eng g).safeAt (i + r.1)), none)

/-- No further check. -/
def noCheck (_ : Engine) : Bool := true

/-- BDOT (R220). -/
def execBdot (e : Fin 192) (f : BitVec 28) (upto : Nat) (s : State) : Host.Outcome State Fault Refusal :=
  .next (instr e 0x60 (blockAct e f upto (! bit f 8 || pairOk f) false [fAa f, fAb f] noCheck (elemBdot e f)) s)

/-- BSCALE (R220). -/
def execBscale (e : Fin 192) (f : BitVec 28) (upto : Nat) (s : State) : Host.Outcome State Fault Refusal :=
  .next (instr e 0x61 (blockAct e f upto (! bit f 8 || decide (fSh f ≤ 40)) true [fAa f, fAd f] noCheck (elemBscale e f)) s)

/-- BACC (R220). -/
def execBacc (e : Fin 192) (f : BitVec 28) (upto : Nat) (s : State) : Host.Outcome State Fault Refusal :=
  .next (instr e 0x62 (blockAct e f upto true true [fAa f, fAd f] noCheck (elemBacc e f)) s)

/-- BCOPY (R220). -/
def execBcopy (e : Fin 192) (f : BitVec 28) (upto : Nat) (s : State) : Host.Outcome State Fault Refusal :=
  .next (instr e 0x63 (blockAct e f upto true false [fAa f, fAd f] noCheck (elemBcopy e f)) s)

/-- The bins of BHIST lie in one region (R221). -/
def binsOk (f : BitVec 28) (x : Engine) : Bool :=
  oneRegion (x.areg (fAb f)).b.toNat ((x.areg (fAb f)).b.toNat + (x.areg (fAb f)).len - 1)

/-- BHIST (R220). -/
def execBhist (e : Fin 192) (f : BitVec 28) (upto : Nat) (s : State) : Host.Outcome State Fault Refusal :=
  .next (instr e 0x64 (blockAct e f upto true false [fAa f] (binsOk f) (elemBhist e f)) s)

/-- BFLY (R220). -/
def execBfly (e : Fin 192) (f : BitVec 28) (upto : Nat) (s : State) : Host.Outcome State Fault Refusal :=
  .next (instr e 0x65 (blockAct e f upto true true [fAa f, fAb f, fAd f] noCheck (elemBfly e f)) s)

/-- BEMIT (R220). -/
def execBemit (e : Fin 192) (f : BitVec 28) (upto : Nat) (s : State) : Host.Outcome State Fault Refusal :=
  .next (instr e 0x66 (blockAct e f upto true false [fAa f] noCheck (elemBemit e f)) s)

end Sys2Proof.Machine
end

