-- ==== Sys2Proof/Machine/DevMem.lean ====
section
/-! DEFINITION. The LPDDR5X interfaces: the map from device addresses to interface lines (R299 to R304), line reads and writes with
inline ECC (R305, R323, R456). -/

namespace Sys2Proof.Machine

/-- Training is complete (R300). -/
def Body.memReady (b : Body) : Bool := b.rbit MEM_STATUS 0
/-- Populated interfaces (R299). -/
def Body.mcCount (b : Body) : Nat := ((List.range 4).filter (fun k => b.rbit MEM_CFG k)).length
/-- The LPDDR5X region in bytes (R302). -/
def Body.usable (b : Body) : Nat := b.rnat USABLE_MIB * 2 ^ 20
/-- A range lies in the LPDDR5X region (R302). -/
def Body.inDev (b : Body) (a n : Nat) : Bool := decide (a + n ≤ b.usable)
/-- Usable capacity of one interface. -/
def Body.mcSize (b : Body) : Nat := b.usable / b.mcCount

/-- The interface and offset of a device address (R303). -/
def Body.mcOf (b : Body) (a : Nat) : Nat × Nat :=
  if b.rbit MEM_CTL 1 then (a / 4096 % b.mcCount, a / 4096 / b.mcCount * 4096 + a % 4096) else (a / b.mcSize, a % b.mcSize)

/-- The device address of an interface offset (R303). -/
def Body.devAddr (b : Body) (k off : Nat) : Nat :=
  if b.rbit MEM_CTL 1 then (off / 4096 * b.mcCount + k) * 4096 + off % 4096 else k * b.mcSize + off

/-- Where a byte of an interface lies in the memory of the model: a change of INTERLEAVE moves no data (R303). -/
def mcKey (k off : Nat) : Nat := k * 2 ^ 38 + off
/-- Key of the byte at a device address. -/
def Body.devKey (b : Body) (a : Nat) : Nat := mcKey (b.mcOf a).1 (b.mcOf a).2

/-- An interface has failed (R323). -/
def Body.mcFail (b : Body) (k : Nat) : Bool := b.rbit MEM_STATUS (4 + k)

/-- A range of device addresses touches interface `k` (R303). -/
def Body.touches (b : Body) (a n k : Nat) : Bool :=
  if n = 0 then false
  else if b.rbit MEM_CTL 1 then
    let first := a / 4096
    let count := (a + n - 1) / 4096 - first + 1
    (List.range (min count b.mcCount)).any (fun i => (first + i) % b.mcCount == k)
  else decide (a / b.mcSize ≤ k) && decide (k ≤ (a + n - 1) / b.mcSize)

/-- A range touches a failed interface. -/
def Body.touchesFailed (b : Body) (a n : Nat) : Bool := (List.range 4).any (fun k => b.mcFail k && b.touches a n k)

/-- Report an uncorrectable line: a first detection sends a record and counts towards the failure of the interface (R456, R323). -/
def Body.reportLine (b : Body) (c : Clock) (k off : Nat) : Body :=
  let l := b.badLines.get [] k
  if l.contains off then b
  else
    let b := b.fault c 0x05 (k * 2 ^ 8) (b.devAddr k off)
    let recent := (b.mcHits.get [] k).filter (fun t => decide (c.cyc < t + 1000000))
    let b := { b with mcHits := b.mcHits.put [] k (recent ++ [c.cyc]) }
    if l.length < 64 then { b with badLines := b.badLines.put [] k (l ++ [off]) } else b

/-- Count the ECC outcome of a line read (R305). -/
def Body.lineError (b : Body) (c : Clock) (k off kind : Nat) : Body :=
  if kind = 1 then (b.count ECC_CORR_COUNT 1).count (MC_CORR_COUNT k) 1
  else if kind = 2 then ((b.count ECC_UNCORR_COUNT 1).stick MEM_STATUS 13).reportLine c k off
  else b

/-- Read a line of an interface: none on a failed interface or an uncorrectable error (R305, R323). -/
def mcRead (s : State) (k off : Nat) : Option (BitVec 512) × State :=
  if s.body.mcFail k then (none, s)
  else
    let key := mcKey k off
    let e := s.mem.errAt key
    let t : State := { s with mem := s.mem.afterRead key, body := (s.body.traffic 4 k 64).lineError s.clock k off e }
    (if e = 2 then none else some (s.mem.line key), t)

/-- Read the line at a device address. -/
def devRead (s : State) (a : Nat) : Option (BitVec 512) × State := mcRead s (s.body.mcOf a).1 (s.body.mcOf a).2

/-- Write the line at a device address: discarded on a failed interface; else it removes any error and leaves the list of bad lines
(R305, R323, R456). -/
def devWrite (s : State) (a : Nat) (l : BitVec 512) : State :=
  let p := s.body.mcOf a
  if s.body.mcFail p.1 then s
  else
    let b := s.body.traffic 4 p.1 64
    let bad := b.badLines.get [] p.1
    { s with mem := s.mem.putLine (mcKey p.1 p.2) l,
             body := { b with badLines := b.badLines.put [] p.1 (bad.filter (· ≠ p.2)) } }

/-- Write lines at consecutive device addresses. -/
def devWrites (s : State) (a : Nat) : List (BitVec 512) → State
  | [] => s
  | l :: t => devWrites (devWrite s a l) (a + 64) t

/-- Read `n` lines from a device address; an uncorrectable one ends it. -/
def devReads (s : State) (a : Nat) : Nat → List (BitVec 512) × State × Bool
  | 0 => ([], s, true)
  | n + 1 =>
    let r := devRead s a
    match r.1 with
    | none => ([], r.2, false)
    | some l =>
      let q := devReads r.2 (a + 64) n
      (l :: q.1, q.2)

/-- Words cut into packed lines of at most 14 (R7, R315). -/
def chunk14 : Nat → List Word → List (List Word)
  | 0, _ => []
  | n + 1, ws => if ws.isEmpty then [] else ws.take 14 :: chunk14 n (ws.drop 14)

/-- Lines a packet of `n` words takes (R315). -/
def linesOf (n : Nat) : Nat := (n + 13) / 14

end Sys2Proof.Machine
end

