-- ==== Sys2Proof/Machine/Drive.lean ====
section
/-! DEFINITION. Drive, probe and flux composers: entry of pulse commands, the acceptance checks, firing, fork pairs and
retirement (R86 to R114). -/

namespace Sys2Proof.Machine

/-! ### Command fields (R90, R92, R110) -/

/-- OP of a command. -/
def opOf (w1 : Word) : Nat := fld w1 32 4
/-- A pulse-kind command emits samples (R92, R110). -/
def opPulse (op : Nat) : Bool := op == 1 || op == 2 || op == 3
/-- A fork arm: FORK_ARM or FORK_SHIFT. -/
def opFork (op : Nat) : Bool := op == 2 || op == 7

/-- Length in cc of a command; zero for an update (R92, R110). -/
def cmdLen (flux : Bool) (w1 w2 : Word) : Nat :=
  let op := opOf w1
  if op = 1 ∨ op = 2 then (if flux then fld w2 20 16 else fld w2 15 16)
  else if op = 3 then fld w2 0 20
  else 0

/-- Tone slots of an output port; a flux port has the one slot 0 (R90, R106, R109). -/
def slotCount (q : Nat) : Nat := if q < 64 then 4 else if q < 80 then 16 else 1

/-- Ports a PORT field of a command of cove `n` names (R90, R96): none where it is reserved or the group is empty. -/
def Body.targets (b : Body) (n port : Nat) : List Nat :=
  if port < 4 then [4 * n + port]
  else if port = 4 then [64 + n]
  else if port = 5 then [80 + 2 * n]
  else if port = 6 then [81 + 2 * n]
  else if 8 ≤ port ∧ port ≤ 11 then
    ([4 * n, 4 * n + 1, 4 * n + 2, 4 * n + 3, 64 + n]).filter (fun q => b.rbit (PORT_CTL q) (port - 4))
  else []

/-- Carrier of a D or P port, in units of 2⁻⁴⁸ turns per ns. -/
def Body.carrier (b : Body) (p : Nat) : Nat := b.freq (CARRIER_LO p) (CARRIER_HI p)
/-- Frequency word of slot `k`. -/
def Body.slotF (b : Body) (p k : Nat) : Nat := b.freq (SLOT_FREQ_LO p k) (SLOT_FREQ_HI p k)

/-- The offset of a tone from its carrier (R87), in units of 2⁻⁴⁸ turns per ns. -/
def toneOffset (f fc : Nat) : Int := sval 52 ((f : Int) - fc + 2 ^ 52).toNat
/-- |Δ| at most 0.40 turns per ns (R87). -/
def offsetOk (f fc : Nat) : Bool := decide ((toneOffset f fc).natAbs * 10 ≤ 4 * 2 ^ 48)
/-- The carrier lies in the band of the output mode (R89). -/
def inBand (mode2 : Bool) (fc : Nat) : Bool :=
  if mode2 then decide (85 * 2 ^ 48 ≤ fc * 10) && decide (fc * 10 ≤ 120 * 2 ^ 48)
  else decide (2 ^ 48 ≤ fc * 10) && decide (fc * 10 ≤ 75 * 2 ^ 48)

/-! ### Carrier and slot registers (R87, R89, R107) -/

/-- Set F and θ of a slot. -/
def Body.setSlot (b : Body) (p k f th : Nat) : Body :=
  (b.rsetPair (SLOT_FREQ_LO p k) (SLOT_FREQ_HI p k) f).rset (SLOT_FRAME p k) (r32 th)

/-- The value a write of a _HI register commits: its valid bits over the staged low half (R11). -/
def Body.pairNew (b : Body) (lo : Nat) (mask v : Reg32) : Nat := (b.lowFor lo).toNat + 2 ^ 32 * (v &&& mask).toNat

/-- An SL pair not idle refuses a commit that would change it (R10, R11, R455). -/
def Body.pairBusy (b : Body) (idle : Bool) (lo hi : Nat) (mask v : Reg32) : Bool :=
  ! idle && b.pairNew lo mask v != b.rpair lo hi

/-- A write of CARRIER_HI: one of the present carrier counts as no write, else every slot takes the new carrier (R10, R87, R89). -/
def Body.writeCarrier (b : Body) (c : Clock) (p : Nat) (v : Reg32) : Body :=
  let f := b.pairNew (CARRIER_LO p) 0xFFFFF v
  if b.pairBusy (b.portIdle c p) (CARRIER_LO p) (CARRIER_HI p) 0xFFFFF v || ! inBand (b.rbit (PORT_CTL p) 1) f then
    (b.unstage (CARRIER_LO p)).reject (PORT_STATUS p)
  else
    let b1 := b.commitPair (CARRIER_LO p) (CARRIER_HI p) (v &&& 0xFFFFF)
    if f ≠ b.rpair (CARRIER_LO p) (CARRIER_HI p) then (List.range (slotCount p)).foldl (fun b k => b.setSlot p k f 0) b1 else b1

/-- CARRIER_HI_WRITE (R87). -/
def execCarrierHiWrite (p : Fin 80) (v : Reg32) (s : State) : Host.Outcome State Fault Refusal :=
  nextBody (fun c b => b.writeCarrier c p v) s

/-- A write of SLOTk_FREQ_HI (R87). -/
def Body.writeSlotFreq (b : Body) (c : Clock) (p k : Nat) (v : Reg32) : Body :=
  if b.pairBusy (b.portIdle c p) (SLOT_FREQ_LO p k) (SLOT_FREQ_HI p k) 0xFFFFF v ||
      ! offsetOk (b.pairNew (SLOT_FREQ_LO p k) 0xFFFFF v) (b.carrier p) then
    (b.unstage (SLOT_FREQ_LO p k)).reject (PORT_STATUS p)
  else b.commitPair (SLOT_FREQ_LO p k) (SLOT_FREQ_HI p k) (v &&& 0xFFFFF)

/-- Clear the three counters of a port (R107, R121). -/
def Body.clearPortCounts (b : Body) (k : Nat) : Body :=
  ((b.clearCount (k + 0x20)).clearCount (k + 0x24)).clearCount (k + 0x28)

/-- The changed SL bits of a port's control register. -/
def slChanged (old v mask : Reg32) : Bool := (old ^^^ v) &&& mask != 0

/-- A write of CORE_EN: 1 starts, 0 stops (R104). -/
def Body.coreBit (b : Body) (c : Clock) (p : PortRef) (on : Bool) : Body := if on then b.coreStart c p else b.coreStop p

/-- A write of PORT_CTL of a D or P port, judged whole (R89, R104, R107, R455). -/
def Body.writePortCtl (b : Body) (c : Clock) (p : Nat) (v : Reg32) : Body :=
  if (! b.portIdle c p && slChanged (b.rget (PORT_CTL p)) v 0xF2) ||
      (bit v 1 != b.rbit (PORT_CTL p) 1 && ! inBand (bit v 1) (b.carrier p)) ||
      b.coreRefused (.dp p) (bit v 0) then b.reject (PORT_STATUS p)
  else
    let b := b.rset (PORT_CTL p) (b.rget (PORT_CTL p) &&& 1 ||| v &&& 0xF2)
    let b := if bit v 8 then b.clearPortCounts (PORT_CTL p) else b
    b.coreBit c (.dp p) (bit v 0)

/-! ### Queues -/

/-- Replace the first occurrence of an entry; `none` takes it out. -/
def swapFirst (p : PulseCmd) (r : Option PulseCmd) : List PulseCmd → List PulseCmd
  | [] => []
  | x :: t =>
    if x = p then
      match r with
      | some y => y :: t
      | none => t
    else x :: swapFirst p r t

/-- Replace a queued command of a port, or take it out. -/
def Body.swapCmd (b : Body) (q : Nat) (p : PulseCmd) (r : Option PulseCmd) : Body :=
  let x := b.comp q
  b.setComp q { x with queue := swapFirst p r x.queue }

/-! ### Discards (R93) -/

/-- A discard with flag `i`: DISCARD_COUNT, LATE_COUNT for LATE, the flag, and performance event 0x21. -/
def Body.discardOn (b : Body) (c : Clock) (q i : Nat) : Body :=
  let k := portBase q
  let b := b.count (k + 0x24) 1
  let b := if i = 0 then b.count (k + 0x20) 1 else b
  (b.perf 0x21 q 1).portFlag c q i

/-- A command that reaches no composer: the cove records it (R93, R196, R208). -/
def Body.badIssue (b : Body) (c : Clock) (n : Nat) : Body := (b.count (BAD_ISSUE_COUNT n) 1).gatherFlag c n 5

/-! ### Acceptance (R93 to R96, R99) -/

/-- The LEN and ADDR rules of check 1 (R92, R93, R110). -/
def lenOk (flux : Bool) (w1 w2 : Word) : Bool :=
  let op := opOf w1
  let n := cmdLen flux w1 w2
  if op = 1 ∨ op = 2 then
    (op == 2 || decide (1 ≤ n)) &&
      (if flux then decide (fld w2 0 20 + n ≤ 1048576) else decide (n ≤ 32768) && decide (fld w2 0 15 + n ≤ 32768))
  else if op = 3 then decide (1 ≤ n)
  else true

/-- Opcodes that exist (R92, R110). -/
def opValid (flux : Bool) (op : Nat) : Bool := decide (1 ≤ op) && decide (op ≤ 7) && ! (flux && op == 4)

/-- Check 1 of R93 at one target port. -/
def Body.check1 (b : Body) (q : Nat) (w1 w2 w3 : Word) : Bool :=
  let flux := decide (80 ≤ q)
  b.anchored && opValid flux (opOf w1) && decide (fld w1 24 4 < slotCount q) && lenOk flux w1 w2 &&
  (! (opOf w1 == 4) || offsetOk (toneF w2 w3).toNat (b.carrier q)) &&
  ! (opFork (opOf w1) && bit w1 17 && decide (35 < fld w1 3 7))

/-- Horizons of a slot of a port (R94). -/
def Composer.horizon (x : Composer) (slot : Nat) : Horizon := x.hz.get ⟨0, 0⟩ slot

/-- Check 3 of R93 at one target port (R94). The spec does not say whether SUB, which a slot update ignores (R92), counts in its (v, k):
k is SUB for every command (DESIGN CHOICE, assumption 55). -/
def Body.check3 (b : Body) (q : Nat) (v : Int) (w1 : Word) : Bool :=
  let h := (b.comp q).horizon (fld w1 24 4)
  let t := 16 * v + fld w1 28 4
  decide (h.cmd ≤ t) && (! opPulse (opOf w1) || decide (h.fin ≤ t))

/-- The arm of a slot that waits for its partner (R99). -/
def Body.waitingArm (b : Body) (q slot : Nat) : Option PulseCmd :=
  (b.comp q).queue.find? (fun p => p.slot == slot && decide (p.st = .waiting))

/-- Is a command the partner of the waiting arm (R99)? -/
def PulseCmd.partner (p : PulseCmd) (w0 w1 : Word) : Bool :=
  p.w0 == w0 && (p.w1 ^^^ w1) == 0x0000C0000#36

/-- Check 4 of R93 at one target port: while an arm waits, the next command of its slot must be its partner (R99). -/
def Body.check4 (b : Body) (q : Nat) (w0 w1 : Word) : Bool :=
  match b.waitingArm q (fld w1 24 4) with
  | some p => p.partner w0 w1
  | none => true

/-- The first check of R93 that fails at a set of target ports, as its flag (R96). -/
def Body.firstFail (b : Body) (c : Clock) (qs : List Nat) (v : Int) (w0 w1 w2 w3 : Word) : Option Nat :=
  if ! qs.all (fun q => b.check1 q w1 w2 w3) then some 5
  else if v < c.now + 40 then some 0
  else if ! qs.all (fun q => b.check3 q v w1) then some 3
  else if ! qs.all (fun q => b.check4 q w0 w1) then some 4
  else none

/-- Discard the arm that waits on a slot of a port, with FORK_ERR (R99). -/
def Body.dropWaiting (b : Body) (c : Clock) (q slot : Nat) : Body :=
  match b.waitingArm q slot with
  | some p => (b.swapCmd q p none).discardOn c q 4
  | none => b

/-- A discarded command at one port, with the waiting arm it takes along (R99). -/
def Body.discardAt (b : Body) (c : Clock) (w1 : Word) (flag q : Nat) : Body :=
  (b.dropWaiting c q (fld w1 24 4)).discardOn c q flag

/-- Put an accepted command into the queue of a port and move its horizons (R94, R95), with k from SUB for a slot update too (DESIGN
CHOICE, assumption 55). -/
def Body.enqueue (b : Body) (q : Nat) (v : Int) (w0 w1 w2 w3 : Word) : Body :=
  let x := b.comp q
  let slot := fld w1 24 4
  let len := cmdLen (decide (80 ≤ q)) w1 w2
  let t := 16 * v + fld w1 28 4
  let cmd (st : CmdSt) : PulseCmd := ⟨v, fld w1 28 4, slot, len, w0, w1, w2, w3, st⟩
  let fin (n : Nat) : Int := if opPulse (opOf w1) then t + 16 * n else (x.horizon slot).fin
  let b := b.perf 0x20 q 1
  if opFork (opOf w1) then
    match b.waitingArm q slot with
    | none => b.setComp q { x with queue := x.queue ++ [cmd .waiting] }
    | some p =>
      b.setComp q { x with queue := swapFirst p (some { p with st := .queued }) x.queue ++ [cmd .queued],
                           hz := x.hz.put ⟨0, 0⟩ slot ⟨t, fin (max len p.len)⟩ }
  else b.setComp q { x with queue := x.queue ++ [cmd .queued], hz := x.hz.put ⟨0, 0⟩ slot ⟨t, fin len⟩ }

/-- Room for a command at a port: 256 entries of the port queue, 64 of a D or P slot queue (R23, R95). -/
def Body.queueRoom (b : Body) (q slot : Nat) : Bool :=
  decide ((b.comp q).queue.length < 256) &&
  (decide (80 ≤ q) || decide (((b.comp q).queue.filter (fun p => p.slot == slot)).length < 64))

/-- A pulse command of cove `n` enters the queues it names: it waits on a full queue (R23, R96), is discarded with the
flag of the first check that fails (R93), or is accepted. -/
def Body.enterPulse (b : Body) (c : Clock) (n : Nat) (w0 w1 w2 w3 : Word) : Body :=
  let qs := b.targets n (fld w1 20 4)
  let v := resolveTide c.now w0.toNat
  if ! qs.all (fun q => b.queueRoom q (fld w1 24 4)) then b
  else if qs.isEmpty then b.badIssue c n
  else
    match b.firstFail c qs v w0 w1 w2 w3 with
    | some flag => qs.foldl (fun b q => b.discardAt c w1 flag q) b
    | none => qs.foldl (fun b q => b.enqueue q v w0 w1 w2 w3) b

/-- An engine has sent this command and it is on its way: it enters by itself in its cycle (R225). -/
def Body.sentOn (b : Body) (n : Nat) (window : Bool) (w0 w1 w2 w3 : Word) : Bool :=
  b.issue.any (fun (i : Issue) => i.cove == n && i.window == window && i.w0 == w0 && i.w1 == w1 && i.w2 == w2 && i.w3 == w3)

/-- A pulse command is commanded to enter; one an engine has sent does so in its cycle only (R194, R225; log entry 57). -/
def Body.pulseIn (b : Body) (c : Clock) (n : Nat) (w0 w1 w2 w3 : Word) : Body :=
  if b.sentOn n false w0 w1 w2 w3 then b else b.enterPulse c n w0 w1 w2 w3

/-- PULSE entering a queue (R92, R93). -/
def execPulse (n : Fin 16) (w0 : Word) (w1 : Word) (w2 : Word) (w3 : Word) (s : State) : Host.Outcome State Fault Refusal :=
  nextBody (fun c b => b.pulseIn c n w0 w1 w2 w3) s
/-- FORK_ARM entering a queue (R93, R99). -/
def execForkArm (n : Fin 16) (w0 : Word) (w1 : Word) (w2 : Word) (w3 : Word) (s : State) : Host.Outcome State Fault Refusal :=
  nextBody (fun c b => b.pulseIn c n w0 w1 w2 w3) s
/-- CONST entering a queue (R92, R93). -/
def execConst (n : Fin 16) (w0 : Word) (w1 : Word) (w2 : Word) (w3 : Word) (s : State) : Host.Outcome State Fault Refusal :=
  nextBody (fun c b => b.pulseIn c n w0 w1 w2 w3) s
/-- SET_FREQ entering a queue (R87, R92, R93). -/
def execSetFreq (n : Fin 16) (w0 : Word) (w1 : Word) (w2 : Word) (w3 : Word) (s : State) : Host.Outcome State Fault Refusal :=
  nextBody (fun c b => b.pulseIn c n w0 w1 w2 w3) s
/-- SET_FRAME entering a queue (R92, R93). -/
def execSetFrame (n : Fin 16) (w0 : Word) (w1 : Word) (w2 : Word) (w3 : Word) (s : State) : Host.Outcome State Fault Refusal :=
  nextBody (fun c b => b.pulseIn c n w0 w1 w2 w3) s
/-- SHIFT_FRAME entering a queue (R92, R93). -/
def execShiftFrame (n : Fin 16) (w0 : Word) (w1 : Word) (w2 : Word) (w3 : Word) (s : State) : Host.Outcome State Fault Refusal :=
  nextBody (fun c b => b.pulseIn c n w0 w1 w2 w3) s
/-- FORK_SHIFT entering a queue (R93, R99). -/
def execForkShift (n : Fin 16) (w0 : Word) (w1 : Word) (w2 : Word) (w3 : Word) (s : State) : Host.Outcome State Fault Refusal :=
  nextBody (fun c b => b.pulseIn c n w0 w1 w2 w3) s
/-- Flux PULSE entering a queue (R93, R109, R110). -/
def execFluxPulse (n : Fin 16) (w0 : Word) (w1 : Word) (w2 : Word) (w3 : Word) (s : State) : Host.Outcome State Fault Refusal :=
  nextBody (fun c b => b.pulseIn c n w0 w1 w2 w3) s
/-- Flux FORK_ARM entering a queue (R110, R114). -/
def execFluxForkArm (n : Fin 16) (w0 : Word) (w1 : Word) (w2 : Word) (w3 : Word) (s : State) : Host.Outcome State Fault Refusal :=
  nextBody (fun c b => b.pulseIn c n w0 w1 w2 w3) s
/-- RAMP entering a queue (R110, R111). -/
def execRamp (n : Fin 16) (w0 : Word) (w1 : Word) (w2 : Word) (w3 : Word) (s : State) : Host.Outcome State Fault Refusal :=
  nextBody (fun c b => b.pulseIn c n w0 w1 w2 w3) s
/-- SET_LEVEL entering a queue (R110). -/
def execSetLevel (n : Fin 16) (w0 : Word) (w1 : Word) (w2 : Word) (w3 : Word) (s : State) : Host.Outcome State Fault Refusal :=
  nextBody (fun c b => b.pulseIn c n w0 w1 w2 w3) s
/-- SHIFT_LEVEL entering a queue (R110). -/
def execShiftLevel (n : Fin 16) (w0 : Word) (w1 : Word) (w2 : Word) (w3 : Word) (s : State) : Host.Outcome State Fault Refusal :=
  nextBody (fun c b => b.pulseIn c n w0 w1 w2 w3) s
/-- Flux FORK_SHIFT entering a queue (R110, R114). -/
def execFluxForkShift (n : Fin 16) (w0 : Word) (w1 : Word) (w2 : Word) (w3 : Word) (s : State) : Host.Outcome State Fault Refusal :=
  nextBody (fun c b => b.pulseIn c n w0 w1 w2 w3) s

/-! ### Fire times (R31, R97, R113) -/

/-- Tide Time of sample `j` of `m` in the present cycle, in units of 2⁻³² ÷ m ns (R31). -/
def Body.sampleTide (b : Body) (c : Clock) (m j : Nat) : Nat := m * c.tt.toNat + j * b.rnat TIDE_INC_ACT * 2 ^ 8

/-- A fire time (v, k) in units of 2⁻³² ÷ m ns. -/
def fireTide (m : Nat) (v : Int) (k : Nat) : Int := (m : Int) * (16 * v + k) * 2 ^ 28

/-- The fire time (v, k) is reached by some sample of this cycle (R31). -/
def Body.fireDue (b : Body) (c : Clock) (m : Nat) (v : Int) (k : Nat) : Bool :=
  decide (fireTide m v k ≤ b.sampleTide c m (m - 1))

/-- First sample of this cycle at or after (v, k) (R31). -/
def Body.fireSample (b : Body) (c : Clock) (m : Nat) (v : Int) (k : Nat) : Nat :=
  ((List.range m).find? (fun j => decide (fireTide m v k ≤ b.sampleTide c m j))).getD 0

/-- Samples per cc of a composer (R31). -/
def sampPerCc (q : Nat) : Nat := if q < 80 then 16 else 2

/-! ### Firing (R92, R97, R104, R111) -/

/-- Apply a slot update (R92). -/
def Body.applyUpdate (b : Body) (q : Nat) (p : PulseCmd) : Body :=
  let th := b.rfld (SLOT_FRAME q p.slot) 0 18
  match opOf p.w1 with
  | 4 => b.setSlot q p.slot (toneF p.w2 p.w3).toNat th
  | 5 => b.rset (SLOT_FRAME q p.slot) (r32 (fld p.w3 0 18))
  | _ => b.rset (SLOT_FRAME q p.slot) (r32 ((th + fld p.w3 0 18) % 2 ^ 18))

/-- A queued command has fired. -/
def Body.markFired (b : Body) (q : Nat) (p : PulseCmd) : Body := b.swapCmd q p (some { p with st := .fired })

/-- Take a command out of its queue. -/
def Body.dequeue (b : Body) (q : Nat) (p : PulseCmd) : Body := b.swapCmd q p none

/-- A command whose turn has come: queued, or selected if it is a fork arm (R100). -/
def PulseCmd.ripe (p : PulseCmd) : Bool :=
  decide (p.st = .selected) || (decide (p.st = .queued) && ! opFork (opOf p.w1))

/-- The commands of a slot that have not fired, in queue order. -/
def Body.unfired (b : Body) (q slot : Nat) : List PulseCmd :=
  (b.comp q).queue.filter (fun p => p.slot == slot && decide (p.st ≠ .fired))

/-- SLOT_UPDATE: the oldest command of the slot that has not fired is an update, and its time has come (R92). -/
def Body.slotUpdate (b : Body) (c : Clock) (q slot : Nat) : Body :=
  match b.unfired q slot with
  | p :: _ =>
    if p.ripe && ! opPulse (opOf p.w1) && decide (p.v ≤ c.now) then (b.applyUpdate q p).markFired q p else b
  | [] => b

/-- SLOT_UPDATE (R92). -/
def execSlotUpdate (q : Fin 112) (k : Fin 16) (s : State) : Host.Outcome State Fault Refusal :=
  nextBody (fun c b => if q < 80 then b.slotUpdate c q k else b) s

/-- The queue of a port starts a pulse-kind command: in Slack it is discarded (R39), without READY it emits nothing and records
CONV_NOT_READY, a silent arm too (R92, R104, R120); else a silent arm emits nothing, and any other starts emitting at sample `j` of the
cycle (R31, R97). -/
def Body.firePulse (b : Body) (c : Clock) (q : Nat) (p : PulseCmd) : Body :=
  if b.inSlack p.v then ((b.stick TIDE_STATUS 10).dequeue q p).discardOn c q 8
  else if ! b.rbit (portBase q + 4) 1 then (b.markFired q p).portFlag c q 7
  else if p.len = 0 then b.markFired q p
  else
    let b := b.markFired q p
    let m := sampPerCc q
    let j := b.fireSample c m p.v p.k
    let trim := b.rfld (portBase q + 0x14) 0 8
    let last := c.cyc + 36 + (j * (16 / m) + trim + 16 * p.len - 1) / 16
    let x := b.comp q
    let e : Emission := ⟨p.slot, c.cyc, j, p.len, last, p.w1, p.w2, p.w3⟩
    let b := b.setComp q { x with run := x.run ++ [e] }
    if b.racedNow c q e then b.portFlag c q 6 else b

/-- Updates of the slot ahead of a pulse and no later than it apply first (R94). -/
def Body.flushUpdates (b : Body) (q slot : Nat) (v : Int) : Body :=
  ((b.unfired q slot).takeWhile (fun p => p.ripe && ! opPulse (opOf p.w1) && decide (p.v ≤ v))).foldl
    (fun b p => (b.applyUpdate q p).markFired q p) b

/-- L of a flux port as a command that acts on sample `j` of this cycle finds it: after an earlier command of the same sample, else before
the sample (R94, R111). -/
def FluxSt.before (x : FluxSt) (j : Nat) : Int :=
  if j = 0 then (if x.at0 then x.lev0 else x.lprev) else if x.at1 then x.lev1 else x.lev0

/-- Value of a ramp at its sample `m`, L0 + (T − L0) × (m + 1) ÷ (2 × LEN) rounded convergently (R111). -/
def Ramp.at (r : Ramp) (m : Nat) : Int := roundEven (r.l0 * (2 * r.len) + (r.tgt - r.l0) * (m + 1)) (2 * r.len)

/-- A command sets both sample levels of a flux port from sample `j` on. -/
def FluxSt.setFrom (x : FluxSt) (j : Nat) (l : Int) : FluxSt :=
  if j = 0 then { x with lev0 := l, lev1 := l, at0 := true, at1 := false } else { x with lev1 := l, at1 := true }

/-- The LEVEL register follows the level after the last sample of the cycle (R121). -/
def Body.syncLevel (b : Body) (f : Nat) : Body := b.rset (FLX_LEVEL f) (r32 (wrap 18 (b.flx f).lev1))

/-- A RAMP starts on sample `j` (R111). -/
def Body.startRamp (b : Body) (f j : Nat) (p : PulseCmd) : Body :=
  let x := b.flx f
  let r : Ramp := ⟨x.before j, sval 18 (fld p.w3 18 18), p.len, 0⟩
  let x := if j = 0 then { x with lev0 := r.at 0, lev1 := r.at 1, at0 := true, at1 := false,
                                   ramp := if p.len ≤ 1 then none else some { r with m := 2 } }
    else { x with lev1 := r.at 0, at1 := true, ramp := some { r with m := 1 } }
  (b.setFlx f x).syncLevel f

/-- A pulse-kind command of a flux port fires; a RAMP that is not discarded moves the level (R104, R111). -/
def Body.fireFlux (b : Body) (c : Clock) (f : Nat) (p : PulseCmd) : Body :=
  let go := ! b.inSlack p.v && opOf p.w1 == 3
  let b := b.firePulse c (80 + f) p
  if go then b.startRamp f (b.fireSample c 2 p.v p.k) p else b

/-- PULSE_START: the oldest command of the slot that has not fired, past the updates that come with it, is a pulse whose fire
time a sample of this cycle reaches (R31, R97). -/
def Body.pulseStart (b : Body) (c : Clock) (q slot : Nat) : Body :=
  match (b.unfired q slot).find? (fun p => opPulse (opOf p.w1)) with
  | some p =>
    if p.ripe && b.fireDue c (sampPerCc q) p.v p.k then
      if q < 80 then
        let b := b.flushUpdates q slot p.v
        match b.unfired q slot with
        | y :: _ => if y = p then b.firePulse c q p else b
        | [] => b
      else
        match b.unfired q slot with
        | y :: _ => if y = p then b.fireFlux c (q - 80) p else b
        | [] => b
    else b
  | none => b

/-- PULSE_START (R97). -/
def execPulseStart (q : Fin 112) (k : Fin 16) (s : State) : Host.Outcome State Fault Refusal := nextBody (fun c b => b.pulseStart c q k) s

/-! ### Selection (R99, R100) -/

/-- FORK_SELECT: v − 6 has come for the oldest unfired pair of the slot, which reads its condition with this cycle; an arm without partner
is discarded (R99, R100). -/
def Body.forkSelect (b : Body) (c : Clock) (q slot : Nat) : Body :=
  match (b.unfired q slot).filter (fun p => opFork (opOf p.w1) && decide (p.st ≠ .selected) && decide (p.st ≠ .due)) with
  | [] => b
  | p :: rest =>
    if c.now + 6 < p.v then b
    else if p.st = .waiting then (b.dequeue q p).discardOn c q 4
    else
      match rest with
      | [] => b
      | y :: _ => (b.swapCmd q p (some { p with st := .due })).swapCmd q y (some { y with st := .due })

/-- One pair whose select cycle this is: the arm whose ARM bit equals the condition is kept, the default arm with LATE_DECISION where the
condition is not valid, and the other retires (R100). -/
def Body.selectPair (b : Body) (c : Clock) (q : Nat) (p y : PulseCmd) : Body :=
  let cond := b.condition (coveOfPort q) (bit p.w1 17) (fld p.w1 0 17)
  let first := match cond with
    | some x => bit p.w1 19 == x
    | none => bit p.w1 18
  let b := if cond.isNone then b.portFlag c q 1 else b
  let keep := if first then p else y
  let lose := if first then y else p
  (b.dequeue q lose).swapCmd q keep (some { keep with st := .selected })

/-- Arms taken two by two. -/
def pairUp : List PulseCmd → List (PulseCmd × PulseCmd)
  | p :: y :: t => (p, y) :: pairUp t
  | _ => []

/-- The pairs of a port whose select cycle this is. -/
def Composer.duePairs (x : Composer) : List (PulseCmd × PulseCmd) :=
  ((List.range 16).map (fun k => pairUp (x.queue.filter (fun p => p.slot == k && decide (p.st = .due))))).flatten

/-- Every pair whose select cycle this is reads its condition as the cycle leaves it: a slot or result that has become valid in the cycle is
seen, and all members of a port group see the same (R100). -/
def Body.selectForks (b : Body) (c : Clock) : Body :=
  (b.comps.entries.map (·.1)).foldl (fun b q => (b.comp q).duePairs.foldl (fun b e => b.selectPair c q e.1 e.2) b) b

/-- FORK_SELECT (R100). -/
def execForkSelect (q : Fin 112) (k : Fin 16) (s : State) : Host.Outcome State Fault Refusal := nextBody (fun c b => b.forkSelect c q k) s

/-! ### Flux level updates and retirement -/

/-- Apply a level update from sample `j` (R110, R111); a saturated SHIFT_LEVEL is a clip (R118). -/
def Body.applyLevel (b : Body) (f j : Nat) (p : PulseCmd) : Body × Bool :=
  let x := b.flx f
  let val := sval 18 (fld p.w3 18 18)
  let sum := if opOf p.w1 = 5 then val else x.before j + val
  let x := { x.setFrom j (satS 18 sum) with ramp := none }
  ((b.setFlx f x).syncLevel f, ovfS 18 sum)

/-- Record a clip of this cycle (R103): CLIP_COUNT once per cycle, the flag, and on the first of the epoch CLIP_AT and, at a
port with slots, the slots emitting. -/
def Body.clip (b : Body) (c : Clock) (q : Nat) : Body :=
  let k := portBase q
  let b := if b.log.incs.get 0 (k + 0x28) = 0 then (b.count (k + 0x28) 1).perf 0x22 q 1 else b
  let b := b.portFlag c q 2
  let x := b.comp q
  if x.clipped then b
  else
    let b := (b.setComp q { x with clipped := true }).rset (k + 0x2C) (r32 c.now)
    if q < 80 then
      let mask := (List.range 16).map (fun i => if x.run.any (fun p => p.slot == i && p.on c) then 2 ^ i else 0)
      b.rset (k + 0x30) (r32 mask.sum)
    else b

/-- LEVEL_UPDATE: the oldest unfired command of the flux port is a level update whose time a sample of this cycle reaches
(R111, R113). -/
def Body.levelUpdate (b : Body) (c : Clock) (f : Nat) : Body :=
  let q := 80 + f
  match b.unfired q 0 with
  | p :: _ =>
    if p.ripe && ! opPulse (opOf p.w1) && b.fireDue c 2 p.v p.k then
      let r := b.applyLevel f (b.fireSample c 2 p.v p.k) p
      let b := if r.2 then r.1.clip c q else r.1
      b.markFired q p
    else b
  | [] => b

/-- LEVEL_UPDATE (R111). -/
def execLevelUpdate (f : Fin 32) (s : State) : Host.Outcome State Fault Refusal := nextBody (fun c b => b.levelUpdate c f) s

/-- COMMAND_RETIRE: fired commands whose end the Tide Time has reached leave the queue (R95). -/
def Body.retire (b : Body) (c : Clock) (q : Nat) : Body :=
  let x := b.comp q
  b.setComp q { x with queue := x.queue.filter (fun p => ! (decide (p.st = .fired) && decide (p.v + p.len ≤ c.now))) }

/-- COMMAND_RETIRE (R95). -/
def execCommandRetire (q : Fin 112) (s : State) : Host.Outcome State Fault Refusal := nextBody (fun c b => b.retire c q) s

end Sys2Proof.Machine
end

