-- ==== Sys2Proof/Machine/Cove.lean ====
section
/-! DEFINITION. Engine commands, the shot release, Guarded mode and the spare pair (R198 to R208, R240, R248). -/

namespace Sys2Proof.Machine

/-! ### Engine commands (R198, R208) -/

/-- The engine starts at ENTRY with nothing in progress (R198, R199). -/
def Body.startEngine (b : Body) (g : Nat) : Body :=
  let x := (b.eng g).quiet
  (b.setEng g { x with pc := BitVec.ofNat 24 (b.rnat (ENG_ENTRY (b.leader g))), fbuf := [], fresh := true }).setEngState g 2

/-- ARM and START are taken: no reload or build runs, the control stores hold an image and no load holds the cove (R203, R257, R258). -/
def Body.mayRun (b : Body) (n : Nat) : Bool := ! b.rbit (COVE_STATUS n) 1 && b.rbit (MC_VERSION n) 31 && ! b.rbit (MC_VERSION n) 30

/-- A refused command sets CFG_REJECT for the engine, for its logical engine if it is an odd twin (R208). -/
def Body.refuseEng (b : Body) (g : Nat) : Body × Bool := (b.reject (ENG_STATUS (b.leader g)), true)

/-- A command of ENGe_CMD: 0 ARM, 1 START, 2 STOP, 3 CLEAR_FAULT; true if it is refused. -/
def Body.engCommand (b : Body) (g cmd : Nat) : Body × Bool :=
  let st := b.engState g
  if b.oddTwin g then b.refuseEng g
  else
    match cmd with
    | 0 => if st = 0 ∧ b.mayRun (g / 12) then (b.setEngState g 1, false) else b.refuseEng g
    | 1 => if (st = 0 ∨ st = 1) ∧ b.mayRun (g / 12) then (b.startEngine g, false) else b.refuseEng g
    | 2 =>
      if st = 2 ∨ st = 3 then (b.setEng g { b.eng g with stop := true }, false)
      else if st = 1 then (b.setEngState g 0, false)
      else b.refuseEng g
    | _ => if st = 4 then ((b.setEngState g 0).rset (ENG_FAULT g) 0, false) else b.refuseEng g

/-- ARM (R198). -/
def execArm (e : Fin 192) (s : State) : Host.Outcome State Fault Refusal := nextBody (fun _ b => (b.engCommand e 0).1) s
/-- START (R198). -/
def execStart (e : Fin 192) (s : State) : Host.Outcome State Fault Refusal := nextBody (fun _ b => (b.engCommand e 1).1) s
/-- STOP (R198). -/
def execStop (e : Fin 192) (s : State) : Host.Outcome State Fault Refusal := nextBody (fun _ b => (b.engCommand e 2).1) s
/-- CLEAR_FAULT (R198). -/
def execClearFault (e : Fin 192) (s : State) : Host.Outcome State Fault Refusal := nextBody (fun _ b => (b.engCommand e 3).1) s

/-- ENGINE_STOP_ACT: a waiting STOP acts; open packets are rewound (R198). -/
def Body.stopAct (b : Body) (c : Clock) (g : Nat) : Body :=
  let st := b.engState g
  if ! b.oddTwin g && (st == 2 || st == 3) && (b.eng g).stop then
    let b := b.rewindAll c g none
    (b.setEng g (b.eng g).quiet).setEngState g 0
  else b

/-- ENGINE_STOP_ACT (R198). -/
def execEngineStopAct (e : Fin 192) (s : State) : Host.Outcome State Fault Refusal := nextBody (fun c b => b.stopAct c e) s

/-- A write of ENGe_CMD: exactly one bit names a command; no bit does nothing (R208). -/
def Body.writeEngCmd (b : Body) (g : Nat) (v : Reg32) : Body :=
  match fld v 0 4 with
  | 0 => if b.oddTwin g then (b.refuseEng g).1 else b
  | 1 => (b.engCommand g 0).1
  | 2 => (b.engCommand g 1).1
  | 4 => (b.engCommand g 2).1
  | 8 => (b.engCommand g 3).1
  | _ => (b.refuseEng g).1

/-- A write of ENGe_ENTRY (R208). -/
def Body.writeEntry (b : Body) (g : Nat) (v : Reg32) : Body :=
  let a := fld v 0 24
  let st := b.engState g
  let busy := ! (st == 0 || st == 1 || st == 5) && a != b.rnat (ENG_ENTRY g)
  if b.oddTwin g || busy || ! inShared a then (b.refuseEng g).1 else b.rset (ENG_ENTRY g) (r32 a)

/-- A write of ENGe_CTL (R208). -/
def Body.writeEngCtl (b : Body) (g : Nat) (v : Reg32) : Body :=
  if b.oddTwin g then (b.refuseEng g).1 else b.rset (ENG_CTL g) (v &&& 1)

/-- A write of ENGe_STATUS (R208). -/
def Body.writeEngStatus (b : Body) (g : Nat) (v : Reg32) : Body :=
  if b.oddTwin g then (b.refuseEng g).1 else b.w1c (ENG_STATUS g) 0x300 v

/-! ### Shot release (R199, R206) -/

/-- The release as one engine takes it. -/
def Body.releaseOne (b : Body) (c : Clock) (g : Nat) : Body :=
  let n := g / 12
  if b.oddTwin g then b
  else
    match b.engState g with
    | 1 => b.startEngine g
    | 2 | 3 => (((b.count (COVE_OVERRUN_COUNT n) 1).stick (ENG_STATUS g) 9).gatherFlag c n 20).tiError g 0x80
    | _ =>
      if (b.cove n).loading = some (g % 12 / 2) ∧ g % 2 = 0 then
        (b.setCove n { b.cove n with miss := true }).gatherFlag c n 23
      else b

/-- The shot release of every engine (R199). -/
def Body.release (b : Body) (c : Clock) : Body := (List.range 192).foldl (fun b g => b.releaseOne c g) b

/-! ### Guarded mode (R200 to R207) -/

/-- A cove is idle (R200). -/
def Body.coveIdle (b : Body) (n : Nat) : Bool :=
  ! b.rbit (COVE_STATUS n) 1 &&
  (List.range 12).all (fun e =>
    let st := b.engState (12 * n + e)
    st == 0 || st == 5 || st == 6)

/-- Device address of the reload image of logical pair `p` (R206). -/
def Body.imageAt (b : Body) (n p : Nat) : Nat := b.rpair (RELOAD_BASE_LO n) (RELOAD_BASE_HI n) + p * 0x28000

/-- Local data memory of a physical engine as words. -/
def Mem.localWords (m : Mem) (e : Nat) : List Word := (List.range 32768).map (fun w => m.word (localAddr e w))

/-- The packed lines of a reload image: 2,340 of 14 words and one of 8, each FIRST and LAST (R206). -/
def imageLines (ws : List Word) : List (BitVec 512) := (chunk14 2341 ws).map (fun l => packLine l true true false)

/-- An address of the local data memory of a physical engine. -/
def inLocal (e k : Nat) : Bool := decide (localAddr e 0 ≤ k) && decide (k < localAddr (e + 1) 0)

/-- Read the whole local data memory of a physical engine: errors are counted and corrected (R186); answers the memory as read, in which a word
with a double-bit error holds an open value (log entry 41). -/
def readLocal (s : State) (e : Nat) : State × Mem :=
  let mine := s.mem.err.entries.filter (fun x => inLocal e x.1)
  let body := mine.foldl (fun b x => b.noteRead s.clock s.mem x.1) s.body
  let mem := mine.foldl (fun m x => m.afterRead x.1) s.mem
  let lost := mine.filter (fun x => x.2 == 2)
  let seen := lost.zipIdx.foldl (fun m x =>
    { m with onDie := m.onDie.put dieDefault x.1.1 (BitVec.ofNat 36 (Config.freeValue (s.body.free + x.2)).toNat) }) mem
  ({ s with body := { body with free := body.free + lost.length }, mem := mem }, seen)

/-- Copy the local data memory of a physical engine, as read, into the next one: every word is written with fresh check bits (R186, R203,
R456). -/
def copyLocal (s : State) (seen : Mem) (e : Nat) : State :=
  let mine := seen.onDie.entries.filter (fun x => inLocal e x.1)
  let cleared := s.mem.onDie.dropKeys (inLocal (e + 1))
  { s with
    mem := { s.mem with onDie := mine.foldl (fun t x => t.put dieDefault (x.1 + 0x40000) x.2) cleared,
                        err := s.mem.err.dropKeys (inLocal (e + 1)) }
    body := { s.body with badDie := s.body.badDie.filter (fun k => ! inLocal (e + 1) k) } }

/-- Write the reload image of pair `p` from the memory of physical engine `e`, which its odd twin gets too where `copy` says so (R203). -/
def writeImage (s : State) (n p e : Nat) (copy : Bool) : State :=
  let r := readLocal s e
  let s := if copy then copyLocal r.1 r.2 e else r.1
  devWrites s (s.body.imageAt n p) (imageLines (r.2.localWords e))

/-- The active pairs. -/
def Body.activePairs (b : Body) (n : Nat) : List Nat := (List.range 6).filter (fun p => ! b.isSpare n p)

/-- The images of a cove can be built: device memory is ready and none touches a failed interface (R203). -/
def Body.imagesOk (b : Body) (n base : Nat) : Bool :=
  b.memReady && b.inDev base (6 * 0x28000) && (List.range 6).all (fun p => ! b.touchesFailed (base + p * 0x28000) 149824) &&
  decide (n < 16)

/-- Start building the images of the active pairs (R203). -/
def buildImages (s : State) (n : Nat) (copy : Bool) : State :=
  let s := (s.body.activePairs n).foldl (fun s p => writeImage s n p (12 * n + 2 * s.body.pairOf n p) copy) s
  { s with body := (s.body.setCove n { s.body.cove n with build := true }).rsetBit (COVE_STATUS n) 1 true }

/-- The states of the engines of a cove that enters Guarded mode: the spare pair SPARE, the others STOPPED (R201). -/
def Body.guardStates (b : Body) (n : Nat) : Body :=
  (List.range 12).foldl (fun b e => b.rsetFld (ENG_STATUS (12 * n + e)) 0 3 (if b.isSpare n (e / 2) then 5 else 0)) b

/-- Enter Guarded mode, or enter it again with the spare regained (R203, R207). -/
def enterGuarded (s : State) (n : Nat) : State :=
  let b := (s.body.rset (PAIR_MAP n) 0x2C688).guardStates n
  let b := (b.rsetBit (COVE_STATUS n) 2 true).rsetBit (COVE_STATUS n) 3 false
  buildImages { s with body := b.setCove n ⟨[], none, false, false⟩ } n true

/-- Leave Guarded mode: each pair's engines hold the same state and registers, none is SPARE or FAILED (log entry 41). -/
def Body.leaveGuarded (b : Body) (n : Nat) : Body :=
  let b := (List.range 6).foldl (fun b p =>
    let g := 12 * n + 2 * p
    let b := { b with engs := b.engs.put .reset (g + 1) (b.engs.get .reset g) }
    let b := (b.rset (ENG_CTL (g + 1)) (b.rget (ENG_CTL g))).rset (ENG_ENTRY (g + 1)) (b.rget (ENG_ENTRY g))
    let b := (b.rset (ENG_STATUS (g + 1)) (b.rget (ENG_STATUS g))).rset (ENG_FAULT (g + 1)) (b.rget (ENG_FAULT g))
    (b.rsetFld (ENG_STATUS g) 0 3 0).rsetFld (ENG_STATUS (g + 1)) 0 3 0) b
  let b := (b.rset (PAIR_MAP n) 0x2C688).rsetBit (COVE_STATUS n) 2 false
  b.setCove n ⟨[], none, false, false⟩

/-- CADENCE contradicts the cadence the loaded patch requires (R248, R258). -/
def Body.cadenceClash (b : Body) (n : Nat) (cad : Bool) : Bool :=
  let req := b.rfld (MC_VERSION n) 25 2
  (req == 1 && cad) || (req == 2 && ! cad)

/-- Clear the counters of a cove (R208). -/
def Body.clearCoveCounts (b : Body) (n : Nat) : Body :=
  [MEM_CORR_COUNT n, MEM_UNCORR_COUNT n, COVE_OVERRUN_COUNT n, BAD_ISSUE_COUNT n].foldl (fun b k => b.clearCount k) b

/-- A write of COVE_CTL is refused (R200, R203, R208, R248, R257). -/
def Body.coveCtlRefused (b : Body) (n : Nat) (v : Reg32) : Bool :=
  let idle := b.coveIdle n
  let on := bit v 0
  (slChanged (b.rget (COVE_CTL n)) v 0xFFF && ! idle) || decide (6 ≤ fld v 2 3) ||
  (bit v 1 != b.rbit (COVE_CTL n) 1 && b.cadenceClash n (bit v 1)) ||
  (b.rbit (MC_VERSION n) 30 && (on != b.guarded n || (on && idle))) ||
  (on && idle && ! b.imagesOk n (b.imageAt n 0))

/-- A write of COVE_CTL (R203, R207, R208). -/
def writeCoveCtl (s : State) (n : Nat) (v : Reg32) : State :=
  if s.body.coveCtlRefused n v then { s with body := s.body.reject (COVE_STATUS n) }
  else
    let was := s.body.guarded n
    let idle := s.body.coveIdle n
    let s : State := { s with body := s.body.rset (COVE_CTL n) (v &&& 0xFFF) }
    let s : State := if bit v 12 then { s with body := s.body.clearCoveCounts n } else s
    if bit v 0 && idle then enterGuarded s n
    else if was && ! bit v 0 then { s with body := s.body.leaveGuarded n }
    else s

/-- GUARDED_WRITE: a write of COVE_CTL (R203). -/
def execGuardedWrite (n : Fin 16) (v : Reg32) (s : State) : Host.Outcome State Fault Refusal := .next (writeCoveCtl s n v)

/-- IMAGE_BUILD_DONE (R203). -/
def execImageBuildDone (n : Fin 16) (s : State) : Host.Outcome State Fault Refusal :=
  nextBody (fun _ b =>
    if (b.cove n).build then (b.setCove n { b.cove n with build := false }).rsetBit (COVE_STATUS n) 1 false else b) s

/-- A write of RELOAD_BASE_HI: it commits the pair; in Guarded mode the images are built again (R203, R208). -/
def writeReloadBase (s : State) (n : Nat) (v : Reg32) : State :=
  let b := s.body
  let a := b.pairNew (RELOAD_BASE_LO n) 0xFF v
  let busy := b.pairBusy (b.coveIdle n) (RELOAD_BASE_LO n) (RELOAD_BASE_HI n) 0xFF v
  let build := b.guarded n && b.coveIdle n
  if busy || a % 64 != 0 || ! b.inDev a (6 * 0x28000) || (build && ! b.imagesOk n a) then
    { s with body := (b.unstage (RELOAD_BASE_LO n)).reject (COVE_STATUS n) }
  else
    let s : State := { s with body := b.commitPair (RELOAD_BASE_LO n) (RELOAD_BASE_HI n) (v &&& 0xFF) }
    if build then buildImages s n false else s

/-- RELOAD_BASE_HI_WRITE (R203). -/
def execReloadBaseHiWrite (n : Fin 16) (v : Reg32) (s : State) : Host.Outcome State Fault Refusal := .next (writeReloadBase s n v)

/-! ### Reload (R206, R207) -/

/-- The spare pair takes over logical pair `p` (R202, R206). -/
def Body.takeSpare (b : Body) (n p : Nat) : Body :=
  let sp := b.rfld (COVE_CTL n) 2 3
  let good := b.pairOf n sp
  let bad := b.pairOf n p
  let b := b.endDrops (12 * n + 2 * p)
  let b := (b.rsetFld (PAIR_MAP n) (3 * p) 3 good).rsetFld (PAIR_MAP n) (3 * sp) 3 bad
  let b := b.rsetBit (PAIR_MAP n) (18 + bad) true
  let b := (b.rsetFld (ENG_STATUS (12 * n + 2 * sp)) 0 3 6).rsetFld (ENG_STATUS (12 * n + 2 * sp + 1)) 0 3 6
  let b := ((b.rsetBit (COVE_STATUS n) 1 true).rsetBit (COVE_STATUS n) 2 false).rsetBit (COVE_STATUS n) 3 true
  b.setCove n ⟨[], some p, false, false⟩

/-- At a Slack commit point the first pair that waits is mapped onto the spare, if there is one (R206, R207). -/
def Body.reloadCommit (b : Body) : Body :=
  (List.range 16).foldl (fun b n =>
    match (b.cove n).waiting with
    | [] => b
    | p :: _ => if b.guarded n && b.rbit (COVE_STATUS n) 2 then b.takeSpare n p else b.setCove n { b.cove n with waiting := [] }) b

/-- The words of image lines, by position. -/
def imageWords (ls : List (BitVec 512)) : List Word :=
  (ls.map (fun l => (List.range 14).map (fun k => (BitVec.ofNat 36 (fld l (36 * k) 36) : Word)))).flatten.take 32768

/-- Words written into the local data memory of both twins of a physical pair (R202). -/
def storeTwins (s : State) (e w : Nat) (ws : List Word) : State := storeWords (storeWords s (localAddr e w) ws) (localAddr (e + 1) w) ws

/-- The record that ends a reload (R415). -/
def Body.reloadEnd (b : Body) (c : Clock) (n p : Nat) (failed : Bool) : Body :=
  let miss := (b.cove n).miss
  b.fault c 0x09 ((12 * n + 2 * p) * 2 ^ 16 + b.pairOf n p * 2 ^ 24 + (if failed then 2 ^ 27 else 0) + (if miss then 2 ^ 28 else 0)) 0

/-- Read the lines of a reload image: an uncorrectable one ends it, and so does one whose COUNT is 0 or 15 (R8, log entry 41). -/
def imageReads (s : State) (a : Nat) : Nat → List (BitVec 512) × State × Bool
  | 0 => ([], s, true)
  | n + 1 =>
    let r := devRead s a
    match r.1 with
    | none => ([], r.2, false)
    | some l =>
      if lineOk l then
        let q := imageReads r.2 (a + 64) n
        (l :: q.1, q.2)
      else ([], r.2, false)

/-- The reload of pair `p` ends: its image copied, registers cleared, the pair ARMED; or, on an uncorrectable or ill-formed line or a failed
interface, the pair stays FAULTED and the cove DEGRADED (R206, R323). -/
def reloadDone (s : State) (n p : Nat) : State :=
  let r := imageReads s (s.body.imageAt n p) 2341
  let e := 12 * n + 2 * s.body.pairOf n p
  let s := storeTwins r.2.1 e 0 (imageWords r.1)
  let ok := r.2.2
  let b := s.body.reloadEnd s.clock n p (! ok)
  let b := (b.setCove n { b.cove n with loading := none }).rsetBit (COVE_STATUS n) 1 false
  let b := if ok then (b.setEng (12 * n + 2 * p) .reset).setEngState (12 * n + 2 * p) 1 else b.rsetBit (COVE_STATUS n) 3 true
  { s with body := b }

/-- RELOAD_DONE (R206). -/
def execReloadDone (n : Fin 16) (s : State) : Host.Outcome State Fault Refusal :=
  match (s.body.cove n).loading with
  | some p => .next (reloadDone s n p)
  | none => .next s

/-! ### Control stores (R240) -/

/-- CONTROL_STORE_REWRITE: Harbour rewrites a location that holds a double-bit error (R240, R456). -/
def execControlStoreRewrite (n : Fin 16) (p : Fin 6) (disp : Bool) (u : Nat) (s : State) : Host.Outcome State Fault Refusal :=
  let k := storeKey n p disp u
  if s.mem.errAt k = 2 then .next { s with mem := { s.mem with err := s.mem.err.put 0 k 0 }, body := s.body.clearBad k } else .next s

end Sys2Proof.Machine
end

