-- ==== Sys2Proof/Machine/Host.lean ====
section
/-! DEFINITION. The Ring Engine: DMA windows, polling, rings, fetch, start order, completion records, MSI-X (R263 to R280, R292 to
R298). -/

namespace Sys2Proof.Machine

/-! ### Host memory (R266) -/

/-- A host access lies wholly within one window that grants it (R266). -/
def Body.winOk (b : Body) (a n : Nat) (write : Bool) : Bool :=
  (List.range 8).any (fun w =>
    b.rbit (WIN_CTL w) (if write then 1 else 0) &&
    decide (b.rpair (WIN_BASE_LO w) (WIN_BASE_HI w) / 4096 * 4096 ≤ a) &&
    decide (a + n ≤ b.rpair (WIN_LIMIT_LO w) (WIN_LIMIT_HI w) / 4096 * 4096 + 4096))

/-- A write to host memory leaves the device. -/
def Body.hostWrite (b : Body) (a : Nat) (bytes : List Byte) (relaxed : Bool) : Body :=
  (b.emitOut (.hostWrite (BitVec.ofNat 64 a) bytes relaxed)).traffic 6 0 bytes.length

/-- Payload read from host memory arrives. -/
def Body.hostRead (b : Body) (n : Nat) : Body := b.traffic 5 0 n

/-! ### MSI-X (R295) -/

/-- Send the message of a vector, or set its pending bit while it is masked. -/
def Body.msix (b : Body) (v : Nat) : Body :=
  if b.rbit (MSIX_CTL v) 0 then b.rsetBit (MSIX_PBA (v / 32)) (v % 32) true
  else b.hostWrite (b.rpair (MSIX_ADDR_LO v) (MSIX_ADDR_HI v)) (leBytes 4 (b.rnat (MSIX_DATA v))) false

/-- A ring signals its vector and counts afresh (R295). -/
def Body.signal (b : Body) (r : Nat) : Body :=
  (b.setHring r { b.hring r with unsig := 0, t0 := none }).msix (b.rfld (RING_CFG r) 16 6)

/-- A record has been written: signal when due (R295). -/
def Body.noteRecord (b : Body) (c : Clock) (r : Nat) (now : Bool) : Body :=
  let h := b.hring r
  let b := b.setHring r { h with unsig := h.unsig + 1, t0 := some (h.t0.getD c.cyc) }
  let m := b.rget (RING_MOD r)
  if bit m 24 && (decide (fld m 0 8 ≤ h.unsig + 1) || fld m 8 16 == 0 || now) then b.signal r else b

/-- IRQ_MOD_TIME: MOD_TIME µs have passed since the first record not signalled (R295). -/
def execIrqModTime (r : Fin 256) (s : State) : Host.Outcome State Fault Refusal :=
  nextBody (fun c b =>
    match (b.hring r).t0 with
    | some t => if b.rbit (RING_MOD r) 24 && decide (t + 1000 * b.rfld (RING_MOD r) 8 16 ≤ c.cyc) then b.signal r else b
    | none => b) s

/-- A write of a vector's control word: unmasking one with its pending bit set sends the message (R295). -/
def Body.writeMsixCtl (b : Body) (v : Nat) (x : Reg32) : Body :=
  let b := b.rset (MSIX_CTL v) (x &&& 1)
  if ! bit x 0 && b.rbit (MSIX_PBA (v / 32)) (v % 32) then (b.rsetBit (MSIX_PBA (v / 32)) (v % 32) false).msix v else b

/-- MSIX_UNMASK (R295). -/
def execMsixUnmask (v : Fin 64) (x : Reg32) (s : State) : Host.Outcome State Fault Refusal :=
  nextBody (fun _ b => b.writeMsixCtl v x) s

/-! ### Rings (R273 to R279) -/

def Body.ringOn (b : Body) (r : Nat) : Bool := b.rbit (HRING_CTL r) 0
def Body.ringStopped (b : Body) (r : Nat) : Bool := b.rbit (HRING_STATUS r) 3
/-- Descriptors of a ring in flight (R276). -/
def Body.inflight (b : Body) (r : Nat) : Nat := (b.hring r).descs.length
/-- Descriptors in flight (R23). -/
def Body.inflightTotal (b : Body) : Nat := (b.host.rings.entries.map (fun e => e.2.descs.length)).sum

/-- A binding reports to a ring while its host half exists (R263, R275). -/
def Body.ringBound (b : Body) (r : Nat) : Bool :=
  b.fifos.entries.any (fun e => match e.2.bind with
    | some x => x.host && x.ring == r
    | none => false)

/-- A ring is idle (R275). -/
def Body.ringIdle (b : Body) (r : Nat) : Bool := ! b.ringOn r && b.inflight r == 0 && ! b.ringBound r

/-- A ring stops on an error, bit `i` of its status (R279). -/
def Body.stopRing (b : Body) (c : Clock) (r i : Nat) : Body :=
  if b.ringStopped r then b.stick (HRING_STATUS r) i
  else
    let b := (b.stick (HRING_STATUS r) i).rsetBit (HRING_STATUS r) 3 true
    b.fault c 0x0C (r * 2 ^ 8 + i * 2 ^ 16) 0

/-- A count lies 1 to 2³¹ − 1 ahead of another, modulo 2³². -/
def ahead (x y : Reg32) : Bool := decide (1 ≤ (x - y).toNat) && decide ((x - y).toNat < 2 ^ 31)

/-- Lines of consumed RESULT records return to their bindings (R284, R317). -/
def Body.returnLines (b : Body) (r : Nat) : Body :=
  let h := b.hring r
  let done := h.owed.filter (fun o => ahead h.cons (r32 o.1))
  let b := b.setHring r { h with owed := h.owed.filter (fun o => ! ahead h.cons (r32 o.1)) }
  done.foldl (fun b o => b.rset (FIFO_HOST_USED (o.2.1 / 16) (o.2.1 % 16))
    (r32 (b.rnat (FIFO_HOST_USED (o.2.1 / 16) (o.2.1 % 16)) - o.2.2))) b

/-- The counts of a producer word are applied to a ring (R270, R276). -/
def Body.applyWord (b : Body) (c : Clock) (r : Nat) (w : BitVec 64) : Body :=
  if ! b.ringOn r || b.ringStopped r then b
  else
    let prod := r32 (fld w 0 32)
    let cons := r32 (fld w 32 32)
    if ahead cons (b.rget (RING_CQ_PROD r)) then b.stopRing c r 10
    else if 2 ^ b.rfld (RING_CFG r) 0 5 < (prod - b.rget (RING_FETCH r)).toNat then b.stopRing c r 9
    else (b.setHring r { b.hring r with prod := prod, cons := cons }).returnLines r

/-- A write of RING_CTL (R274, R279). -/
def Body.writeHringCtl (b : Body) (r : Nat) (on : Bool) : Body :=
  let was := b.ringOn r
  let b := (b.rsetBit (HRING_CTL r) 0 on).rsetBit (HRING_STATUS r) 0 on
  if on && ! was then
    let b := (b.rset (RING_FETCH r) 0).rset (RING_CQ_PROD r) 0
    b.setHring r { b.hring r with prod := 0, cons := 0, owed := [], unsig := 0, t0 := none }
  else if ! on then b.rsetBit (HRING_STATUS r) 3 false
  else b

/-! ### Polling (R267 to R272) -/

def Body.dbBase (b : Body) : Nat := b.rpair DB_BASE_LO DB_BASE_HI
def Body.polling (b : Body) : Bool := b.rbit HST_STATUS 0

/-- A poll starts: the SUMMARY read is issued, or refused by the windows (R266, R270). -/
def Body.pollStart (b : Body) : Body :=
  let b := b.count POLL_COUNT 1
  if b.winOk b.dbBase 64 false then
    { b.rsetBit HST_STATUS 0 true with host := { b.host with pollReads := none } }
  else b.stick HST_STATUS 9

/-- A poll ends; a waiting nudge starts another (R272). -/
def Body.pollFinish (b : Body) : Body :=
  let again := b.host.nudge
  let b := { b.rsetBit HST_STATUS 0 false with host := { b.host with pollReads := none, nudge := false } }
  if again then b.pollStart else b

/-- A poll is abandoned (R266). -/
def Body.pollFault (b : Body) : Body := (b.stick HST_STATUS 9).pollFinish

/-- POLL_TICK (R270). -/
def Body.pollTick (b : Body) (c : Clock) : Body :=
  match b.host.nextTick with
  | some t =>
    if b.rbit HST_CTL 0 && decide (t ≤ c.cyc) then
      let b := { b with host := { b.host with nextTick := some (t + b.rfld POLL_INTERVAL 0 20) } }
      if b.polling then b.count POLL_SKIP 1 else b.pollStart
    else b
  | none => b

/-- POLL_TICK (R270). -/
def execPollTick (s : State) : Host.Outcome State Fault Refusal := nextBody (fun c b => b.pollTick c) s

/-- SUMMARY_RETURN: the flagged enabled rings' producer words are read (R267, R270). -/
def Body.summary (b : Body) (d : Option (BitVec 512)) : Body :=
  if ! b.polling || b.host.pollReads.isSome then b
  else
    match d with
    | none => b.pollFault
    | some x =>
      let b := b.hostRead 64
      let rs := (List.range 256).filter (fun r => bit x r && b.ringOn r)
      if rs.isEmpty then b.pollFinish
      else if rs.all (fun r => b.winOk (b.dbBase + 0x800 + 8 * r) 8 false) then
        { b with host := { b.host with pollReads := some rs } }
      else b.pollFault

/-- SUMMARY_RETURN (R270). -/
def execSummaryReturn (d : Option (BitVec 512)) (s : State) : Host.Outcome State Fault Refusal := nextBody (fun _ b => b.summary d) s

/-- POLL_END: the producer words are applied to their rings (R270). -/
def Body.pollEnd (b : Body) (c : Clock) (ws : Option (List (BitVec 64))) : Body :=
  match b.polling, b.host.pollReads with
  | true, some rs =>
    match ws with
    | none => b.pollFault
    | some l => ((rs.zip l).foldl (fun b e => (b.hostRead 8).applyWord c e.1 e.2) b).pollFinish
  | _, _ => b

/-- POLL_END (R270). -/
def execPollEnd (ws : Option (List (BitVec 64))) (s : State) : Host.Outcome State Fault Refusal := nextBody (fun c b => b.pollEnd c ws) s

/-- A write of GLB_NUDGE starts a poll, or one more after the present one; none while RE_EN is 0 (R272). -/
def Body.nudge (b : Body) : Body :=
  let b := b.count NUDGE_COUNT 1
  if ! b.rbit HST_CTL 0 then b
  else if b.polling then { b with host := { b.host with nudge := true } }
  else b.pollStart

/-- GLB_NUDGE (R272). -/
def execGlbNudge (_v : Reg32) (s : State) : Host.Outcome State Fault Refusal := nextBody (fun _ b => b.nudge) s

/-- A write of HST_CTL: RE_EN starts the tick grid in the cycle of the write, or ends it; until firmware is ready it cannot be set (R270,
R297, R385). -/
def Body.writeHstCtl (b : Body) (c : Clock) (v : Reg32) : Body :=
  if bit v 0 && ! b.fwReady then b.reject HST_STATUS
  else
  let was := b.rbit HST_CTL 0
  let b := b.rset HST_CTL (v &&& 0x1FF01)
  if bit v 0 && ! was then { b with host := { b.host with nextTick := some c.cyc } }
  else if ! bit v 0 then { b with host := { b.host with nextTick := none } }
  else b

/-- RE_EN: a write of HST_CTL (R270). -/
def execReEn (v : Reg32) (s : State) : Host.Outcome State Fault Refusal := nextBody (fun c b => b.writeHstCtl c v) s

/-! ### Descriptors in flight (R276 to R280) -/

/-- Bits of the body and header of a descriptor. -/
def Desc.fld (d : Desc) (byte bits : Nat) : Nat := Sys2Proof.Machine.fld d.raw (8 * byte) bits
def Desc.kind (d : Desc) : Nat := d.fld 0 8
def Desc.flag (d : Desc) (i : Nat) : Bool := bit d.raw (8 + i)

/-- Replace a descriptor in flight. -/
def Body.setDesc (b : Body) (r : Nat) (d : Desc) : Body :=
  let h := b.hring r
  b.setHring r { h with descs := h.descs.map (fun x => if x.order = d.order then d else x) }

/-- A descriptor leaves flight. -/
def Body.dropDesc (b : Body) (r seq : Nat) : Body :=
  let h := b.hring r
  b.setHring r { h with descs := h.descs.filter (fun x => ! (x.seq == seq && x.st == .ended)) }

/-- Complete a descriptor: its record is queued, unless it succeeds with NO_COMPL (R276, R280, R292). -/
def Body.complete (b : Body) (c : Clock) (r : Nat) (d : Desc) (status d0 d1 : Nat) : Body :=
  let b := b.setDesc r { d with st := .ended }
  if status = 0 ∧ d.flag 1 then b.dropDesc r d.seq
  else
    let x : Rec := ⟨d.kind, status, r32 (d.fld 4 32), r32 d.seq, r32 d0, BitVec.ofNat 64 d1, BitVec.ofNat 64 c.now, d.flag 2, some d.seq, none⟩
    b.setHring r { b.hring r with recs := (b.hring r).recs ++ [x] }

/-- Kinds whose data transfers a ring makes in order (R277). -/
def isTransfer (k : Nat) : Bool := [1, 2, 3, 4, 6, 0xD].contains k

/-- A fetched descriptor may start: every earlier one has started, and completed if ORDERED is set; no FENCE before it is
unfinished; no earlier transfer runs (R277, R291). -/
def Body.mayStart (b : Body) (r : Nat) (d : Desc) : Bool :=
  let before := (b.hring r).descs.filter (fun x => decide (x.order < d.order))
  d.st == .fetched && before.all (fun x => x.st != .fetched) && (! d.flag 0 || before.isEmpty) &&
  before.all (fun x => ! (x.kind == 0xE && x.st == .active)) &&
  (! isTransfer d.kind || before.all (fun x => ! (isTransfer x.kind && x.st == .active)))

/-- The descriptor of ring `r` with sequence number `seq` that has not ended. -/
def Body.findDesc (b : Body) (r seq : Nat) : Option Desc := (b.hring r).descs.find? (fun x => x.seq == seq && x.st != .ended)

/-- The descriptor if it may start now. -/
def Body.startable (b : Body) (r seq : Nat) : Option Desc :=
  match b.findDesc r seq with
  | some d => if b.mayStart r d then some d else none
  | none => none

/-- The bits of each kind's 64 bytes that are not reserved (R280 to R291). -/
def kindBits (k : Nat) : BitVec 512 :=
  match k with
  | 0x00 => 0xFFFFFFFF000007FF
  | 0x01 => 0x1FFFFFFFFFFFFFFFFFFFFFFFFFFFFFFFFFFFFFFFFFFFF000007FF
  | 0x02 => 0x1FFFFFFFFFFFFFFFFFFFFFFFFFFFFFFFFFFFFFFFFFFFF000007FF
  | 0x03 => 0x1FFFFFFFFFFFFFFFFFFFFFFFFFFFFFFFFFFFFFFFFFFFF000007FF
  | 0x04 => 0x1FFFFFFFFFFFFFFFFFFFFFFFFFFFFFFFFFFFFFFFFFFFF000007FF
  | 0x05 => 0x1FFFFFFFFFFFFFFFFFFFFFFFFFFFFFFFFFFFF000007FF
  | 0x06 => 0x1FFFFFFFF000000FFFFFFFFFFFFFFFFFFFFFFFFFFFFFFFFFF000007FF
  | 0x07 => 0x3FFFFFFFFFFFFFFFFFFFFFFFFFFFFFFFFFFFFFFFFFFFFFF000007FF
  | 0x08 => 0xFFFFFFFFFFFFFFFF00000FFFFFFFFFFFFFFFFFFF000007FF
  | 0x09 => 0xFFFFFFFFFFFFFFFFFFFFFFFFFFFFFFFFFFFFFFFFFFFFFFFFFFFFFFFFFFFFFFFFFFFFFFFFFFFFFFFFFFFFFFFFFFFFFFFF0000000000FFFFFFFFFFFFFF000007FF
  | 0x0A => 0xFFFFFFFFFFFFFFFFFFFFFFFFFFFFFFFF03FFFFFFFFFFFFFF000007FF
  | 0x0B => 0x1FFFFFFFFFFFFFFFFFFFFFFFFFF000007FF
  | 0x0C => 0xFFFFFFFFFFFFFFFF00000000FFFF00FFFFFFFFFF000007FF
  | 0x0D => 0xFFFFFFFFFFFFFFFFFFFFFFFFFFFFFFFFFFFFFFFFFFFFFFFFFFFFFFFFFFFFFFFFFFFFFFFFFFFFFFFF000000FFFFFFFFFFFFFFFFFFFFFFFFFF000007FF
  | 0x0E => 0xFFFFFFFFFFFFFFFF0000000000FF01FFFFFFFFFF000007FF
  | _ => 0

/-- A reserved bit is not zero (R280). -/
def Desc.reserved (d : Desc) : Bool := d.raw &&& ~~~(kindBits d.kind) != 0

/-- Start a descriptor of a kind: a reserved bit completes it with BAD_FIELD, else `f` acts (R280). -/
def startKind (r seq : Nat) (mine : Desc → Bool) (f : State → Desc → State) (s : State) : State :=
  match s.body.startable r seq with
  | some d =>
    if ! mine d then s
    else if d.reserved then { s with body := s.body.complete s.clock r d 2 0 0 }
    else f { s with body := s.body.setDesc r { d with st := .active } } { d with st := .active }
  | none => s

/-- A descriptor of a kind that waits on a condition: it starts if it may, and once active `f` looks at its condition. -/
def startOrLook (r seq : Nat) (mine : Desc → Bool) (start : State → Desc → State) (look : State → Desc → State) (s : State) : State :=
  let s := startKind r seq mine start s
  match s.body.findDesc r seq with
  | some d => if mine d && d.st == .active then look s d else s
  | none => s

/-- End a descriptor in the state. -/
def finish (r : Nat) (d : Desc) (status d0 d1 : Nat) (s : State) : State := { s with body := s.body.complete s.clock r d status d0 d1 }

/-- Kinds that wait on a condition and can be aborted: WAIT_STOPPED, a TIME_CONTROL not landing, a queued CALIBRATE, a FUSE_COMMIT behind
another, SCOPE_ARM, FENCE (R279). -/
def Body.abortable (b : Body) (r : Nat) (d : Desc) : Bool :=
  match d.st with
  | .fetched => true
  | .ended => false
  | .active =>
    d.kind == 8 || (d.kind == 9 && ! b.host.landings.any (fun l => l.order == d.order)) || (d.kind == 0xA && d.aux == 0) ||
    (d.kind == 0xB && d.aux == 0) ||
    d.kind == 0xC || d.kind == 0xE && decide (r < 256)

/-- A write of RING_CTL with ABORT; a queued calibration leaves its queue (R279). -/
def Body.abortRing (b : Body) (c : Clock) (r : Nat) : Body :=
  let b := b.writeHringCtl r false
  let gone := (b.hring r).descs.filter (fun d => b.abortable r d)
  let dropped (q : CalReq) : Bool := gone.any (fun d => q.desc == some (r, d.seq))
  let b := { b with cal := { b.cal with queue := b.cal.queue.filter (fun q => ! dropped q) } }
  gone.foldl (fun b d => b.complete c r d 0x0C 0 0) b

/-- A write of RING_CTL (R274, R279). -/
def Body.writeRingCmd (b : Body) (c : Clock) (r : Nat) (v : Reg32) : Body :=
  if bit v 1 then b.abortRing c r else b.writeHringCtl r (bit v 0)

/-- RING_ENABLE (R274). -/
def execRingEnable (r : Fin 256) (v : Reg32) (s : State) : Host.Outcome State Fault Refusal :=
  nextBody (fun c b => b.writeRingCmd c r v) s
/-- RING_ABORT (R279). -/
def execRingAbort (r : Fin 256) (v : Reg32) (s : State) : Host.Outcome State Fault Refusal :=
  nextBody (fun c b => b.writeRingCmd c r v) s

/-! ### Fetch (R276) -/

/-- Published descriptors a ring may fetch. -/
def Body.fetchable (b : Body) (r : Nat) : Nat :=
  if b.ringOn r && ! b.ringStopped r && ! b.rbit (HRING_STATUS r) 2 then ((b.hring r).prod - b.rget (RING_FETCH r)).toNat else 0

/-- The ring whose turn it is: the next in round robin with something to fetch. -/
def Body.nextRing (b : Body) : Option Nat :=
  ((List.range 256).map (fun i => (b.host.rr + 1 + i) % 256)).find? (fun r => decide (0 < b.fetchable r))

/-- Descriptors enter flight, each with its sequence number and its place in the fetch order. -/
def Body.addDescs (b : Body) (r : Nat) : List (BitVec 512) → Body
  | [] => b
  | x :: t =>
    let seq := b.rnat (RING_FETCH r)
    let h := b.hring r
    let d : Desc := ⟨seq, b.host.order, x, .fetched, none, 0, 0, []⟩
    let b := (b.setHring r { h with descs := h.descs ++ [d] }).rset (RING_FETCH r) (r32 (seq + 1))
    ({ b with host := { b.host with order := b.host.order + 1 } } : Body).addDescs r t

/-- DESCRIPTOR_FETCH: one read of the ring whose turn it is, of at most a Max Read Request and not across 4 KiB, returns with
descriptors, or fails (R273, R276, R266). -/
def Body.fetch (b : Body) (c : Clock) (data : Option (List (BitVec 512))) : Body :=
  let room := 131072 - b.inflightTotal
  match b.nextRing with
  | none => b
  | some r =>
    if room = 0 then b
    else
      let size := 2 ^ b.rfld (RING_CFG r) 0 5
      let avail := b.fetchable r
      let at_ := b.rnat (RING_FETCH r) % size
      let addr := b.rpair (DQ_BASE_LO r) (DQ_BASE_HI r) + 64 * at_
      if size < avail then b.stopRing c r 9
      else if ! b.winOk addr 64 false then b.stopRing c r 11
      else
        match data with
        | none => b.stopRing c r 11
        | some l =>
          let n := min (min avail room) (min ((4096 - addr % 4096) / 64) (min 64 (size - at_)))
          let got := l.take n
          let b := { b with host := { b.host with rr := r } }
          (b.hostRead (64 * got.length)).addDescs r got

/-- DESCRIPTOR_FETCH (R276). -/
def execDescriptorFetch (data : Option (List (BitVec 512))) (s : State) : Host.Outcome State Fault Refusal :=
  nextBody (fun c b => b.fetch c data) s

/-! ### The simplest kinds -/

/-- NOP_DESCRIPTOR (R280). -/
def execNopDescriptor (r : Fin 256) (seq : Reg32) (s : State) : Host.Outcome State Fault Refusal :=
  .next (startKind r seq.toNat (fun d => d.kind == 0) (fun s d => finish r d 0 0 0 s) s)

/-- BAD_KIND: a reserved kind (R280). -/
def execBadKind (r : Fin 256) (seq : Reg32) (s : State) : Host.Outcome State Fault Refusal :=
  nextBody (fun c b =>
    match b.startable r seq.toNat with
    | some d => if 0xF ≤ d.kind then b.complete c r d 1 0 0 else b
    | none => b) s

/-! ### Completion records (R292, R294) -/

/-- The 32 bytes of a record (R292). -/
def Rec.bytes (x : Rec) (r : Nat) (phase : Bool) (d0 : Reg32) : List Byte :=
  leBytes 4 (x.kind + x.status * 2 ^ 8 + r * 2 ^ 16 + (if phase then 2 ^ 24 else 0)) ++ leBytes 4 x.cookie.toNat ++
  leBytes 4 x.seq.toNat ++ leBytes 4 d0.toNat ++ leBytes 8 x.d1.toNat ++ leBytes 8 x.tide.toNat

/-- What remains to be recorded on a binding leaves it; an unbind with nothing staged ends (R317, R322). -/
def Body.endUnbind (b : Body) (c : Clock) (key : Nat) : Body :=
  let x := b.fifo (key / 16) (key % 16)
  match x.bind with
  | some y =>
    match y.unbind with
    | some u =>
      if b.rnat (FIFO_STAGED (key / 16) (key % 16)) = 0 then
        let b := b.setFifo (key / 16) (key % 16) { x with bind := none }
        let h := b.hring y.ring
        let b := (b.setHring y.ring { h with owed := h.owed.filter (fun o => o.2.1 ≠ key) }).rset (FIFO_HOST_USED (key / 16) (key % 16)) 0
        match b.findDesc u.1 u.2 with
        | some d => b.complete c u.1 d 0 0 0
        | none => b
      else b
    | none => b
  | none => b

/-- A RESULT record has been written: its packets leave STAGED, its lines are owed by the host (R317). -/
def Body.resultWritten (b : Body) (c : Clock) (r no key n lines : Nat) : Body :=
  let f := b.fifo (key / 16) (key % 16)
  match f.bind with
  | none => b
  | some y =>
    let gone := y.copied.take n
    let k := FIFO_STAGED (key / 16) (key % 16)
    let b := b.setFifo (key / 16) (key % 16)
      { f with overFlag := false, cut := false, bind := some { y with copied := y.copied.drop n } }
    let b := b.rset k (r32 (b.rnat k - (gone.map (·.lines)).sum))
    let h := b.hring r
    let b := b.setHring r { h with owed := h.owed ++ [(no, key, lines)] }
    b.endUnbind c key

/-- DETAIL0 of a RESULT record with OVERSIZE and FLUSH_CUT as they stand when it is written (R292). -/
def Body.recD0 (b : Body) (x : Rec) : Reg32 :=
  match x.fifo with
  | some (key, _, _) =>
    let f := b.fifo (key / 16) (key % 16)
    setBit (setBit x.d0 25 f.overFlag) 26 f.cut
  | none => x.d0

/-- COMPLETION_WRITE: the oldest waiting record of a ring is written while the completion ring has room (R292, R294, R279). -/
def Body.writeRec (b : Body) (c : Clock) (r : Nat) : Body :=
  let h := b.hring r
  match h.recs with
  | [] => b
  | x :: t =>
    let size := b.cqSize r
    let no := b.rget (RING_CQ_PROD r)
    let addr := b.rpair (CQ_BASE_LO r) (CQ_BASE_HI r) + 32 * (no.toNat % size)
    if b.ringStopped r then b
    else if size ≤ (no - h.cons).toNat then b.rsetBit (HRING_STATUS r) 2 true
    else if ! b.winOk addr 32 true then b.stopRing c r 12
    else
      let b := b.hostWrite addr (x.bytes r (no.toNat / size % 2 == 0) (b.recD0 x)) false
      let b := ((b.setHring r { h with recs := t }).rset (RING_CQ_PROD r) (no + 1)).rsetBit (HRING_STATUS r) 2 false
      let b := match x.ends with
        | some seq => b.dropDesc r seq
        | none => b
      let b := match x.fifo with
        | some (key, n, lines) => b.resultWritten c r no.toNat key n lines
        | none => b
      b.noteRecord c r (x.irqNow || x.status != 0)

/-- COMPLETION_WRITE (R294). -/
def execCompletionWrite (r : Fin 256) (s : State) : Host.Outcome State Fault Refusal := nextBody (fun c b => b.writeRec c r) s

end Sys2Proof.Machine
end

