-- ==== Sys2Proof/Machine/Staging.lean ====
section
/-! DEFINITION. Bindings, line packing, staging, draining and credits (R284, R315 to R323). -/

namespace Sys2Proof.Machine

/-- Lines of the staging area. -/
def Binding.cap (y : Binding) : Nat := 2 ^ y.stageLog
/-- Lines of the host buffer. -/
def Binding.hostCap (y : Binding) : Nat := 2 ^ y.hostLog

def Body.stagedLines (b : Body) (n f : Nat) : Nat := b.rnat (FIFO_STAGED n f)
def Body.resv (b : Body) (n f : Nat) : Nat := b.rnat (FIFO_RESV n f)
def Body.setBind (b : Body) (n f : Nat) (y : Binding) : Body := b.setFifo n f { b.fifo n f with bind := some y }

/-! ### Packing (R315, R320, R321) -/

/-- The packed lines of a packet (R7, R315). -/
def packetLines (ws : List (Word × Bool)) : List (BitVec 512) :=
  let k := linesOf ws.length
  (List.range k).map (fun i =>
    let l := (ws.drop (14 * i)).take 14
    packLine (l.map (·.1)) (i == 0) (i + 1 == k) (l.any (·.2)))

/-- A packet is discarded (R320, R321): bit `i` of MEM_STATUS. -/
def Body.dropPacket (b : Body) (n f i : Nat) : Body :=
  (b.count (FIFO_DROP_COUNT n f) 1).stick MEM_STATUS i

/-- Write a packet's lines into the staging area, from line `wr`, wrapping. -/
def stageLines (s : State) (y : Binding) (wr : Nat) : List (BitVec 512) → State
  | [] => s
  | l :: t => stageLines (devWrite s (y.stageBase + 64 * (wr % y.cap)) l) y (wr + 1) t

/-- A committed packet reaches the packer (R320, R321, R322). -/
def packOne (s : State) (n f : Nat) (p : Packet) : State :=
  let b := s.body
  match (b.fifo n f).bind with
  | none => { s with body := b.dropPacket n f 12 }
  | some y =>
    if y.lost || y.unbind.isSome then { s with body := b.dropPacket n f 12 }
    else
      let k := linesOf p.words.length
      let staged := b.stagedLines n f
      let own := min k (b.resv n f)
      let spare := y.cap - staged - b.resv n f
      if k + staged ≤ y.cap ∧ k - own ≤ spare then
        let s := stageLines s y y.wr (packetLines p.words)
        let b := s.body.setBind n f
          { y with staged := y.staged ++ [⟨y.wr, k, p.words.any (·.2), p.no⟩], wr := (y.wr + k) % y.cap }
        let b := (b.rset (FIFO_STAGED n f) (r32 (staged + k))).rset (FIFO_RESV n f) (r32 (b.resv n f - own))
        { s with body := b.perf 0x41 0 k }
      else { s with body := b.dropPacket n f 11 }

/-- The FIFO whose turn it is at the packer of a cove (R315). -/
def Body.nextPacket (b : Body) (c : Clock) (n : Nat) : Option (Nat × Packet) :=
  ((List.range 16).map (fun i => (b.packAt.get 0 n + i) % 16)).findSome? (fun f =>
    match (b.fifo n f).done with
    | p :: _ => if p.vis ≤ c.cyc then some (f, p) else none
    | [] => none)

/-- PACK_PACKET: the packer of cove `n` takes the next committed packet (R315). -/
def execPackPacket (n : Fin 16) (s : State) : Host.Outcome State Fault Refusal :=
  match s.body.nextPacket s.clock n with
  | none => .next s
  | some (f, p) =>
    let x := s.body.fifo n f
    let b := s.body.setFifo n f { x with done := x.done.drop 1 }
    .next (packOne { s with body := { b with packAt := b.packAt.put 0 n ((f + 1) % 16) } } n f p)

/-! ### Draining (R318) -/

/-- Queue the RESULT record of the open record, settling `extra` more packets (R292, R318). -/
def Body.closeRec (b : Body) (c : Clock) (n f : Nat) (y : Binding) (status extra : Nat) : Body :=
  let r := y.rec_.getD ⟨0, 0, y.hostAt, false⟩
  let d0 := r.packets % 65536 + f * 2 ^ 16 + n * 2 ^ 20 + (if r.stale then 2 ^ 24 else 0)
  let x : Rec := ⟨0x80, status, y.cookie, 0, r32 d0, BitVec.ofNat 64 (r.first + r.lines * 2 ^ 32), BitVec.ofNat 64 c.now, false, none,
    some (fifoKey n f, r.packets + extra, r.lines)⟩
  let b := b.setBind n f { y with rec_ := none }
  b.setHring y.ring { b.hring y.ring with recs := (b.hring y.ring).recs ++ [x] }

/-- Free lines of the host buffer. -/
def Body.hostRoom (b : Body) (n f : Nat) (y : Binding) : Nat := y.hostCap - b.rnat (FIFO_HOST_USED n f)

/-- Close the open record when it is due (R318). -/
def Body.closeIfDue (b : Body) (c : Clock) (n f : Nat) : Body :=
  match (b.fifo n f).bind with
  | none => b
  | some y =>
    match y.rec_ with
    | none => b
    | some r =>
      let full := match y.staged with
        | [] => true
        | p :: _ => decide (b.hostRoom n f y < p.lines)
      if full || decide (y.hostCap / 4 ≤ r.lines) || decide (65535 ≤ r.packets) then b.closeRec c n f y 0 0 else b

/-- Read the lines of a staged packet; else the status for which it is discarded: MEM_UNCORR for an uncorrectable line, FORMAT_ERR for a
line whose tag has COUNT 0 or 15 (R8, R318). -/
def readStaged (s : State) (y : Binding) (at_ : Nat) : Nat → Except Nat (List (BitVec 512)) × State
  | 0 => (.ok [], s)
  | k + 1 =>
    let r := devRead s (y.stageBase + 64 * (at_ % y.cap))
    match r.1 with
    | none => (.error 9, r.2)
    | some l =>
      if ! lineOk l then (.error 8, r.2)
      else
        let q := readStaged r.2 y (at_ + 1) k
        (q.1.map (fun t => l :: t), q.2)

/-- Host address of line `i` of a host buffer. -/
def Binding.hostLine (y : Binding) (i : Nat) : Nat := y.hostBase + 64 * (i % y.hostCap)

/-- Write lines into the host buffer. -/
def Body.hostLines (b : Body) (y : Binding) (i : Nat) : List (BitVec 512) → Body
  | [] => b
  | l :: t => (b.hostWrite (y.hostLine i) (lineBytes l) true).hostLines y (i + 1) t

/-- The oldest staged packet is copied to the host buffer, or discarded for an uncorrectable or ill-formed line, or stopped by a window
fault (R8, R266, R318). -/
def drainOne (s : State) (n f : Nat) (y : Binding) (p : Staged) (rest : List Staged) : State :=
  if s.body.hostRoom n f y < p.lines then { s with body := s.body.closeIfDue s.clock n f }
  else if ! (List.range p.lines).all (fun i => s.body.winOk (y.hostLine (y.hostAt + i)) 64 true) then
    { s with body := s.body.closeRec s.clock n f { y with halted := true } 6 0 }
  else
    let r := readStaged s y p.at_ p.lines
    let s := r.2
    match r.1 with
    | .error st => { s with body := s.body.closeRec s.clock n f { y with staged := rest, copied := y.copied ++ [p] } st 1 }
    | .ok ls =>
      let o := y.rec_.getD ⟨0, 0, y.hostAt, false⟩
      let z := { y with staged := rest, copied := y.copied ++ [p], hostAt := (y.hostAt + p.lines) % y.hostCap,
                        rec_ := some ⟨o.packets + 1, o.lines + p.lines, o.first, o.stale || p.stale⟩ }
      let b := (s.body.hostLines y y.hostAt ls).setBind n f z
      let b := b.rset (FIFO_HOST_USED n f) (r32 (b.rnat (FIFO_HOST_USED n f) + p.lines))
      { s with body := (b.perf 0x42 0 p.lines).closeIfDue s.clock n f }

/-- DRAIN_PACKET (R318). -/
def execDrainPacket (n : Fin 16) (f : Fin 16) (s : State) : Host.Outcome State Fault Refusal :=
  match (s.body.fifo n f).bind with
  | none => .next s
  | some y =>
    if ! y.host || y.lost || y.halted then .next s
    else
      match y.staged with
      | [] => .next { s with body := s.body.closeIfDue s.clock n f }
      | p :: rest => .next (drainOne s n f y p rest)

/-! ### Binding (R284, R316, R322) -/

def Desc.bindCove (d : Desc) : Nat := d.fld 24 8 / 16
def Desc.bindFifo (d : Desc) : Nat := d.fld 24 8 % 16

/-- The fields of a bind that are out of their ranges (R284). -/
def Desc.bindBad (d : Desc) : Bool :=
  let hl := d.fld 25 8
  let sl := d.fld 26 8
  ! (decide (6 ≤ hl) && decide (hl ≤ 26) && decide (6 ≤ sl) && decide (sl ≤ 24)) || d.fld 8 64 % 4096 != 0 ||
  decide (2 ^ 40 ≤ d.fld 16 64) || d.fld 16 64 % (64 * 2 ^ sl) != 0

/-- Lines that DEPTH can fill (R316). -/
def Body.depthLines (b : Body) (n f : Nat) : Nat := linesOf (b.depth n f)

/-- The status of a bind or of a bind with KEEP_STAGED (R284, R300, R302, R316). -/
def Body.bindStatus (b : Body) (d : Desc) (keep : Bool) : Nat :=
  let n := d.bindCove
  let f := d.bindFifo
  let hcap := 2 ^ d.fld 25 8
  let scap := 2 ^ d.fld 26 8
  let size := decide (hcap < b.depthLines n f) || decide (scap < b.depthLines n f)
  if d.bindBad then 2
  else if ! b.memReady then 5
  else if ! b.inDev (d.fld 16 64) (64 * scap) then 3
  else
    match (b.fifo n f).bind with
    | none => if keep then 4 else if size then 2 else if scap < b.rnat (FIFO_DECL_ACT n f) then 3 else 0
    | some y =>
      if ! keep ∨ y.host ∨ y.lost ∨ y.unbind.isSome then 5
      else if y.stageBase ≠ d.fld 16 64 ∨ y.stageLog ≠ d.fld 26 8 then 2
      else if size then 2
      else if scap < b.rnat (FIFO_DECL_ACT n f) then 3
      else 0

/-- RESULT_BIND (R284, R316): staging empty, host line 0, STAGED, HOST_USED and RESV zero. -/
def bindAct (r : Nat) (s : State) (d : Desc) : State :=
  let st := s.body.bindStatus d false
  let n := d.bindCove
  let f := d.bindFifo
  let b := s.body
  let b := if st = 0 then
      let y : Binding := ⟨r, r32 (d.fld 4 32), d.fld 8 64, d.fld 25 8, true, d.fld 16 64, d.fld 26 8, false, 0, 0, [], [], none, none,
        false, false⟩
      let x := b.fifo n f
      let b := b.setFifo n f { x with bind := some y, overFlag := false, cut := false }
      ((b.rset (FIFO_STAGED n f) 0).rset (FIFO_HOST_USED n f) 0).rset (FIFO_RESV n f) 0
    else b
  finish r d st 0 0 { s with body := b }

/-- RESULT_BIND (R284). -/
def execResultBind (r : Fin 256) (seq : Reg32) (s : State) : Host.Outcome State Fault Refusal :=
  .next (startKind r seq.toNat (fun d => d.kind == 7 && d.fld 27 2 == 0) (bindAct r) s)

/-- BIND_KEEP_STAGED: a new host half; draining resumes with the oldest staged packet at host line 0 (R284). -/
def keepAct (r : Nat) (s : State) (d : Desc) : State :=
  let st := s.body.bindStatus d true
  let n := d.bindCove
  let f := d.bindFifo
  let b := s.body
  let b := match (b.fifo n f).bind with
    | some y =>
      if st = 0 then
        let x := b.fifo n f
        let z := { y with ring := r, cookie := r32 (d.fld 4 32), hostBase := d.fld 8 64, hostLog := d.fld 25 8, host := true, hostAt := 0,
                          rec_ := none, halted := false }
        (b.setFifo n f { x with bind := some z, overFlag := false, cut := false }).rset (FIFO_HOST_USED n f) 0
      else b
    | none => b
  finish r d st 0 0 { s with body := b }

/-- BIND_KEEP_STAGED (R284). -/
def execBindKeepStaged (r : Fin 256) (seq : Reg32) (s : State) : Host.Outcome State Fault Refusal :=
  .next (startKind r seq.toNat (fun d => d.kind == 7 && d.fld 27 2 == 2) (keepAct r) s)

/-- The staged packets of a binding are abandoned (R322, R323). -/
def Body.abandon (b : Body) (n f : Nat) : Body :=
  let x := b.fifo n f
  match x.bind with
  | none => b
  | some y =>
    (b.setFifo n f { x with bind := some { y with staged := [] } }).rset (FIFO_STAGED n f) 0

/-- UNBIND: flush, then drain, or discard without a host half, until nothing is staged (R322). -/
def unbindAct (r : Nat) (s : State) (d : Desc) : State :=
  let n := d.bindCove
  let f := d.bindFifo
  let b := s.body
  match (b.fifo n f).bind with
  | none => finish r d 4 0 0 s
  | some y =>
    if y.unbind.isSome then finish r d 5 0 0 s
    else
      let z := { y with unbind := some (r, d.seq) }
      let b := if y.lost then (b.setBind n f z).rset (FIFO_STAGED n f) 0
        else
          let b := (b.flush s.clock n f).setBind n f z
          if y.host then b else b.abandon n f
      { s with body := b.endUnbind s.clock (fifoKey n f) }

/-- UNBIND (R322). -/
def execUnbind (r : Fin 256) (seq : Reg32) (s : State) : Host.Outcome State Fault Refusal :=
  .next (startKind r seq.toNat (fun d => d.kind == 7 && bit d.raw (8 * 27)) (unbindAct r) s)

/-! ### Credits (R319 to R321) -/

/-- The bindings that take part in credit checks. -/
def Body.liveBinds (b : Body) : List (Nat × Nat × Binding) :=
  (List.range 256).filterMap (fun k => match (b.fifo (k / 16) (k % 16)).bind with
    | some y => if y.lost then none else some (k / 16, k % 16, y)
    | none => none)

/-- A FIFO is short at a slack horizon (R320). -/
def Body.short (b : Body) (n f : Nat) (y : Binding) : Bool :=
  decide ((y.cap : Int) - b.stagedLines n f - b.resv n f < b.rnat (FIFO_DECL_ACT n f))

/-- The credit check of a slack horizon; true for a hold vote with reason [0] (R320). -/
def Body.creditHorizon (b : Body) : Body × Bool :=
  let short := b.liveBinds.any (fun e => b.short e.1 e.2.1 e.2.2)
  let b := b.liveBinds.foldl (fun b e => b.setBind e.1 e.2.1 { e.2.2 with part := true }) b
  let b := b.rsetBit MEM_STATUS 1 short
  (if short then b.count CREDIT_HOLD_COUNT 1 else b, short)

/-- A shot starts: RESV takes DECL_ACT at every binding that has met a horizon (R320, R321). -/
def Body.creditShot (b : Body) : Body :=
  b.liveBinds.foldl (fun b e => if e.2.2.part then b.rset (FIFO_RESV e.1 e.2.1) (b.rget (FIFO_DECL_ACT e.1 e.2.1)) else b) b

/-- A write of FIFOf_DECL (R319). -/
def Body.writeDecl (b : Body) (n f : Nat) (v : Reg32) : Body :=
  let big := match (b.fifo n f).bind with
    | some y => decide (y.cap < fld v 0 24)
    | none => false
  if big then b.reject MEM_STATUS
  else
    let b := b.rset (FIFO_DECL n f) (v &&& 0xFFFFFF)
    if b.gridRun then b else b.rset (FIFO_DECL_ACT n f) (v &&& 0xFFFFFF)

/-- Declarations take effect at a Slack commit point (R319). -/
def Body.declCommit (b : Body) : Body :=
  (List.range 256).foldl (fun b k => b.rset (FIFO_DECL_ACT (k / 16) (k % 16)) (b.rget (FIFO_DECL (k / 16) (k % 16)))) b

/-! ### Losing an interface, and the host (R263, R265, R323) -/

/-- A binding whose staging touches interface `k` is lost (R323). -/
def Body.loseBind (b : Body) (c : Clock) (n f : Nat) : Body :=
  match (b.fifo n f).bind with
  | none => b
  | some y =>
    let b := if y.rec_.isSome && y.host then b.closeRec c n f { y with lost := true } 9 0
      else b.setBind n f { y with lost := true, rec_ := none }
    (b.abandon n f).endUnbind c (fifoKey n f)

/-- INTERFACE_FAIL: interface `k` fails, populated as training found or still in training; the sets of conditions that hold are the operands, the error
count the device's own (R323, R415, R456). -/
def Body.interfaceFail (b : Body) (c : Clock) (k : Nat) (monitor parity : Bool) : Body :=
  let count := decide (16 ≤ ((b.mcHits.get [] k).filter (fun t => decide (c.cyc < t + 1000000))).length)
  if b.mcFail k || (b.memReady && ! b.rbit MEM_CFG k) || ! (monitor || parity || count) then b
  else
    let lost := (List.range 256).filter (fun key => match (b.fifo (key / 16) (key % 16)).bind with
      | some y => ! y.lost && b.touches y.stageBase (64 * y.cap) k
      | none => false)
    let b := ((b.rsetBit MEM_STATUS (4 + k) true).stick MEM_STATUS 14).rsetBit (MC_STATUS k) 2 true
    let b := b.rsetBit FLT_STATUS (20 + k) true
    let b := { b with badLines := b.badLines.put [] k [], mcHits := b.mcHits.put [] k [] }
    let b := b.fault c 0x04 (k * 2 ^ 8 + (if monitor then 2 ^ 10 else 0) + (if parity then 2 ^ 11 else 0) + (if count then 2 ^ 12 else 0)) 0
    lost.foldl (fun b key => b.loseBind c (key / 16) (key % 16)) b

/-- INTERFACE_FAIL (R323). -/
def execInterfaceFail (k : Fin 4) (monitor : Bool) (parity : Bool) (s : State) : Host.Outcome State Fault Refusal :=
  nextBody (fun c b => b.interfaceFail c k monitor parity) s

/-- A host-side reset removes the host half of a binding; an unbind under way finishes on the device (R263, R264, R317). -/
def Body.loseHost (b : Body) (c : Clock) (n f : Nat) : Body :=
  match (b.fifo n f).bind with
  | none => b
  | some y =>
    let z := { y with host := false, rec_ := none, staged := y.copied ++ y.staged, copied := [], hostAt := 0, halted := false }
    let b := (b.setBind n f z).rset (FIFO_HOST_USED n f) 0
    if y.unbind.isSome then (b.abandon n f).endUnbind c (fifoKey n f) else b

/-! ### Scrub, drift and training (R300, R305, R306) -/

/-- The interface and offset of line `i` of a scrub pass: one interface after another, each from its first line. The order is the model's choice (DESIGN
CHOICE, assumption 58). -/
def Body.scrubLine (b : Body) (i : Nat) : Nat × Nat := (64 * i / b.mcSize, 64 * i % b.mcSize)

/-- The scrub runs: SCRUB_EN is set, shedding stands below level 3, memory is trained (R300, R306, R397). -/
def Body.scrubs (b : Body) : Bool := b.rbit MEM_CTL 0 && decide (b.rfld GOV_STATUS 10 3 < 3) && b.memReady

/-- The scrub goes on to the next line of its pass; behind the last line the pass is complete and another begins (R306). -/
def Body.scrubNext (b : Body) : Body :=
  if b.usable ≤ 64 * (b.scrubAt + 1) then ({ b with scrubAt := 0 } : Body).count SCRUB_PASS 1 else { b with scrubAt := b.scrubAt + 1 }

/-- The scrub has come to the last line of its pass. -/
def Body.scrubLast (b : Body) : Bool := decide (b.usable ≤ 64 * (b.scrubAt + 1))

/-- SCRUB_READ: the patrol scrub reads the line the command names if it is the one it has come to; while it does not run it keeps its place
(R306). -/
def execScrubRead (k : Fin 4) (off : Nat) (last : Bool) (s : State) : Host.Outcome State Fault Refusal :=
  if s.body.scrubs ∧ s.body.scrubLine s.body.scrubAt = (k.val, off) ∧ s.body.scrubLast = last then
    let t := (mcRead s k off).2
    .next { t with body := t.body.scrubNext }
  else .next s

/-- DRIFT_TRACK: drift tracking stops no traffic and shows in no register (R300). -/
def execDriftTrack (s : State) : Host.Outcome State Fault Refusal := .next s

/-- Usable MiB of one interface by DENSITY code (R299). -/
def usableMib (density : Nat) : Nat :=
  match density with
  | 0 => 7168
  | 1 => 10752
  | 2 => 14336
  | 3 => 21504
  | 4 => 28672
  | 5 => 43008
  | _ => 0

/-- Training ends: MEM_CFG, USABLE_MIB and READY show it (R300). The population is one, two or four interfaces (R299). -/
def Body.trained (b : Body) (pop density speed : Nat) : Body :=
  let b := b.rset MEM_CFG (r32 (pop + density * 2 ^ 4 + speed * 2 ^ 8))
  let b := b.rset USABLE_MIB (r32 (b.mcCount * usableMib density))
  let b := (List.range 4).foldl (fun b k => (b.rsetBit (MC_STATUS k) 0 (pop.testBit k)).rsetBit (MC_STATUS k) 1 false) b
  b.rsetBit MEM_STATUS 0 true

/-- MEM_TRAINING_DONE: the speed every interface trained at is no higher than SPEED_MAX (R300, R431). -/
def execMemTrainingDone (pop : BitVec 4) (density : Fin 6) (speed : Fin 4) (s : State) : Host.Outcome State Fault Refusal :=
  nextBody (fun _ b =>
    if ! b.memReady && (pop == 1 || pop == 3 || pop == 15) && b.rbit FLT_STATUS 5 && decide (speed.val ≤ b.rfld BOOT_MEMCFG 0 2) then
      b.trained pop.toNat density speed
    else b) s

end Sys2Proof.Machine
end

