-- ==== Sys2Proof/Machine/Tide.lean ====
section
/-! DEFINITION. The tide block: reading time, the increment, the settlement schedule as far as it concerns this block,
alarms, captures and anchoring (R24 to R49). -/

namespace Sys2Proof.Machine

/-! ### Reading time -/

/-- A read of TIDE_NOW_LO snapshots the rest of the two clocks (R49). -/
def Body.readTide (b : Body) (c : Clock) : Body :=
  let b := b.rset TIDE_NOW_LO (r32 c.now)
  let b := b.rset TIDE_NOW_HI (r32 (c.now / 2 ^ 32))
  let b := b.rset TIDE_NOW_FRAC (r32 c.tt.toNat)
  let b := b.rset PHASE_NOW_LO (r32 c.ph)
  let b := b.rset PHASE_NOW_HI (r32 (c.ph / 2 ^ 32))
  b.emitOut (.regValue TIDE_NOW_LO (r32 c.now))

/-- TIDE_NOW_LO_READ (R49). -/
def execTideNowLoRead (s : State) : Host.Outcome State Fault Refusal := nextBody (fun c b => b.readTide c) s

/-! ### The increment -/

/-- A write of TIDE_INC is refused outside the valid range and while the servo owns the increment (R27, R28). -/
def incAllowed (b : Body) (v : Reg32) : Bool :=
  decide (0x00FF0000 ≤ v.toNat) && decide (v.toNat ≤ 0x01010000) && ! b.rbit TIDE_CTL 0

/-- A write of TIDE_INC (R28, R29). -/
def Body.writeInc (b : Body) (c : Clock) (v : Reg32) : Body :=
  if incAllowed b v then b.stageInc c v else b.reject TIDE_STATUS

/-- TIDE_INC_WRITE (R29). -/
def execTideIncWrite (v : Reg32) (s : State) : Host.Outcome State Fault Refusal := nextBody (fun c b => b.writeInc c v) s

/-- At a Slack commit point the staged increment becomes active; one staged in this very cycle waits (R29). -/
def Body.incCommit (b : Body) (c : Clock) : Body :=
  if b.rbit TIDE_STATUS 4 then
    if b.incAt = some c.cyc then
      match b.incOld with
      | some v => { b.rset TIDE_INC_ACT v with incOld := none }
      | none => b
    else (b.rset TIDE_INC_ACT (b.rget TIDE_INC)).rsetBit TIDE_STATUS 4 false
  else b

/-! ### Starting and stopping the grid (R42) -/

/-- The first grid point at least `t` (R35). -/
def gridPointFrom (origin period t : Nat) : Nat :=
  if t ≤ origin then origin else origin + (t - origin + (period - 1)) / period * period

/-- A start of the grid (R42). -/
def Body.gridStart (b : Body) (c : Clock) : Body :=
  if ! b.anchored || b.gridRun then b.reject TIDE_STATUS
  else
    let first := gridPointFrom (b.rpair GRID_ORIGIN_LO GRID_ORIGIN_HI) (b.rnat GRID_PERIOD) (c.now + 4000)
    let b := b.rsetBit TIDE_STATUS 1 true
    { b with ring := { b.ring with useMirror := false }, grid := { b.grid with
        win := .start, bound := c.now, next := first, ann := false, horizon := false, voted := 0, verdict := none,
        done := false, stopping := false, voteMask := 0, voteReasons := 0 } }

/-- A stop of the grid (R42): no further boundary is settled. A member learns of it from the STOP bit of a VERDICT; while no boundary awaits
its verdict no frame tells the members, and the spec names none (DESIGN CHOICE, assumption 54). -/
def Body.gridStop (b : Body) : Body :=
  if b.gridRun then { b with grid := { b.grid with stopping := true } } else b

/-- A write of GRID_CMD (R42). -/
def Body.writeGridCmd (b : Body) (c : Clock) (v : Reg32) : Body :=
  if bit v 0 && bit v 1 then b.reject TIDE_STATUS
  else if bit v 0 then b.gridStart c
  else if bit v 1 then b.gridStop
  else b

/-- GRID_CMD_START: a write of GRID_CMD with START (R42). -/
def execGridCmdStart (v : Reg32) (s : State) : Host.Outcome State Fault Refusal :=
  nextBody (fun c b => b.writeGridCmd c v) s
/-- GRID_CMD_STOP: a write of GRID_CMD with STOP (R42). -/
def execGridCmdStop (v : Reg32) (s : State) : Host.Outcome State Fault Refusal :=
  nextBody (fun c b => b.writeGridCmd c v) s

/-! ### Settlement (R41) -/

/-- ANNOUNCE_SEND: at B − 3,000 the Lighthouse announces B with the epoch the shot will carry (R41). -/
def Body.announceSend (b : Body) (c : Clock) : Body :=
  let g := b.grid
  if b.isLighthouse && b.gridRun && ! g.stopping && ! g.ann && b.within c g.next 3000 then
    let e := (b.epoch + 1) % 2 ^ 16
    let b := { b with grid := { g with ann := true, annEpoch := e, horizon := false, voted := 0, verdict := none,
                                       voteMask := 0, voteReasons := 0 } }
    let b := b.sendBoth 5 0 true 0 g.next (e * 2 ^ 48 + b.gridPeriod * 2 ^ 16) b.shotLen
    { b with ring := { b.ring with lastAnnSent := c.cyc } }
  else b

/-- ANNOUNCE_SEND (R41). -/
def execAnnounceSend (s : State) : Host.Outcome State Fault Refusal := nextBody (fun c b => b.announceSend c) s

/-- VERDICT_SEND: at B − 1,000 the Lighthouse sends the verdict with the union of the hold masks it received (R41, R69). -/
def Body.verdictSend (b : Body) (c : Clock) : Body :=
  let g := b.grid
  if b.isLighthouse && b.gridRun && g.ann && g.horizon && g.verdict.isNone && b.within c g.next 1000 then
    let hold := g.voteMask != 0
    let b := { b with grid := { g with verdict := some hold } }
    let b := if hold then (b.rset HOLD_LAST (r32 (g.voteMask + g.voteReasons * 2 ^ 16))) else b
    let b := b.sendBoth 7 0 true ((if hold then 1 else 0) + (if g.stopping then 2 else 0)) g.next
      (g.annEpoch * 2 ^ 48 + g.voteMask * 2 ^ 32) 0
    { b with ring := { b.ring with lastAnnSent := c.cyc } }
  else b

/-- VERDICT_SEND (R41). -/
def execVerdictSend (s : State) : Host.Outcome State Fault Refusal := nextBody (fun c b => b.verdictSend c) s

/-- The member counts one more boundary it treated as held for want of a verdict or on an overruled vote (R67). -/
def Body.missOne (b : Body) : Body :=
  { b with ring := { b.ring with kMissed := min 65535 (b.ring.kMissed + 1) } }

/-- The boundary at `next` is in settlement: announced or, at a member that has heard no announcement of it and no stop, due all the same
(R41, R70). -/
def Body.settles (b : Body) : Bool := b.gridRun && (b.grid.ann || (! b.isLighthouse && ! b.grid.stopping))

/-- VERDICT_MISS: without a verdict by B − 64 the boundary is treated as held (R41). -/
def Body.verdictMiss (b : Body) (c : Clock) : Body :=
  let g := b.grid
  if b.settles && g.verdict.isNone && b.within c g.next 64 then
    (({ b with grid := { g with verdict := some true } }).stick TIDE_STATUS 11).missOne
  else b

/-- VERDICT_MISS (R41). -/
def execVerdictMiss (s : State) : Host.Outcome State Fault Refusal := nextBody (fun c b => b.verdictMiss c) s

/-- SLACK_START: at B + SHOT_LEN the shot window ends (R38). -/
def Body.slackStart (b : Body) (c : Clock) : Body :=
  let g := b.grid
  if decide (g.win = .shot) && decide (g.shotFin ≤ c.now) then
    let b := (b.rsetBit TIDE_STATUS 2 false)
    let b := { b with grid := { g with win := .slack } }
    if b.rbit TIDE_CTL 15 then b.publish c (b.rfld TIDE_CTL 9 6) 0 0 false else b
  else b

/-- SLACK_START (R38). -/
def execSlackStart (s : State) : Host.Outcome State Fault Refusal := nextBody (fun c b => b.slackStart c) s

/-- SLACK_OVERRUN: no commit point by B′ − 3,000, so the changes wait for the next Slack window (R40). -/
def Body.slackOverrun (b : Body) (c : Clock) : Body :=
  let g := b.grid
  if b.gridRun && (decide (g.win = .slack) || decide (g.win = .start)) && ! g.done && ! g.stopping &&
      b.within c g.next 3000 then
    ({ b with grid := { g with done := true } }).stick TIDE_STATUS 9
  else b

/-- SLACK_OVERRUN (R40). -/
def execSlackOverrun (s : State) : Host.Outcome State Fault Refusal := nextBody (fun c b => b.slackOverrun c) s

/-- A boundary that is held, or treated as held in a Tide break (R73), is reached: the whole interval to the next grid point is Slack, with its commit point at B
(R37, R40). HOLD_COUNT counts it. -/
def Body.heldBoundary (b : Body) (c : Clock) : Body :=
  let g := b.grid
  let held := decide (g.verdict = some true) || (g.verdict.isSome && b.tideBreak)
  if b.settles && held && decide (g.next ≤ c.now) && decide (g.win ≠ .shot) then
    let b := (b.rset HOLD_COUNT (satInc (b.rget HOLD_COUNT) 1)).perf 0x03 0 1
    { b with grid := { g with win := .held, bound := g.next, next := g.next + b.gridPeriod, ann := false, horizon := false,
                              voted := 0, verdict := none, done := false } }
  else b

/-! ### Alarms (R43, R44) -/

/-- The port an alarm names (ALMn_CTL PORT_CLASS, PORT_IDX). -/
def Body.alarmPort (b : Body) (n : Nat) : PortRef :=
  let i := b.rfld (ALM_CTL n) 13 6
  match b.rfld (ALM_CTL n) 11 2 with
  | 0 => .dp i
  | 1 => .dp (64 + i)
  | _ => .rx i

/-- What an alarm does when it fires: its ACTION, and its event (R44). -/
def Body.alarmAct (b : Body) (c : Clock) (n : Nat) : Body :=
  let b := match b.rfld (ALM_CTL n) 1 3 with
    | 0 => b
    | 1 => b.coreWrite c (b.alarmPort n) true
    | 2 => b.coreWrite c (b.alarmPort n) false
    | _ => b.reject TIDE_STATUS
  if b.rbit (ALM_CTL n) 10 then b.publish c (b.rfld (ALM_CTL n) 4 6) 0 0 false else b

/-- Committed target of an alarm. -/
def Body.alarmTarget (b : Body) (n : Nat) : Nat := b.rpair (ALM_TARGET_LO n) (ALM_TARGET_HI n)

/-- An armed alarm whose target is reached; one armed in this cycle fires in the next (R43). -/
def Body.alarmDue (b : Body) (c : Clock) (n : Nat) : Bool :=
  b.rbit (ALM_CTL n) 24 && decide (b.alarmTarget n ≤ c.now) && decide (b.grid.armedAt.get 0 n < c.cyc + 1)

/-- Disarm, or move the target on by the period until it lies in the future (R43). -/
def Body.alarmRearm (b : Body) (c : Clock) (n : Nat) : Body :=
  let p := b.rnat (ALM_PERIOD n)
  if p = 0 then b.rsetBit (ALM_CTL n) 24 false
  else
    let t := b.alarmTarget n
    let m := (c.now - t) / p + 1
    let b := b.rsetPair (ALM_TARGET_LO n) (ALM_TARGET_HI n) (t + m * p)
    if 1 < m then b.stick (ALM_CTL n) 26 else b

/-- ALARM_FIRE (R43). -/
def Body.alarmFire (b : Body) (c : Clock) (n : Nat) : Body :=
  if b.alarmDue c n then (b.alarmAct c n).alarmRearm c n else b

/-- ALARM_FIRE (R43). -/
def execAlarmFire (n : Fin 32) (s : State) : Host.Outcome State Fault Refusal := nextBody (fun c b => b.alarmFire c n) s

/-- A write of ALMn_TARGET_HI commits the target and arms the alarm if EN is set; an alarm due in this cycle fires on its
old target first (R43). -/
def Body.writeTarget (b : Body) (c : Clock) (n : Nat) (v : Reg32) : Body :=
  let b := if b.alarmDue c n then b.alarmAct c n else b
  let b := b.commitPair (ALM_TARGET_LO n) (ALM_TARGET_HI n) v
  if b.rbit (ALM_CTL n) 0 then
    let b := b.rsetBit (ALM_CTL n) 24 true
    let b := { b with grid := { b.grid with armedAt := b.grid.armedAt.put 0 n (c.cyc + 1) } }
    if b.alarmTarget n ≤ c.now then b.stick (ALM_CTL n) 25 else b
  else b

/-- ALM_TARGET_HI_WRITE (R43). -/
def execAlmTargetHiWrite (n : Fin 32) (v : Reg32) (s : State) : Host.Outcome State Fault Refusal :=
  nextBody (fun c b => b.writeTarget c n v) s

/-- ALMn_CTL is refused for PORT_CLASS 3 with ACTION 1 or 2, and for an index beyond the class (R49). -/
def alarmCtlAllowed (v : Reg32) : Bool :=
  let cls := fld v 11 2
  let act := fld v 1 3
  ! (cls == 3 && (act == 1 || act == 2)) && ! ((cls == 1 || cls == 2) && decide (16 ≤ fld v 13 6))

/-- A write of ALMn_CTL (R49): EN 0 disarms at once. -/
def Body.writeAlarmCtl (b : Body) (n : Nat) (v : Reg32) : Body :=
  if alarmCtlAllowed v then
    let b := b.w1c (ALM_CTL n) 0x06000000 v
    let b := b.rsetFld (ALM_CTL n) 0 19 v.toNat
    if bit v 0 then b else b.rsetBit (ALM_CTL n) 24 false
  else b.reject TIDE_STATUS

/-! ### Captures (R45, R46) -/

/-- Does unit `n` take this source (CAPn_CTL SRC, SEL)? A channel source is taken in its delivery cycle. -/
def Body.captures (b : Body) (n : Nat) (src : CapSrc) : Bool :=
  b.rbit (CAP_CTL n) 0 &&
  match src with
  | .chan ch => decide (b.rfld (CAP_CTL n) 1 2 = 0) && decide (b.rfld (CAP_CTL n) 3 6 = ch) &&
      b.log.delivered.any (fun e => e.1 = ch)
  | .pin p rising _ => decide (b.rfld (CAP_CTL n) 1 2 = if rising then 1 else 2) && decide (b.rfld (CAP_CTL n) 3 6 = p)

/-- Record a capture (R45). -/
def Body.recordCapture (b : Body) (c : Clock) (n sub : Nat) : Body :=
  let b := b.rsetBit (CAP_CTL n) 16 true
  let b := b.rset (CAP_SUB n) (r32 sub)
  let b := b.rsetPair (CAP_TT_LO n) (CAP_TT_HI n) c.now
  b.rsetPair (CAP_PC_LO n) (CAP_PC_HI n) c.ph

/-- Keep the first event of the cycle, for an ACK of the same cycle (R46). -/
def Body.noteCapture (b : Body) (n sub : Nat) : Body :=
  let x := match b.log.capMiss.get none n with
    | some e => (e.1, e.2.1, true)
    | none => (sub, b.rbit (CAP_CTL n) 17, false)
  { b with log := { b.log with capMiss := b.log.capMiss.put none n (some x) } }

/-- CAPTURE: the first event is kept; while FULL is set further events set OVR (R46). -/
def Body.capture (b : Body) (c : Clock) (n : Nat) (src : CapSrc) : Body :=
  let sub := match src with
    | .chan _ => 0
    | .pin _ _ x => x.toNat
  if b.captures n src then
    let b0 := b.noteCapture n sub
    if b.rbit (CAP_CTL n) 16 then b0.stick (CAP_CTL n) 17 else b0.recordCapture c n sub
  else b

/-- CAPTURE (R45). -/
def execCapture (n : Fin 16) (src : CapSrc) (s : State) : Host.Outcome State Fault Refusal :=
  nextBody (fun c b => b.capture c n src) s

/-- CAPn_CTL is refused for SRC 3 (R49). -/
def capCtlAllowed (v : Reg32) : Bool := fld v 1 2 != 3

/-- OVR after an ACK: the event of the same cycle leaves it as it was, a second one of that cycle sets it (R46). -/
def Body.restoreOvr (b : Body) (n : Nat) (on : Bool) : Body :=
  let b := b.rsetBit (CAP_CTL n) 17 on
  { b with log := { b.log with sets := b.log.sets.upd 0 (CAP_CTL n) (fun m => setBit m 17 on) } }

/-- A write of CAPn_CTL; ACK releases the held capture, and an event of the same cycle is recorded with OVR as it was (R46). -/
def Body.writeCapCtl (b : Body) (c : Clock) (n : Nat) (v : Reg32) : Body :=
  if capCtlAllowed v then
    let b := b.w1c (CAP_CTL n) 0x00020000 v
    let b := b.rsetFld (CAP_CTL n) 0 9 v.toNat
    if bit v 31 then
      let b := b.rsetBit (CAP_CTL n) 16 false
      match b.log.capMiss.get none n with
      | some (sub, was, more) => (b.restoreOvr n (more || (was && ! bit v 17))).recordCapture c n sub
      | none => b
    else b
  else b.reject TIDE_STATUS

/-- ACK: a write of CAPn_CTL with ACK (R46). -/
def execAck (n : Fin 16) (v : Reg32) (s : State) : Host.Outcome State Fault Refusal :=
  nextBody (fun c b => b.writeCapCtl c n v) s

/-! ### Anchoring (R47, R48, R83) -/

/-- The conditions of an anchoring request: grid stopped, no command queued, no window open, none pending; in a lock group,
at the Lighthouse with every expected member locked. -/
def Body.anchorAllowed (b : Body) (c : Clock) : Bool :=
  ! b.gridRun && b.comps.entries.all (fun e => e.2.queue.isEmpty) &&
  b.rcv.entries.all (fun e => ! e.2.wins.any (·.openNow c)) && b.grid.anchorAt.isNone &&
  (! b.ringEn || (b.rbit RING_STATUS 4 &&
    decide (b.rget MEMBER_LOCK &&& b.rget MEMBER_MASK = b.rget MEMBER_MASK)))

/-- TIDE_SET with its fraction (R25). -/
def Body.tideSet (b : Body) : Nat := b.rpair TIDE_SET_LO TIDE_SET_HI * 2 ^ 32 + b.rnat TIDE_SET_FRAC

/-- Core cycles of one reference period: 10 at 100 MHz, 100 at 10 MHz (R48, R383). -/
def Body.refPeriod (b : Body) : Nat := if b.rbit GLB_STRAPS 0 then 100 else 10

/-- The residue of the Phase Count at which reference edges fall: 0 from anchoring on, before that one the device does not state (R48). -/
def Body.refResidue (b : Body) : Nat := if b.anchored then 0 else Config.refResidue % b.refPeriod

/-- Cycles by which cycle `at_` lies after a reference edge (R48). -/
def Body.sinceEdge (b : Body) (c : Clock) (at_ : Int) : Nat :=
  (((c.ph : Int) + (at_ - c.cyc) - b.refResidue) % b.refPeriod).toNat

/-- The first reference edge at or after cycle `at_` (R48). -/
def Body.edgeFrom (b : Body) (c : Clock) (at_ : Nat) : Nat :=
  let d := b.sinceEdge c at_
  if d = 0 then at_ else at_ + (b.refPeriod - d)

/-- The reference edge nearest to an instant in sixteenths of a cycle, the earlier of two equally near (R83). -/
def Body.edgeNear (b : Body) (c : Clock) (t : Int) : Nat :=
  let e := t / 16 - b.sinceEdge c (t / 16)
  (if t - 16 * e ≤ 8 * b.refPeriod then e else e + b.refPeriod).toNat

/-- Accept an anchoring request: the instant is the first reference edge at least 1,000,000 cc on; the Lighthouse sends
ANCHOR (R48, R83). -/
def Body.anchorRequest (b : Body) (c : Clock) : Body :=
  let b := { b with grid := { b.grid with anchorAt := some (b.edgeFrom c (c.cyc + 1000000)), anchorSet := none } }
  b.sendBoth 0xA 0 true 0 (b.rpair TIDE_SET_LO TIDE_SET_HI) 0 (b.rnat TIDE_SET_FRAC)

/-- The SL fields of TIDE_CTL: SHOT_EV, SHOT_EV_EN, SLACK_EV, SLACK_EV_EN. -/
def tideCtlSl : Reg32 := 0x0000FFFC

/-- A write of TIDE_CTL, judged whole (R47, R455). -/
def Body.writeTideCtl (b : Body) (c : Clock) (v : Reg32) : Body :=
  if (b.gridRun && (b.rget TIDE_CTL ^^^ v) &&& tideCtlSl != 0) || (bit v 1 && ! b.anchorAllowed c) then b.reject TIDE_STATUS
  else
    let b := b.rset TIDE_CTL (v &&& 0x0000FFFD)
    if bit v 1 then b.anchorRequest c else b

/-- ANCHOR: a write of TIDE_CTL with ANCHOR (R47). -/
def execAnchor (v : Reg32) (s : State) : Host.Outcome State Fault Refusal := nextBody (fun c b => b.writeTideCtl c v) s

/-- The anchor instant has come; it is always a cycle that starts on a reference edge (R48). -/
def Body.anchorDue (b : Body) (c : Clock) : Bool :=
  match b.grid.anchorAt with
  | some a => decide (a ≤ c.cyc) && decide (b.sinceEdge c c.cyc = 0)
  | none => false

/-- Tide Time at the anchor instant: TIDE_SET, of the Lighthouse at a member (R48). The moment at which TIDE_SET is taken is the model's choice
(assumption 54): the Lighthouse uses it as it stands at the instant, a member the value the ANCHOR frame carried. -/
def Body.anchorTide (b : Body) : BitVec 96 :=
  match b.grid.anchorSet with
  | some t => t
  | none => BitVec.ofNat 96 b.tideSet

/-- Disarm every alarm and clear every capture (R48). -/
def Body.clearAlarms (b : Body) : Body :=
  let b := (List.range 32).foldl (fun b n => b.rsetBit (ALM_CTL n) 24 false) b
  (List.range 16).foldl (fun b n =>
    ((((((b.rsetFld (CAP_CTL n) 16 2 0).rset (CAP_SUB n) 0).rset (CAP_TT_LO n) 0).rset (CAP_TT_HI n) 0).rset (CAP_PC_LO n)
      0).rset (CAP_PC_HI n) 0)) b

/-- Every VALID of the fabric clears (R160). -/
def Fabric.sweep (f : Fabric) : Fabric :=
  let off (x : Slot) : Slot := { x with valid := false }
  { f with
    store := f.store.mapVals .reset off
    mirror := f.mirror.mapVals .reset off
    views := f.views.mapVals .reset (fun x => { x with slot := off x.slot })
    tables := f.tables.mapVals .reset (fun x => { x with result := none, flight := none }) }

/-- The fabric sweeps; ring updates that have reached it in this cycle are stored after the sweep (R160). -/
def Body.sweepFab (b : Body) : Body :=
  let f := b.fab.sweep
  { b with fab := { f with mirror := b.log.imports.foldl (fun m e => m.put .reset e.1 e.2) f.mirror } }

/-- Horizons and held values start over at anchoring (R94, R143, R152). -/
def Body.clearHorizons (b : Body) : Body :=
  let b := { b with
    comps := b.comps.mapVals .reset (fun x => { x with hz := .empty })
    rcv := b.rcv.mapVals .reset (fun x => { x with hz := .empty }) }
  { b with regs := b.regs.dropKeys (fun k =>
      decide (0x250100 ≤ k) && decide (k < 0x260000) && decide (0x100 ≤ k % 0x1000) && decide (k % 0x1000 < 0x900) &&
      (let o := k % 0x80; o == 0x38 || o == 0x3C || o == 0x40)) }

/-- What the anchor instant does to everything but the clocks (R48). -/
def Body.anchorInstant (b : Body) : Body :=
  let b := b.clearAlarms.clearHorizons
  let b := (((b.rset SHOT_EPOCH 0).clearFlags 0).rset HOLD_COUNT 0).rsetBit TIDE_STATUS 3 false
  let b := b.rsetBit TIDE_STATUS 0 true
  let b := b.sweepFab
  { b with grid := { b.grid with anchorAt := none, anchorSet := none, started := 0 },
           ring := { b.ring with lastReqA := 0, lastReqB := 0, lastLoop := 0, kMissed := 0, lastAnn := none } }

/-- ANCHOR_INSTANT: Phase Count zero, Tide Time from TIDE_SET, epoch zero, alarms and captures cleared, ANCHORED (R48). -/
def execAnchorInstant (s : State) : Host.Outcome State Fault Refusal :=
  if s.body.anchorDue s.clock then
    .next { s with clock := { s.clock with phase := 0, tt := s.body.anchorTide }, body := s.body.anchorInstant.bwAnchor s.clock }
  else .next s

end Sys2Proof.Machine
end

