-- ==== Sys2Proof/Machine/Descr.lean ====
section
/-! DEFINITION. Descriptors that load memories, copy, command engines and the grid, and wait (R281 to R285, R291). -/

namespace Sys2Proof.Machine

/-! ### Loads (R281) -/

/-- How a transfer ends: the status, and the words or bytes moved. -/
structure Moved where
  status : Nat
  n : Nat
  deriving DecidableEq, Repr

/-- One source line: from host memory through the windows, or from device memory; else the status (R266, R281, R305). -/
def srcLine (s : State) (dev : Bool) (a : Nat) (data : Option (BitVec 512)) : Except Nat (BitVec 512) × State :=
  if dev then
    if ! s.body.inDev a 64 then (.error 3, s)
    else
      let r := devRead s a
      match r.1 with
      | some l => (.ok l, r.2)
      | none => (.error 9, r.2)
  else if ! s.body.winOk a 64 false then (.error 6, s)
  else
    match data with
    | some l => (.ok l, { s with body := s.body.hostRead 64 })
    | none => (.error 7, s)

/-- Take words of packed lines until `left` are taken; each lands by `put` at its place `w` (R281). -/
def takeLines (put : State → Nat → Word → State) (dev : Bool) :
    Nat → Nat → Nat → Nat → List (Option (BitVec 512)) → State → State × Nat
  | 0, _, _, _, _, s => (s, 8)
  | fuel + 1, a, w, left, src, s =>
    if left = 0 then (s, 0)
    else
      let r := srcLine s dev a (src.headD none)
      match r.1 with
      | .error st => (r.2, st)
      | .ok l =>
        let ws := lineWords l
        if ! lineOk l || decide (left < ws.length) then (r.2, 8)
        else
          let s := (ws.zipIdx w).foldl (fun s e => put s e.2 e.1) r.2
          takeLines put dev fuel (a + 64) (w + ws.length) (left - ws.length) (src.drop 1) s

def Desc.srcAddr (d : Desc) : Nat := d.fld 8 64
def Desc.words (d : Desc) : Nat := d.fld 16 32
def Desc.destOff (d : Desc) : Nat := d.fld 20 32
def Desc.dest (d : Desc) : Nat := d.fld 24 16
def Desc.srcDev (d : Desc) : Bool := bit d.raw (8 * 26)

/-- A load: fields, then the target, then the limit, then the source (R281, R300). `status` refuses a target. -/
def loadDesc (r : Nat) (src : List (Option (BitVec 512))) (badDest : Bool) (limit status : Nat) (put : State → Nat → Word → State)
    (s : State) (d : Desc) : State :=
  if badDest || d.words == 0 || d.srcAddr % 64 != 0 || (d.srcDev && decide (2 ^ 40 ≤ d.srcAddr)) then finish r d 2 0 0 s
  else if status ≠ 0 then finish r d status 0 0 s
  else if limit < d.destOff + d.words then finish r d 3 0 0 s
  else if d.srcDev && ! s.body.memReady then finish r d 5 0 0 s
  else
    let t := takeLines put d.srcDev (d.words + 1) d.srcAddr d.destOff d.words src s
    finish r d t.2 0 0 t.1

/-- Write one word of a reload image: the line keeps its tag; an uncorrectable line is not written (R202, R305). -/
def imagePut (s : State) (n p w : Nat) (x : Word) : State :=
  let a := s.body.imageAt n p + 64 * (w / 14)
  let r := devRead s a
  match r.1 with
  | none => r.2
  | some l => devWrite r.2 a (setFld l (36 * (w % 14)) 36 x.toNat)

/-- A load lands in local data memory: in Guarded mode in both twins and the reload image (R202, R281). -/
def localPut (g : Nat) (s : State) (w : Nat) (x : Word) : State :=
  if s.body.guarded (g / 12) then
    let e := s.body.phys g
    imagePut (storeTwins s e w [x]) (g / 12) (g % 12 / 2) w x
  else storeWord s (localAddr g w) x

/-- LOAD_PROGRAM (R182, R281). -/
def loadProgram (r : Nat) (src : List (Option (BitVec 512))) (s : State) (d : Desc) : State :=
  let n := d.dest % 16
  let e := bitsAt d.dest 5 4
  let g := 12 * n + e
  let bad := decide (512 ≤ d.dest) || (! d.dest.testBit 4 && e != 0)
  if d.dest.testBit 4 then
    let st := s.body.engState g
    let status := if 11 < e ∨ s.body.oddTwin g then 4 else if st = 0 ∨ st = 1 ∨ st = 5 then 0 else 5
    loadDesc r src bad 32768 status (localPut g) s d
  else loadDesc r src bad 1048576 0 (fun s w x => storeWord s (sharedAddr n w) x) s d

/-- LOAD_PROGRAM (R281). -/
def execLoadProgram (r : Fin 256) (seq : Reg32) (src : List (Option (BitVec 512))) (s : State) : Host.Outcome State Fault Refusal :=
  .next (startKind r seq.toNat (fun d => d.kind == 1) (loadProgram r src) s)

/-- LOAD_ENVELOPE (R281). -/
def loadEnvelope (r : Nat) (src : List (Option (BitVec 512))) (s : State) (d : Desc) : State :=
  loadDesc r src (decide (128 ≤ d.dest)) 32768 (if 80 ≤ d.dest then 4 else 0) (fun s w x => storeWord s (envAddr d.dest w) x) s d

/-- LOAD_ENVELOPE (R281). -/
def execLoadEnvelope (r : Fin 256) (seq : Reg32) (src : List (Option (BitVec 512))) (s : State) : Host.Outcome State Fault Refusal :=
  .next (startKind r seq.toNat (fun d => d.kind == 2) (loadEnvelope r src) s)

/-- LOAD_KERNEL (R281). -/
def loadKernel (r : Nat) (src : List (Option (BitVec 512))) (s : State) (d : Desc) : State :=
  loadDesc r src (decide (16 ≤ d.dest)) 32768 0 (fun s w x => storeWord s (kernAddr d.dest w) x) s d

/-- LOAD_KERNEL (R281). -/
def execLoadKernel (r : Fin 256) (seq : Reg32) (src : List (Option (BitVec 512))) (s : State) : Host.Outcome State Fault Refusal :=
  .next (startKind r seq.toNat (fun d => d.kind == 3) (loadKernel r src) s)

/-- LOAD_TABLE (R281). -/
def loadTable (r : Nat) (src : List (Option (BitVec 512))) (s : State) (d : Desc) : State :=
  loadDesc r src (d.dest != 0) 1048576 0 (fun s w x => storeWord s (tableAddr w) x) s d

/-- LOAD_TABLE (R281). -/
def execLoadTable (r : Fin 256) (seq : Reg32) (src : List (Option (BitVec 512))) (s : State) : Host.Outcome State Fault Refusal :=
  .next (startKind r seq.toNat (fun d => d.kind == 4) (loadTable r src) s)

/-! ### COPY (R283) -/

/-- Lines from host to device memory; answers the lines moved and the status. -/
def copyIn : Nat → Nat → Nat → List (Option (BitVec 512)) → State → State × Nat × Nat
  | 0, _, _, _, s => (s, 0, 0)
  | k + 1, h, a, src, s =>
    let r := srcLine s false h (src.headD none)
    match r.1 with
    | .error st => (r.2, 0, st)
    | .ok l =>
      let t := copyIn k (h + 64) (a + 64) (src.drop 1) (devWrite r.2 a l)
      (t.1, t.2.1 + 1, t.2.2)

/-- Lines from device to host memory. -/
def copyOut : Nat → Nat → Nat → State → State × Nat × Nat
  | 0, _, _, s => (s, 0, 0)
  | k + 1, h, a, s =>
    let r := srcLine s true a none
    match r.1 with
    | .error st => (r.2, 0, st)
    | .ok l =>
      if ! r.2.body.winOk h 64 true then (r.2, 0, 6)
      else
        let t := copyOut k (h + 64) (a + 64) { r.2 with body := r.2.body.hostWrite h (lineBytes l) true }
        (t.1, t.2.1 + 1, t.2.2)

/-- COPY: DETAIL1 holds the bytes moved (R283). -/
def copyAct (r : Nat) (src : List (Option (BitVec 512))) (s : State) (d : Desc) : State :=
  let h := d.fld 8 64
  let a := d.fld 16 40
  let n := d.fld 24 32
  if h % 64 ≠ 0 ∨ a % 64 ≠ 0 ∨ n % 64 ≠ 0 ∨ n = 0 then finish r d 2 0 0 s
  else if ! s.body.memReady then finish r d 5 0 0 s
  else if ! s.body.inDev a n then finish r d 3 0 0 s
  else
    let t := if bit d.raw (8 * 28) then copyOut (n / 64) h a s else copyIn (n / 64) h a src s
    finish r d t.2.2 0 (64 * t.2.1) t.1

/-- COPY (R283). -/
def execCopy (r : Fin 256) (seq : Reg32) (src : List (Option (BitVec 512))) (s : State) : Host.Outcome State Fault Refusal :=
  .next (startKind r seq.toNat (fun d => d.kind == 6) (copyAct r src) s)

/-! ### RUN_CONTROL (R285) -/

def Desc.op (d : Desc) : Nat := d.fld 8 8

/-- The engines a RUN_CONTROL names. -/
def Desc.named (d : Desc) : List Nat :=
  ((List.range 192).filter (fun g => (d.fld 10 16).testBit (g / 12) && (d.fld 12 16).testBit (g % 12)))

/-- ENGINE: every named engine takes the command in one cycle; DETAIL0 counts the refusals. An operation outside 1 to 4 is
BAD_FIELD (R285). -/
def engineAct (r : Nat) (s : State) (d : Desc) : State :=
  if d.op ≠ 1 ∨ 3 < d.fld 9 8 then finish r d 2 0 0 s
  else
    let t := d.named.foldl (fun (t : Body × Nat) g =>
      let q := t.1.engCommand g (d.fld 9 8)
      (q.1, t.2 + if q.2 then 1 else 0)) (s.body, 0)
    finish r d (if t.2 = 0 then 0 else 0xA) t.2 0 { s with body := t.1 }

/-- ENGINE (R285). -/
def execEngine (r : Fin 256) (seq : Reg32) (s : State) : Host.Outcome State Fault Refusal :=
  .next (startKind r seq.toNat (fun d => d.kind == 8 && ! (d.op == 2 || d.op == 3 || d.op == 4)) (engineAct r) s)

/-- A write of GRID_CMD by a descriptor: refused when it sets CFG_REJECT (R42, R285). -/
def gridAct (v : Reg32) (r : Nat) (s : State) (d : Desc) : State :=
  let was := s.body.rsetBit TIDE_STATUS 8 false
  let b := was.writeGridCmd s.clock v
  let refused := b.rbit TIDE_STATUS 8
  let b := if s.body.rbit TIDE_STATUS 8 then b.rsetBit TIDE_STATUS 8 true else b
  finish r d (if refused then 0xA else 0) 0 0 { s with body := b }

/-- GRID_START (R285). -/
def execGridStart (r : Fin 256) (seq : Reg32) (s : State) : Host.Outcome State Fault Refusal :=
  .next (startKind r seq.toNat (fun d => d.kind == 8 && d.op == 2) (gridAct 1 r) s)
/-- GRID_STOP (R285). -/
def execGridStop (r : Fin 256) (seq : Reg32) (s : State) : Host.Outcome State Fault Refusal :=
  .next (startKind r seq.toNat (fun d => d.kind == 8 && d.op == 3) (gridAct 2 r) s)

/-- A TIMEOUT of `n` ns from now; 0 for none (R285, R289). -/
def deadlineIn (c : Clock) (n : Nat) : Option Nat := if n = 0 then none else some (c.cyc + n)

/-- Start a wait with the descriptor's TIMEOUT. -/
def startTimed (r : Nat) (s : State) (d : Desc) : State :=
  { s with body := s.body.setDesc r { d with deadline := deadlineIn s.clock (d.fld 16 64) } }

/-- Every named engine is STOPPED or FAULTED: the descriptor completes with the number FAULTED (R285). -/
def stoppedLook (r : Nat) (s : State) (d : Desc) : State :=
  if d.named.all (fun g => s.body.engState g == 0 || s.body.engState g == 4) then
    finish r d 0 (d.named.filter (fun g => s.body.engState g == 4)).length 0 s
  else s

/-- WAIT_STOPPED (R285). -/
def execWaitStopped (r : Fin 256) (seq : Reg32) (s : State) : Host.Outcome State Fault Refusal :=
  .next (startOrLook r seq.toNat (fun d => d.kind == 8 && d.op == 4) (startTimed r) (stoppedLook r) s)

/-- DESC_TIMEOUT: the TIMEOUT of a waiting descriptor passes (R285, R289). -/
def execDescTimeout (r : Fin 256) (seq : Reg32) (s : State) : Host.Outcome State Fault Refusal :=
  match s.body.findDesc r seq.toNat with
  | some d =>
    match d.deadline with
    | some t => .next (if d.st = .active ∧ t ≤ s.clock.cyc then finish r d 0xB 0 0 s else s)
    | none => .next s
  | none => .next s

/-! ### WHEN (R286) and FENCE (R291) -/

/-- The commit points that WHEN 1 waits for, as a count over all so far: none when GRID_RUN is 0 as the descriptor starts, else one more than there
have been (R286). -/
def Body.whenMark (b : Body) : Nat := if b.gridRun then b.host.commitMark + 1 else 0

/-- WHEN of a TIME_CONTROL or a FENCE. -/
def Desc.whenCode (d : Desc) : Nat := d.fld (if d.kind = 0xE then 10 else 9) 8

/-- The WHEN condition of a started descriptor holds: at once, in the cycle after the Slack commit point that its `aux` counts, or once the
integer Tide Time has reached AT (R286). -/
def Body.whenHolds (b : Body) (c : Clock) (d : Desc) : Bool :=
  match d.whenCode with
  | 0 => true
  | 1 => d.aux == 0 || (decide (d.aux ≤ b.host.commitMark) && b.grid.lastCommit != some c.cyc)
  | _ => decide (d.fld 16 64 ≤ c.now)

/-- Commits so far on the bindings that report to a ring: those that have their host half (R263, R291). -/
def Body.fenceMarks (b : Body) (r : Nat) : List (Nat × Nat) :=
  b.fifos.entries.filterMap (fun e => match e.2.bind with
    | some y => if y.host ∧ y.ring = r then some (e.1, e.2.com) else none
    | none => none)

/-- A FENCE starts: BAD_FIELD for a bad SCOPE or WHEN, CFG_REJECT for WHEN 2 while not anchored (R286, R291). -/
def fenceStart (r : Nat) (s : State) (d : Desc) : State :=
  if 1 < d.fld 8 8 ∨ 2 < d.fld 10 8 then finish r d 2 0 0 s
  else if d.fld 10 8 = 2 ∧ ! s.body.anchored then finish r d 0xA 0 0 s
  else
    let marks := if bit d.raw 72 then s.body.fenceMarks r else []
    { s with body := s.body.setDesc r { d with aux := s.body.whenMark, marks := marks } }

/-- FENCE (R291). -/
def execFence (r : Fin 256) (seq : Reg32) (s : State) : Host.Outcome State Fault Refusal :=
  .next (startKind r seq.toNat (fun d => d.kind == 0xE) (fenceStart r) s)

/-- Every descriptor fetched before it has completed: on its ring, or on every ring (R291). -/
def Body.earlierDone (b : Body) (r : Nat) (d : Desc) : Bool :=
  let before (h : HostRing) : Bool := h.descs.all (fun x => decide (d.order ≤ x.order))
  if d.fld 8 8 = 0 then before (b.hring r) else b.host.rings.entries.all (fun e => before e.2)

/-- No packet of the FIFO with a number below `m` is still to be staged, copied or recorded. -/
def Fifo.settled (x : Fifo) (m : Nat) : Bool :=
  x.done.all (fun p => decide (m ≤ p.no)) && match x.bind with
    | some y => (y.staged ++ y.copied).all (fun p => decide (m ≤ p.no))
    | none => true

/-- The packets committed before the FENCE have their RESULT records, or have been discarded (R291). -/
def Body.drained (b : Body) (d : Desc) : Bool := d.marks.all (fun m => (b.fifo (m.1 / 16) (m.1 % 16)).settled m.2)

/-- FENCE_DONE: every condition of an active FENCE holds and it completes (R291). -/
def execFenceDone (r : Fin 256) (seq : Reg32) (s : State) : Host.Outcome State Fault Refusal :=
  match s.body.findDesc r seq.toNat with
  | some d =>
    .next (if d.kind = 0xE ∧ d.st = .active ∧ s.body.earlierDone r d ∧ s.body.drained d ∧ s.body.whenHolds s.clock d then
      finish r d 0 0 0 s else s)
  | none => .next s

end Sys2Proof.Machine
end

