-- ==== Sys2Proof/Machine/Emit.lean ====
section
/-! DEFINITION. What the composers form in one cycle: the steps of R86 up to the codes at the pin, the clips of R103, the flux value of R111 and
the predistortion chain of R115 to R118. -/

namespace Sys2Proof.Machine

/-- Read an on-die word as a reader other than an engine does: an error counted and reported, an uncorrectable word zero
(R186, R406). -/
def readNoted (s : State) (a : Nat) : Word × State :=
  (s.mem.soft a, { s with mem := s.mem.afterRead a, body := s.body.noteRead s.clock s.mem a })

/-- Divide by 2ⁿ where the spec states no rounding: exact where it can be, else the lower neighbour or the next, as the
free bit says (log entry 10). -/
def shrOpen (x : Int) (n : Nat) (up : Bool) : Int :=
  x / (2 : Int) ^ n + (if x % (2 : Int) ^ n ≠ 0 ∧ up then 1 else 0)

/-- The sine of a phase in units of 2⁻¹⁸ turn, in units of 2⁻³⁰: exact at the quarter turns, as the example of R103 needs it, and
open between them (log entry 40). -/
def sineOf (p : Nat) : Int :=
  if p = 65536 then 2 ^ 30 else if p = 196608 then -2 ^ 30 else if p % 131072 = 0 then 0 else Config.sine p

/-- Cosine of a phase in units of 2⁻¹⁸ turn. -/
def cosTab (p : Nat) : Int := sineOf ((p + 65536) % 2 ^ 18)
/-- Sine of a phase in units of 2⁻¹⁸ turn. -/
def sinTab (p : Nat) : Int := sineOf (p % 2 ^ 18)

/-! ### Drive and probe: steps 1 to 5 of R86 -/

/-- Phase of a slot oscillator, Δ·c + θ reduced to 18 bits (R33, R86 step 4). -/
def Body.oscPhase (b : Body) (c : Clock) (q slot : Nat) : Nat :=
  let d := toneOffset (b.slotF q slot) (b.carrier q)
  wrap 18 (shrEven (d * c.ph + (b.rfld (SLOT_FRAME q slot) 0 18 : Int) * 2 ^ 30) 30)

/-- Phase of the carrier at sample `j` of the cycle, F_c·(c + j/16) reduced to 20 bits (R33, R86 step 7). -/
def Body.carrierPhase (b : Body) (c : Clock) (q j : Nat) : Nat := wrap 20 (shrEven ((b.carrier q * (16 * c.ph + j) : Nat) : Int) 32)

/-- One emission's contribution after step 4, in units of 2⁻⁴⁷, and whether step 2 clipped. A pulse that starts between two baseband
samples passes step 3, whose filter the spec does not give: its sample is then an open value (R31, log entry 10). -/
def Body.toneSample (b : Body) (c : Clock) (q : Nat) (p : Emission) (env : Int × Int) (open_ : BitVec 64) :
    (Int × Int) × Bool :=
  let a := sval 18 (fld p.w3 18 18)
  let ph := fld p.w3 0 18
  let i := shrEven (a * (env.1 * cosTab ph - env.2 * sinTab ph)) 47
  let r := shrEven (a * (env.1 * sinTab ph + env.2 * cosTab ph)) 47
  let clip := ovfS 18 i || ovfS 18 r
  let x : Int × Int := if p.samp = 0 then (satS 18 i, satS 18 r) else (sval 18 (fld open_ 18 18), sval 18 (fld open_ 0 18))
  let o := b.oscPhase c q p.slot
  ((x.1 * cosTab o - x.2 * sinTab o, x.1 * sinTab o + x.2 * cosTab o), clip)

/-- The envelope sample of an emission in this cycle, in units of 2⁻¹⁷ (R86 step 1, R92); none is left in the cycle in which the delayed
last sample ends. -/
def envSample (s : State) (q : Nat) (p : Emission) : (Int × Int) × State :=
  if p.start + p.len ≤ s.clock.cyc then ((0, 0), s)
  else if opOf p.w1 = 3 then ((2 ^ 17, 0), s)
  else
    let r := readNoted s (envAddr q (fld p.w2 0 15 + (s.clock.cyc - p.start)))
    ((cI r.1, cQ r.1), r.2)

/-- Sum one emission into the running sum of a port. -/
def addTone (q : Nat) (acc : State × (Int × Int) × Bool) (p : Emission) : State × (Int × Int) × Bool :=
  let e := envSample acc.1 q p
  let t := e.2.body.toneSample e.2.clock q p e.1 e.2.body.openValue
  let b := if p.samp = 0 then e.2.body else e.2.body.draw
  ({ e.2 with body := b }, (acc.2.1.1 + t.1.1, acc.2.1.2 + t.1.2), acc.2.2 || t.2)

/-- May step 7 clip in this cycle? Never while every emission is a CONST tone and the amplitudes after the gain add to 0.998
or less (R103). -/
def Body.mayClip7 (b : Body) (q : Nat) (on : List Emission) : Bool :=
  let amps := (on.map (fun p => (sval 18 (fld p.w3 18 18)).natAbs)).sum
  ! (on.all (fun p => opOf p.w1 == 3) && decide (amps * b.rfld (PORT_GAIN q) 0 17 * 1000 ≤ 998 * 2 ^ 34))

/-- The sine of a carrier phase in units of 2⁻²⁰ turn, in units of 2⁻³⁰: exact at the quarter turns, open between them (log entry 40). -/
def sineOf20 (p : Nat) : Int := if p % 262144 = 0 then sineOf (p / 4) else Config.sine20 p

/-- Steps 6 and 7 for sample `j` of the cycle: the interpolated sample, whose filter the spec does not give, is an open value; its product
with the carrier, real part, becomes the DAC code, rounded as an open bit says (R86, log entry 10). -/
def Body.upconvert (b : Body) (c : Clock) (q j : Nat) : Int × Body :=
  let v := b.openValue
  let ph := b.carrierPhase c q j
  let re := sval 18 (fld v 18 18) * sineOf20 ((ph + 262144) % 2 ^ 20) - sval 18 (fld v 0 18) * sineOf20 ph
  (shrOpen re 34 (bit v 36), b.draw)

/-- The 16 samples of step 7 in this cycle: their codes, saturated to 14 bits, and whether one saturated (R86, R103). -/
def Body.upconverts (b : Body) (c : Clock) (q : Nat) : List Int × Bool × Body :=
  (List.range 16).foldl (fun (t : List Int × Bool × Body) j =>
    let r := t.2.2.upconvert c q j
    (t.1 ++ [satS 14 r.1], t.2.1 || ovfS 14 r.1, r.2)) ([], false, b)

/-- Cycles a code stays on its way to the pin: 36, and up to 255/16 of OUT_TRIM (R97, R113). -/
def lineCycles : Nat := 53

/-- Codes formed for a cycle join those on their way to the pin (R97, R113). -/
def onLine (c : Clock) (codes : List Int) (l : List (Nat × List Int)) : List (Nat × List Int) :=
  (c.cyc, codes) :: l.filter (fun e => decide (c.cyc < e.1 + lineCycles))

/-- The code formed for sample `i`, counted from cycle 0 in samples of which `m` make a cycle; 0 where nothing was formed. -/
def codeAt (l : List (Nat × List Int)) (m : Nat) (i : Int) : Int :=
  match l.find? (fun e => (e.1 : Int) == i / m) with
  | some e => e.2.getD (i % m).toNat 0
  | none => 0

/-- The code at the pin of a D or P port in sixteenth `i` of the cycle: formed 36 cc and OUT_TRIM sixteenths before; none while the core is
not READY (R97, R104). -/
def Body.pinCode (b : Body) (c : Clock) (q i : Nat) : Int :=
  if b.rbit (PORT_STATUS q) 1 then codeAt (b.comp q).line 16 (16 * (c.cyc - 36 : Int) + i - b.rfld (OUT_TRIM q) 0 8) else 0

/-- The code at the pin of a flux port in sixteenth `i` of the cycle: its chain input lay 36 cc and OUT_TRIM sixteenths before; none while
the core is not READY (R113, R120). -/
def Body.fluxPin (b : Body) (c : Clock) (f i : Nat) : Int :=
  if b.rbit (FLX_STATUS f) 1 then
    codeAt (b.flx f).line 2 ((16 * (c.cyc - 36 : Int) + i - b.rfld (FLX_OUT_TRIM f) 0 8) / 8)
  else 0

/-- One cycle of a D or P composer (R86, R103). -/
def emitPort (s : State) (q : Nat) : State :=
  let on := (s.body.comp q).run.filter (·.on s.clock)
  if on.isEmpty then s
  else
    let acc := on.foldl (addTone q) (s, (0, 0), false)
    let s := acc.1
    let g : Int := s.body.rfld (PORT_GAIN q) 0 17
    let v := s.body.openValue
    let b := s.body.draw
    let i := shrOpen (acc.2.1.1 * g) 47 (bit v 0)
    let r := shrOpen (acc.2.1.2 * g) 47 (bit v 1)
    let up := b.upconverts s.clock q
    let clip := acc.2.2 || ovfS 18 i || ovfS 18 r || (b.mayClip7 q on && up.2.1)
    let x := up.2.2.comp q
    let b := up.2.2.setComp q { x with base := mkC (satS 18 i) (satS 18 r), line := onLine s.clock up.1 x.line }
    { s with body := if clip then b.clip s.clock q else b }

/-! ### Flux: R111 and the chain -/

/-- A wave sample of a flux pulse: a word of cove shared memory is read for its first half and kept for its second, so one word is read
per cc (R112). -/
def waveSample (s : State) (f : Nat) (p : Emission) (n : Nat) : Int × State :=
  if n % 2 = 0 then
    let r := readNoted s (sharedAddr (f / 2) (fld p.w2 0 20 + n / 2))
    (cI r.1, { r.2 with body := r.2.body.setFlx f { r.2.body.flx f with wave := r.1 } })
  else (cQ (s.body.flx f).wave, s)

/-- One IIR stage (R116): the new state, the output, and whether it saturated (R115). -/
def iirStage (x : Int) (s a : Int) (beta : Nat) (up1 up2 : Bool) : Int × Int × Bool :=
  let d := x * 2 ^ 23 - s
  let s1 := s + shrOpen ((beta : Int) * d) 32 up1
  let y := x + shrOpen (a * (x * 2 ^ 23 - s1)) 39 up2
  (s1, satS 25 y, ovfS 25 y)

/-- The four IIR stages in order (R115): for each its new state and its input; the output; whether a stage saturated. -/
def iirChain (v : BitVec 64) : Nat → Int → List Int → List Int → List Nat → List (Int × Int) × Int × Bool
  | k, x, s :: ss, a :: as, e :: es =>
    let r := iirStage x s a e (bit v (2 * k)) (bit v (2 * k + 1))
    let t := iirChain v (k + 1) r.2.1 ss as es
    ((r.1, x) :: t.1, t.2.1, r.2.2 || t.2.2)
  | _, x, _, _, _ => ([], x, false)

/-- The FIR sum (R117). -/
def firSum (taps hist : List Int) : Int := (List.zipWith (fun h z => h * z) taps hist).sum

/-- One sample through the predistortion chain and the DAC code (R108, R115 to R117). -/
def FluxSt.chain (x : FluxSt) (v : Int) (o : BitVec 64) : FluxSt × Bool :=
  let r := iirChain o 0 (v * 2 ^ 4) x.iir x.gain x.beta
  let hist := (r.2.1 :: x.hist).take 32
  let y := shrOpen (firSum x.taps hist) 16 (bit o 8)
  let code := shrEven (satS 25 y) 6
  ({ x with iir := r.1.map (·.1), ins := r.1.map (·.2), hist := hist, vin := v, codes := x.codes ++ [satS 16 code] },
    r.2.2 || ovfS 25 y || ovfS 16 code)

/-- Sample `j` of the cycle of a flux port: the value of R111, then the chain. -/
def fluxSample (f : Nat) (j : Nat) (acc : State × Bool) : State × Bool :=
  let s := acc.1
  let q := 80 + f
  let lev := if j = 0 then (s.body.flx f).lev0 else (s.body.flx f).lev1
  let n (p : Emission) : Int := 2 * ((s.clock.cyc : Int) - p.start) + j - p.samp
  let w : Int × State :=
    match (s.body.comp q).run.find? (fun p => opOf p.w1 != 3 && decide (0 ≤ n p) && decide (n p < 2 * p.len)) with
    | some p =>
      let r := waveSample s f p (n p).toNat
      (shrEven (sval 18 (fld p.w3 18 18) * r.1) 17, r.2)
    | none => (0, s)
  let b := w.2.body
  let r := (b.flx f).chain (satS 18 (lev + w.1)) b.openValue
  ({ w.2 with body := (b.setFlx f r.1).draw }, acc.2 || ovfS 18 (lev + w.1) || r.2)

/-- One cycle of a flux port whose core is started (R115, R118, R120). -/
def emitFlux (s : State) (f : Nat) : State :=
  if (s.body.core (.fx f)).start.isNone then s
  else
    let s := { s with body := s.body.setFlx f { s.body.flx f with codes := [] } }
    let r := fluxSample f 1 (fluxSample f 0 (s, false))
    let x := r.1.body.flx f
    let b := r.1.body.setFlx f { x with line := onLine s.clock x.codes x.line }
    { r.1 with body := if r.2 then b.clip s.clock (80 + f) else b }

/-- The samples of the present cycle, formed when every command of it has acted: of the D and P composers, and of every flux port whose
core is started, idle or not (R115). -/
def emitCycle (s : State) : State :=
  let qs := (s.body.comps.entries.map (·.1)).filter (· < 80)
  (List.range 32).foldl emitFlux (qs.foldl emitPort s)

/-! ### The start of the next cycle -/

/-- Emissions that have ended leave; the levels of a ramp move on to the samples of the new cycle (R111). -/
def Composer.expire (x : Composer) (c : Clock) : Composer :=
  let run := x.run.filter (·.live c)
  { x with run := run, base := if run.any (·.on c) then x.base else 0,
           line := x.line.filter (fun e => decide (c.cyc < e.1 + lineCycles)) }

/-- Levels of the two samples of a new cycle (R111). -/
def FluxSt.advance (x : FluxSt) : FluxSt :=
  let x := { x with lprev := x.lev1, lev0 := x.lev1, at0 := false, at1 := false }
  match x.ramp with
  | none => x
  | some r =>
    let l0 := r.at r.m
    let one := decide (2 * r.len ≤ r.m + 1)
    let l1 := if one then l0 else r.at (r.m + 1)
    { x with lev0 := l0, lev1 := l1, ramp := if 2 * r.len ≤ r.m + 2 then none else some { r with m := r.m + 2 } }

/-- Composers and flux levels enter a new cycle. -/
def Body.composersAdvance (b : Body) (c : Clock) : Body :=
  let b := { b with comps := b.comps.mapVals .reset (fun x => x.expire c) }
  b.flux.entries.foldl (fun b e => (b.setFlx e.1 (b.flx e.1).advance).syncLevel e.1) b

/-! ### Flux registers (R118, R121) -/

/-- A write of a coefficient register is refused while COEF_PENDING is set (R118). -/
def Body.writeCoef (b : Body) (f k : Nat) (v mask : Reg32) : Body :=
  if b.rbit (FLX_STATUS f) 3 then b.reject (FLX_STATUS f) else b.rset k (v &&& mask)

/-- Apply the staged coefficients: every state takes its own stage's input, the FIR history stays (R118). -/
def Body.applyCoefs (b : Body) (f : Nat) : Body :=
  let x := b.flx f
  let x := { x with
    gain := (List.range 4).map (fun k => sval 18 (b.rfld (IIR_GAIN f k) 0 18))
    beta := (List.range 4).map (fun k => b.rnat (IIR_BETA f k))
    taps := (List.range 32).map (fun m => sval 18 (b.rfld (FIR_TAP f m) 0 18))
    iir := x.ins.map (· * 2 ^ 23) }
  (b.setFlx f x).rsetBit (FLX_STATUS f) 3 false

/-- Coefficients wait at these flux ports. -/
def Body.coefPorts (b : Body) : List Nat := (List.range 32).filter (fun f => b.rbit (FLX_STATUS f) 3)

/-- At a Slack commit point every committed set of coefficients applies (R118). -/
def Body.coefsCommit (b : Body) : Body := b.coefPorts.foldl (fun b f => b.applyCoefs f) b

/-- A write of PORT_CTL of a flux port (R118, R120, R121). -/
def Body.writeFlxCtl (b : Body) (c : Clock) (f : Nat) (v : Reg32) : Body :=
  if b.coreRefused (.fx f) (bit v 0) then b.reject (FLX_STATUS f)
  else
    let b := if bit v 8 then b.clearPortCounts (FLX_CTL f) else b
    let b := b.coreBit c (.fx f) (bit v 0)
    if bit v 9 then b.rsetBit (FLX_STATUS f) 3 true else b

/-- COEF_COMMIT: a write of PORT_CTL with COEF_COMMIT (R118). -/
def execCoefCommit (f : Fin 32) (v : Reg32) (s : State) : Host.Outcome State Fault Refusal :=
  nextBody (fun c b => b.writeFlxCtl c f v) s

/-- A write of LEVEL while the port is idle (R111, R121). -/
def Body.writeLevel (b : Body) (c : Clock) (f : Nat) (v : Reg32) : Body :=
  let n := v &&& 0x3FFFF
  if ! b.portIdle c (80 + f) then (if n = b.rget (FLX_LEVEL f) then b else b.reject (FLX_STATUS f))
  else
    let b := b.setFlx f ((b.flx f).setFrom 0 (sval 18 n.toNat))
    b.syncLevel f

end Sys2Proof.Machine
end

