-- ==== Sys2Proof/Machine/Store.lean ====
section
/-! DEFINITION. The Fuse Store: words, CRC-32, key slots, calibration areas (R253, R368 to R372). -/

namespace Sys2Proof.Machine

/-- A 64-bit fuse word by word address; an unwritten word reads zero (R368). -/
def Mem.fuseWord (m : Mem) (w : Nat) : BitVec 64 := m.fuse.get 0 w

/-- A fuse bit can go from 0 to 1 only (R368). -/
def Mem.blow (m : Mem) (w : Nat) (v : BitVec 64) : Mem := { m with fuse := m.fuse.put 0 w (m.fuseWord w ||| v) }

/-- The bytes of fuse words, each word little-endian: `n` words from word `w`. -/
def Mem.fuseBytes (m : Mem) (w n : Nat) : List Byte := ((List.range n).map (fun i => leBytes 8 (m.fuseWord (w + i)).toNat)).flatten

/-! ### Key slots (R253, R369) -/

/-- First word of a key slot: 0 to 2 Vilgon, 3 the customer's (R368). -/
def slotWord (k : Nat) : Nat := 0x20 + 8 * k

/-- The hash of a slot as bytes: words 0 to 5, big-endian. -/
def Mem.slotHash (m : Mem) (k : Nat) : List Byte :=
  ((List.range 6).map (fun i => (leBytes 8 (m.fuseWord (slotWord k + i)).toNat).reverse)).flatten

/-- REVOKE is set. -/
def Mem.slotRevoked (m : Mem) (k : Nat) : Bool := m.fuseWord (slotWord k + 7) != 0
/-- The slot's CRC matches and it is not revoked. -/
def Mem.slotValid (m : Mem) (k : Nat) : Bool :=
  m.fuseWord (slotWord k + 6) == (crc32 (m.slotHash k)).setWidth 64 && ! m.slotRevoked k
/-- Every word of the slot is zero. -/
def Mem.slotBlank (m : Mem) (k : Nat) : Bool := (List.range 8).all (fun i => m.fuseWord (slotWord k + i) == 0)

/-- A digest as bytes, the most significant first. -/
def digestBytes (d : BitVec 384) : List Byte := (leBytes 48 d.toNat).reverse

/-- The key matches a valid slot of its class: KEY_SEL 0 a Vilgon slot, 1 the customer's (R253). -/
def Mem.keyOk (m : Mem) (customer : Bool) (key : List Byte) : Bool :=
  (if customer then [3] else [0, 1, 2]).any (fun k => m.slotValid k && m.slotHash k == digestBytes (Config.sha384 key))

/-! ### Bytes of images -/

/-- Little-endian field of `n` bytes at offset `o`. -/
def imgFld (l : List Byte) (o n : Nat) : Nat := ofBytes ((l.drop o).take n)

/-- A range of bytes is zero. -/
def imgZero (l : List Byte) (o n : Nat) : Bool := ((l.drop o).take n).all (· == 0)

/-- The key field of an image is laid out as R251 gives. -/
def imgKeyForm (l : List Byte) : Bool := imgFld l 0x40 1 == 4 && imgZero l 0xA1 31

/-- The 97 key bytes. -/
def imgKey (l : List Byte) : List Byte := (l.drop 0x40).take 97

/-- The signature of an image with `body` bytes of body is valid (R253). -/
def imgSigned (l : List Byte) (body : Nat) : Bool :=
  Config.ecdsaOk (imgKey l) (Config.sha384 (l.take (0xC0 + body))) ((l.drop (0xC0 + body)).take 96)

/-! ### Calibration areas (R371, R372) -/

/-- First word and size in bytes of an area: generation `g` below 16, else the factory area. -/
def areaWord (g : Nat) : Nat := if g < 16 then 0x400 + 0x100 * g else 0x40
def areaSize (g : Nat) : Nat := if g < 16 then 2048 else 7680

/-- The commit marker. -/
def commitMarker : BitVec 64 := 0xA55AC33C0FF09669

/-- The bytes of an area. -/
def Mem.area (m : Mem) (g : Nat) : List Byte := m.fuseBytes (areaWord g) (areaSize g / 8)

/-- An area counts: marker and CRC-32 (R372). -/
def Mem.areaCounts (m : Mem) (g : Nat) : Bool :=
  m.fuseWord (areaWord g + areaSize g / 8 - 1) == commitMarker &&
  imgFld (m.area g) (areaSize g - 16) 4 == (crc32 ((m.area g).take (areaSize g - 16))).toNat

/-- Every word of a generation slot is zero. -/
def Mem.areaBlank (m : Mem) (g : Nat) : Bool := (List.range 256).all (fun i => m.fuseWord (areaWord g + i) == 0)

/-- State of a generation: 0 blank, 1 valid, 2 spoiled (R372). -/
def Mem.genState (m : Mem) (g : Nat) : Nat := if m.areaBlank g then 0 else if m.areaCounts g then 1 else 2

/-- FUSE_GEN_STATE (R377). -/
def Mem.genStates (m : Mem) : Nat := ((List.range 16).map (fun g => m.genState g * 4 ^ g)).sum

/-- FUSE_KEYS (R377). -/
def Mem.keyStates (m : Mem) : Nat :=
  ((List.range 3).map (fun k => (if m.slotValid k then 2 ^ k else 0) + (if m.slotRevoked k then 2 ^ (3 + k) else 0))).sum +
  (if m.slotValid 3 then 2 ^ 6 else 0) + (if m.slotRevoked 3 then 2 ^ 7 else 0)

/-- The valid generation with the highest number. -/
def Mem.lastGen (m : Mem) : Option Nat := (List.range 16).reverse.find? (fun g => m.genState g == 1)

/-- The lowest blank generation. -/
def Mem.blankGen (m : Mem) : Option Nat := (List.range 16).find? (fun g => m.areaBlank g)

/-- A record of a calibration area (R371): kind, class, index, data words. -/
structure CalRec where
  kind : Nat
  cls : Nat
  idx : Nat
  words : List Reg32
  deriving DecidableEq, Repr

/-- The records of an area's record bytes, `n` of them; none if one is malformed or bytes behind them are not zero (R371). -/
def calRecs : Nat → List Byte → Option (List CalRec)
  | 0, l => if l.all (· == 0) then some [] else none
  | n + 1, l =>
    let h := imgFld l 0 4
    let k := bitsAt h 17 7
    if bitsAt h 24 8 ≠ 0 ∨ k = 0 ∨ l.length < 4 + 4 * k then none
    else
      let r : CalRec := ⟨bitsAt h 0 8, bitsAt h 8 3, bitsAt h 11 6, (List.range k).map (fun i => r32 (imgFld l (4 + 4 * i) 4))⟩
      (calRecs n (l.drop (4 + 4 * k))).map (fun t => r :: t)

/-- The records of an area image of `size` bytes. -/
def areaRecs (l : List Byte) (size : Nat) : Option (List CalRec) := calRecs (imgFld l 6 2) ((l.drop 8).take (size - 24))

end Sys2Proof.Machine
end

