-- ==== Sys2Proof/Machine/Cal.lean ====
section
/-! DEFINITION. Calibration: kinds, requests, the queue, running calibrations, corrections (R356 to R367, R370). -/

namespace Sys2Proof.Machine

/-! ### Kinds (R356) -/

/-- Result words of a kind; none for a code outside the table. -/
def calWords (kind : Nat) : Option Nat :=
  match kind with
  | 0x01 => some 16
  | 0x02 => some 1
  | 0x10 => some 2
  | 0x11 => some 24
  | 0x20 => some 2
  | 0x21 => some 40
  | 0x30 => some 6
  | 0x40 => some 3
  | _ => none

/-- The kind applies to the class. -/
def calApplies (kind cls : Nat) : Bool :=
  match kind with
  | 0x01 | 0x02 => cls == 0 || cls == 1
  | 0x10 | 0x11 => cls == 2
  | 0x20 | 0x21 => cls == 3
  | 0x30 => cls == 4
  | 0x40 => cls == 5
  | _ => false

/-- Ports of a class, or tiles (R14, R287). -/
def calCount (cls : Nat) : Nat :=
  match cls with
  | 0 => 64
  | 3 => 32
  | 5 => 4
  | _ => 16

/-- PARAM keeps the rule of its kind. -/
def calParamOk (kind param : Nat) : Bool :=
  match kind with
  | 0x11 => param == 0 || (decide (16 ≤ param) && decide (param ≤ 24))
  | 0x30 => decide (param < 8)
  | _ => param == 0

/-- Key of a correction word. -/
def corrKey (kind cls idx w : Nat) : Nat := kind * 2 ^ 24 + cls * 2 ^ 16 + idx * 2 ^ 8 + w

/-- The nominal value of a correction word: unity gain, zero for any other (R370). -/
def corrNominal (k : Nat) : Reg32 :=
  let w := k % 256
  match k / 2 ^ 24 with
  | 0x10 | 0x20 => if w = 1 then 0x10000 else 0
  | 0x11 => if w % 3 = 1 then 0x10000 else 0
  | 0x30 => if w % 2 = 1 then 0x10000 else 0
  | _ => 0

/-- A correction word in effect (R361). -/
def Body.corr (b : Body) (kind cls idx w : Nat) : Reg32 :=
  b.cal.corr.get (corrNominal (corrKey kind cls idx w)) (corrKey kind cls idx w)

/-- A correction word takes effect. -/
def Body.setCorr (b : Body) (k : Nat) (v : Reg32) : Body :=
  { b with cal := { b.cal with corr := b.cal.corr.put (corrNominal k) k v } }

/-! ### Requests (R357) -/

def Desc.calReq (r : Nat) (d : Desc) : CalReq :=
  ⟨some (r, d.seq), d.fld 8 8, d.fld 9 8, d.fld 10 8, d.fld 12 32, bit d.raw 88, bit d.raw 89, d.fld 16 64, d.fld 24 32⟩

/-- Bytes of result, or of source for FLUX_COEF. -/
def CalReq.bytes (q : CalReq) : Nat := (if q.kind = 0x21 then 0 else 64) + 4 * (calWords q.kind).getD 0

/-- The first check of R357 that fails. -/
def Body.calStatus (b : Body) (q : CalReq) : Nat :=
  if 5 < q.cls then 4
  else if ! calApplies q.kind q.cls || ! calParamOk q.kind q.param || (q.noise && q.kind != 0x11) || (! q.apply && q.kind == 0x21) ||
      q.addr % 64 != 0 then 2
  else if calCount q.cls ≤ q.idx then 4
  else if q.addr ≠ 0 ∧ q.size < q.bytes then 3
  else if 64 ≤ b.cal.queue.length then 5
  else 0

/-- CALIBRATE: checked and queued (R357, R358). -/
def calQueue (r : Nat) (s : State) (d : Desc) : State :=
  let q := d.calReq r
  let st := s.body.calStatus q
  if st ≠ 0 then finish r d st 0 0 s
  else { s with body := { s.body with cal := { s.body.cal with queue := s.body.cal.queue ++ [q] } } }

/-- CALIBRATE (R357). -/
def execCalibrate (r : Fin 256) (seq : Reg32) (s : State) : Host.Outcome State Fault Refusal :=
  .next (startKind r seq.toNat (fun d => d.kind == 0xA) (calQueue r) s)

/-- A phase-drift request queues TILE_CLOCK for tile `k`, one at a time (R362, R363). -/
def Body.driftRequest (b : Body) (k : Nat) : Body :=
  let b := b.count DRIFT_COUNT 1
  if b.cal.queue.any (fun q => q.desc.isNone && q.idx == k) || decide (64 ≤ b.cal.queue.length) then b
  else
    let q : CalReq := ⟨none, 0x40, 5, k, 0, true, false, 0, 0⟩
    { b with cal := { b.cal with queue := b.cal.queue ++ [q] } }

/-! ### Starting (R358 to R360) -/

/-- The ports of tile `k` by class: 16 D, 4 P, 4 M, 8 F, 4 B (R15). -/
def tilePorts (k : Nat) : List (Nat × Nat) :=
  (List.range 16).map (fun i => (0, 16 * k + i)) ++ (List.range 4).map (fun i => (1, 4 * k + i)) ++
  (List.range 4).map (fun i => (2, 4 * k + i)) ++ (List.range 8).map (fun i => (3, 8 * k + i)) ++ (List.range 4).map (fun i => (4, 4 * k + i))

/-- The affected ports of a request (R358). -/
def CalReq.ports (q : CalReq) : List (Nat × Nat) :=
  if q.cls = 5 then tilePorts q.idx else (q.cls, q.idx) :: (if q.noise then [(1, q.idx)] else [])

/-- Tile of a request. -/
def CalReq.tile (q : CalReq) : Nat := tileOfClass q.cls q.idx

/-- A port of a class as output port or input, for its registers. -/
def portOf (cls i : Nat) : PortRef :=
  match cls with
  | 0 => .dp i
  | 1 => .dp (64 + i)
  | 3 => .fx i
  | _ => .rx i

/-- A port is idle by the rules of its block (R107, R121, R128, R157). -/
def Body.calIdle (b : Body) (c : Clock) (cls i : Nat) : Bool :=
  match cls with
  | 0 => b.portIdle c i
  | 1 => b.portIdle c (64 + i)
  | 2 => b.rcvIdle c i
  | 3 => b.portIdle c (80 + i)
  | _ => ! b.rbit (BIAS_STATUS i) 1

/-- A port is READY, or On for a bias output, and not forced (R359). -/
def Body.calReady (b : Body) (cls i : Nat) : Bool :=
  ! b.tileHeld (tileOfClass cls i) && (if cls = 4 then b.rbit (BIAS_STATUS i) 0 else b.rbit (portOf cls i).status 1)

/-- A request's ports are idle and no other calibration runs on its tile (R358); FLUX_COEF also waits for COEF_PENDING to clear
(R359). -/
def Body.calCanStart (b : Body) (c : Clock) (q : CalReq) : Bool :=
  q.ports.all (fun p => b.calIdle c p.1 p.2) && ! b.cal.runs.any (fun r => r.tile == q.tile) &&
  ! (q.kind == 0x21 && b.rbit (FLX_STATUS q.idx) 3)

/-- Calibrations start at a Slack commit point, or while the grid is stopped (R358). -/
def Body.calTime (b : Body) (c : Clock) : Bool := ! b.gridRun || b.grid.lastCommit == some c.cyc

/-- Complete the descriptor of a request, if it still has one. -/
def Body.calComplete (b : Body) (c : Clock) (q : CalReq) (status d0 d1 : Nat) : Body :=
  match q.desc with
  | some (r, seq) =>
    match b.findDesc r seq with
    | some d => b.complete c r d status d0 d1
    | none => b
  | none => b

/-- An affected port while a calibration runs: READY reads 0, CAL_BUSY or HOLD is set (R360). -/
def Body.calEnter (b : Body) (p : Nat × Nat) : Body :=
  match p.1 with
  | 2 => b.rsetBit (RCV_STATUS p.2) 3 true
  | 4 => b.rsetBit (BIAS_STATUS p.2) 2 true
  | cls => b.rsetBit (portOf cls p.2).status 1 false

/-- An affected port once no calibration runs on it: writes staged on a bias output apply while the grid is stopped (R360). -/
def Body.calLeave (b : Body) (c : Clock) (p : Nat × Nat) : Body :=
  match p.1 with
  | 2 => b.rsetBit (RCV_STATUS p.2) 3 false
  | 4 =>
    let b := b.rsetBit (BIAS_STATUS p.2) 2 (b.biasOf p.2).holdUntil.isSome
    if ! b.gridRun && b.rbit (BIAS_STATUS p.2) 5 then b.biasApply p.2 else b
  | cls => b.coreReady c (portOf cls p.2)

/-- The words FLUX_COEF stages, in their registers' formats (R116, R117, R356). -/
def Body.stageCoefs (b : Body) (f : Nat) (ws : List Reg32) : Body :=
  let b := (List.range 4).foldl (fun b k =>
    (b.rset (IIR_GAIN f k) (ws.getD (2 * k) 0 &&& 0x3FFFF)).rset (IIR_BETA f k) (ws.getD (2 * k + 1) 0)) b
  (List.range 32).foldl (fun b m => b.rset (FIR_TAP f m) (ws.getD (8 + m) 0 &&& 0x3FFFF)) b

/-- 32-bit words of lines. -/
def lineDwords (ls : List (BitVec 512)) : List Reg32 := (ls.map (fun l => (List.range 16).map (fun k => r32 (fld l (32 * k) 32)))).flatten

/-- Read `n` lines of host memory, or the status of the first that fails. -/
def hostLinesIn : Nat → Nat → List (Option (BitVec 512)) → State → Except Nat (List (BitVec 512)) × State
  | 0, _, _, s => (.ok [], s)
  | n + 1, a, src, s =>
    let r := srcLine s false a (src.headD none)
    match r.1 with
    | .error st => (.error st, r.2)
    | .ok l =>
      let q := hostLinesIn n (a + 64) (src.drop 1) r.2
      (match q.1 with
        | .ok t => .ok (l :: t)
        | .error st => .error st, q.2)

/-- A run begins: its descriptor can no longer be dropped from the queue (R264, R279). -/
def Body.calRun (b : Body) (c : Clock) (q : CalReq) : Body :=
  let x : CalRun := ⟨q, q.tile, c.cyc, c.now⟩
  let b := { b with cal := { b.cal with runs := b.cal.runs ++ [x] } }
  let b := match q.desc with
    | some (r, seq) =>
      match b.findDesc r seq with
      | some d => b.setDesc r { d with aux := 1 }
      | none => b
    | none => b
  if q.kind = 0x21 then b else q.ports.foldl (fun b p => b.calEnter p) b

/-- The request leaves the queue and runs, or ends at once (R359). -/
def calBegin (q : CalReq) (src : List (Option (BitVec 512))) (s : State) : State :=
  if q.kind = 0x21 then
    let r := hostLinesIn 3 q.addr src s
    match r.1 with
    | .error st => { r.2 with body := r.2.body.calComplete s.clock q st 0 0 }
    | .ok ls => { r.2 with body := ((r.2.body.stageCoefs q.idx (lineDwords ls)).rsetBit (FLX_STATUS q.idx) 3 true).calRun s.clock q }
  else if q.ports.all (fun p => s.body.calReady p.1 p.2) then { s with body := s.body.calRun s.clock q }
  else { s with body := s.body.calComplete s.clock q 5 0 0 }

/-- CAL_START: the oldest queued request that can start does so; `src` is the source of FLUX_COEF (R358). -/
def execCalStart (src : List (Option (BitVec 512))) (s : State) : Host.Outcome State Fault Refusal :=
  match s.body.cal.queue.find? (fun q => s.body.calCanStart s.clock q) with
  | some q =>
    if s.body.calTime s.clock && s.body.rbit FLT_STATUS 5 then
      .next (calBegin q src { s with body := { s.body with cal := { s.body.cal with queue := s.body.cal.queue.erase q } } })
    else .next s
  | none => .next s

/-! ### Ending (R361 to R367) -/

/-- What a calibration measured: result words, whether Harbour clamped one, and of a statistics-based kind RMS, LINE, CREST and
whether 1 sample in 10,000 or more was over-range. -/
structure CalMeas where
  words : List Reg32
  limit : Bool
  rms : Nat
  line : Nat
  crest : Nat
  overFlag : Bool

/-- The failed-check mask (R364). -/
def CalMeas.mask (m : CalMeas) : Nat :=
  (if m.rms ≤ 4000 then 0 else 1) + (if m.line ≤ 2 ^ 14 then 0 else 2) + (if 384 ≤ m.crest ∧ m.crest ≤ 1536 ∧ ! m.overFlag then 0 else 4)

/-- The range of a result word, where its kind gives one (R356). -/
def calRange (kind w : Nat) : Option Int :=
  match kind with
  | 0x02 => some 512
  | 0x11 => if w % 3 = 2 then some 2000 else none
  | _ => none

/-- A result word clamped to its range (R361). -/
def calClamp (kind w : Nat) (v : Reg32) : Reg32 :=
  match calRange kind w with
  | some m => BitVec.ofInt 32 (clampI (-m) m v.toInt)
  | none => v

/-- The result words of a kind: as many as its table gives, clamped. -/
def CalMeas.result (m : CalMeas) (kind : Nat) : List Reg32 :=
  (List.range ((calWords kind).getD 0)).map (fun w => calClamp kind w (m.words.getD w 0))

/-- LIMIT: a word was clamped. -/
def CalMeas.limited (m : CalMeas) (kind : Nat) : Bool :=
  m.limit || (List.range ((calWords kind).getD 0)).any (fun w => calClamp kind w (m.words.getD w 0) != m.words.getD w 0)

/-- The words that become corrections: of BIAS_DC those of the ranges PARAM names. -/
def CalReq.applied (q : CalReq) (w : Nat) : Bool := q.kind != 0x30 || q.param == 0 || q.param.testBit (w / 2)

/-- The result in host memory (R366). -/
def calBytes (x : CalRun) (c : Clock) (m : CalMeas) (ok : Bool) : List Byte :=
  let q := x.req
  let ws := if ok then m.result q.kind else []
  let stat := q.kind == 0x11
  let f (v : Nat) : Nat := if stat then v else 0
  let flags := (if ok && m.limited q.kind then 1 else 0) + (if q.noise then 2 else 0) + (if q.apply then 4 else 0)
  leBytes 1 q.kind ++ leBytes 1 q.cls ++ leBytes 1 q.idx ++ leBytes 1 flags ++ leBytes 4 ws.length ++ leBytes 8 x.tt ++
  leBytes 4 (c.cyc - x.start) ++ leBytes 2 (f m.rms) ++ leBytes 2 (f m.line) ++ leBytes 2 (f m.crest) ++ leBytes 2 0 ++
  leBytes 4 (q.kind + q.cls * 2 ^ 8 + q.idx * 2 ^ 11 + ws.length * 2 ^ 17) ++ List.replicate 32 0 ++ (ws.map (fun w => leBytes 4 w.toNat)).flatten

/-- DETAIL1 of a CALIBRATE completion (R367). -/
def calDetail (kind : Nat) (m : CalMeas) : Nat :=
  if kind = 0x11 then m.rms % 2 ^ 16 + m.line % 2 ^ 16 * 2 ^ 16 + m.crest % 2 ^ 16 * 2 ^ 32 + m.mask * 2 ^ 48 else 0

/-- Corrections wait for a commit point, or take effect at once while the grid is stopped (R361). -/
def Body.calCommit (b : Body) : Body :=
  let b := b.cal.pend.foldl (fun b e => b.setCorr e.1 e.2) b
  { b with cal := { b.cal with pend := [] } }

/-- A calibration leaves the running ones, and its ports are as before. -/
def Body.calStop (b : Body) (c : Clock) (x : CalRun) : Body :=
  let b := { b with cal := { b.cal with runs := b.cal.runs.filter (· ≠ x) } }
  if x.req.kind = 0x21 then b else x.req.ports.foldl (fun b p => b.calLeave c p) b

/-- The result, then the completion (R361, R366, R367); the result only while the descriptor is in flight. -/
def Body.calReport (b : Body) (c : Clock) (x : CalRun) (m : CalMeas) (ok : Bool) : Body :=
  let q := x.req
  let status := if ok then 0 else 0x20
  let l := calBytes x c m ok
  if q.addr = 0 ∨ q.desc.isNone then b.calComplete c q status 0 (calDetail q.kind m)
  else if ! b.winOk q.addr l.length true then b.calComplete c q 6 0 (calDetail q.kind m)
  else (b.hostWrite q.addr l true).calComplete c q status l.length (calDetail q.kind m)

/-- A calibration ends (R361 to R364). -/
def Body.calEnd (b : Body) (c : Clock) (x : CalRun) (m : CalMeas) : Body :=
  let q := x.req
  if q.kind = 0x21 then
    if b.rbit (FLX_STATUS q.idx) 3 then b else ((b.calStop c x).count CAL_DONE_COUNT 1).calComplete c q 0 0 0
  else
    let ok := q.kind != 0x11 || m.mask == 0
    let b := (b.calStop c x).count (if ok then CAL_DONE_COUNT else CAL_FAIL_COUNT) 1
    let new := (m.result q.kind).zipIdx.filterMap (fun e => if q.applied e.2 then some (corrKey q.kind q.cls q.idx e.2, e.1) else none)
    let b := if ok && q.apply then { b with cal := { b.cal with pend := b.cal.pend ++ new } } else b
    let b := if b.gridRun then b else b.calCommit
    b.calReport c x m ok

/-- CAL_END: the calibration that runs on a tile ends with what it measured (R361); without Harbour none ends (R412). -/
def execCalEnd (k : Fin 4) (words : List Reg32) (limit : Bool) (rms : BitVec 16) (line : BitVec 16) (crest : BitVec 16) (overFlag : Bool) (s : State) : Host.Outcome State Fault Refusal :=
  nextBody (fun c b =>
    match b.cal.runs.find? (fun x => x.tile == k.val) with
    | some x => if b.rbit FLT_STATUS 5 then b.calEnd c x ⟨words, limit, rms.toNat, line.toNat, crest.toNat, overFlag⟩ else b
    | none => b) s

/-- A tile failure or a SAFE legacy channel that reaches an affected port abandons the calibration (R362). -/
def Body.calAbandon (b : Body) (c : Clock) : Body :=
  let hit (x : CalRun) : Bool := x.req.ports.any (fun p => b.rbit FLT_STATUS (16 + tileOfClass p.1 p.2) ||
    (p.1 != 2 && bit b.evt.safeTiles (tileOfClass p.1 p.2)))
  (b.cal.runs.filter hit).foldl (fun b x => (b.calStop c x).calComplete c x.req 5 0 0) b

/-! ### Corrections at boot (R370) -/

/-- A record of an area becomes a correction. -/
def Body.applyRec (b : Body) (r : CalRec) : Body :=
  if ! calApplies r.kind r.cls || decide (calCount r.cls ≤ r.idx) then b
  else if r.kind = 0x21 then (b.stageCoefs r.idx r.words).applyCoefs r.idx
  else (r.words.take ((calWords r.kind).getD 0)).zipIdx.foldl (fun b e => b.setCorr (corrKey r.kind r.cls r.idx e.2) e.1) b

/-- The records of an area take effect. -/
def Body.applyArea (b : Body) (m : Mem) (g : Nat) : Body := ((areaRecs (m.area g) (areaSize g)).getD []).foldl (fun b r => b.applyRec r) b

/-- Nominal values, then the factory area, then the latest valid generation; FUSE_ACTIVE and FACTORY_OK show it (R370). -/
def Body.calBoot (b : Body) (m : Mem) : Body :=
  let b := { b with cal := { b.cal with corr := .empty } }
  let ok := m.areaCounts 16
  let b := b.rsetBit FUSE_STATUS 2 ok
  let b := if ok then b.applyArea m 16 else b
  match m.lastGen with
  | some g => (b.applyArea m g).rset FUSE_ACTIVE (r32 g)
  | none => b.rset FUSE_ACTIVE 0x1F

/-- A write of CAL_SEL (R377). -/
def Body.writeCalSel (b : Body) (v : Reg32) : Body :=
  let kind := fld v 0 8
  let cls := fld v 8 3
  if calApplies kind cls && decide (fld v 11 6 < calCount cls) && decide (fld v 17 7 < (calWords kind).getD 0) then b.rset CAL_SEL (v &&& 0xFFFFFF)
  else b.reject FUSE_STATUS

/-- CAL_DATA: the correction word in effect for CAL_SEL (R377). -/
def Body.calData (b : Body) : Reg32 :=
  let v := b.rget CAL_SEL
  let i := fld v 11 6
  let w := fld v 17 7
  if fld v 0 8 = 0x21 then
    let x := b.flx i
    if 8 ≤ w then r32 (wrap 18 (x.taps.getD (w - 8) 0))
    else if w % 2 = 0 then r32 (wrap 18 (x.gain.getD (w / 2) 0))
    else r32 (x.beta.getD (w / 2) 0)
  else b.corr (fld v 0 8) (fld v 8 3) i w

/-- CAL_STATUS (R377). -/
def Body.calStatusReg (b : Body) : Nat :=
  b.cal.queue.length + ((List.range 4).map (fun k => (if b.cal.runs.any (fun x => x.tile == k) then 2 ^ (8 + k) else 0) +
    (if b.cal.queue.any (fun q => q.desc.isNone && q.idx == k) then 2 ^ (12 + k) else 0))).sum

end Sys2Proof.Machine
end

