-- ==== Sys2Proof/Machine/Receiver.lean ====
section
/-! DEFINITION. Read-out receivers: window commands, windows, integration, discrimination, publication and result packets
(R132 to R158). -/

namespace Sys2Proof.Machine

/-! ### Entry of a window command (R139, R142 to R144) -/

/-- A demodulator frequency lies in the band of the mode (R133). -/
def toneInBand (mode2 : Bool) (f : Nat) : Bool :=
  if mode2 then decide (415 * 2 ^ 48 ≤ f * 100) && decide (f * 100 ≤ 785 * 2 ^ 48)
  else decide (15 * 2 ^ 48 ≤ f * 100) && decide (f * 100 ≤ 385 * 2 ^ 48)

/-- The demodulators of a mask, ascending. -/
def maskList (n mask : Nat) : List Nat := (List.range n).filter (fun t => mask.testBit t)

/-- TONES of a window command. -/
def tonesOf (w1 : Word) : List Nat := maskList 16 (fld w1 12 16)
/-- Window length N of a MEASURE. -/
def winLen (w2 : Word) : Nat := fld w2 0 11 + 1
/-- First kernel weight of a MEASURE. -/
def winKoff (w2 : Word) : Nat := fld w2 11 11

/-- Check 1 of R142. -/
def Body.winCheck1 (b : Body) (n : Nat) (w1 w2 w3 : Word) : Bool :=
  let op := opOf w1
  b.anchored && (op == 1 || op == 4 || op == 5 || op == 6) && ! (tonesOf w1).isEmpty &&
  (if op = 1 then decide (winKoff w2 + winLen w2 ≤ 2048) && ! (bit w3 27 && fld w3 34 2 == 0)
   else (tonesOf w1).all (fun t => ! b.rbit (TONE_CFG n t) 0) &&
     (! (op == 4) || toneInBand (b.rbit (RCV_CTL n) 1) (toneF w2 w3).toNat))

/-- Horizons of a demodulator (R143). -/
def Receiver.horizon (r : Receiver) (t : Nat) : Horizon := r.hz.get ⟨0, 0⟩ t

/-- Check 3 of R142. -/
def Body.winCheck3 (b : Body) (n : Nat) (v : Int) (w1 : Word) : Bool :=
  let at_ := 16 * v + fld w1 28 4
  (tonesOf w1).all (fun t =>
    decide (((b.recv n).horizon t).cmd ≤ at_) && (! (opOf w1 == 1) || decide (((b.recv n).horizon t).fin ≤ at_)))

/-- The first check of R142 that fails, as its flag. -/
def Body.winFail (b : Body) (c : Clock) (n : Nat) (v : Int) (w1 w2 w3 : Word) : Option Nat :=
  if ! b.winCheck1 n w1 w2 w3 then some 1
  else if v < c.now + 40 then some 0
  else if ! b.winCheck3 n v w1 then some 2
  else none

/-- A window command is discarded (R142). -/
def Body.winDiscard (b : Body) (c : Clock) (n i : Nat) : Body :=
  let b := b.count (RCV_DISCARD_COUNT n) 1
  let b := if i = 0 then b.count (RCV_LATE_COUNT n) 1 else b
  b.rcvFlag c n i

/-- Commands held in a receiver queue (R144). -/
def Receiver.fill (r : Receiver) : Nat := r.queue.length + (r.wins.filter (·.entry)).length

/-- An accepted window command takes its entry and moves the horizons of its demodulators (R143). -/
def Body.winEnqueue (b : Body) (n : Nat) (v : Int) (w1 w2 w3 : Word) : Body :=
  let r := b.recv n
  let at_ := 16 * v + fld w1 28 4
  let hz := (tonesOf w1).foldl (fun (m : SMap Horizon) t =>
    m.put ⟨0, 0⟩ t ⟨at_, if opOf w1 = 1 then at_ + 32 * winLen w2 else (m.get ⟨0, 0⟩ t).fin⟩) r.hz
  (b.perf 0x30 n 1).setRecv n { r with queue := r.queue ++ [⟨v, fld w1 28 4, w1, w2, w3⟩], hz := hz }

/-- A window command enters the queue of M(n): it waits on a full queue (R144), is discarded with the flag of the first check
that fails (R142), or is accepted. -/
def Body.enterWindow (b : Body) (c : Clock) (n : Nat) (w0 w1 w2 w3 : Word) : Body :=
  if 64 ≤ (b.recv n).fill then b
  else
    let v := resolveTide c.now w0.toNat
    match b.winFail c n v w1 w2 w3 with
    | some i => b.winDiscard c n i
    | none => b.winEnqueue n v w1 w2 w3

/-- A window command is commanded to enter; one an engine has sent does so in its cycle only (R194, R225; log entry 57). -/
def Body.windowIn (b : Body) (c : Clock) (n : Nat) (w0 w1 w2 w3 : Word) : Body :=
  if b.sentOn n true w0 w1 w2 w3 then b else b.enterWindow c n w0 w1 w2 w3

/-- MEASURE entering the queue (R140, R142). -/
def execMeasure (n : Fin 16) (w0 : Word) (w1 : Word) (w2 : Word) (w3 : Word) (s : State) : Host.Outcome State Fault Refusal :=
  nextBody (fun c b => b.windowIn c n w0 w1 w2 w3) s
/-- SET_FREQ of a receiver entering the queue (R141, R142). -/
def execWindowSetFreq (n : Fin 16) (w0 : Word) (w1 : Word) (w2 : Word) (w3 : Word) (s : State) : Host.Outcome State Fault Refusal :=
  nextBody (fun c b => b.windowIn c n w0 w1 w2 w3) s
/-- SET_FRAME of a receiver entering the queue (R141, R142). -/
def execWindowSetFrame (n : Fin 16) (w0 : Word) (w1 : Word) (w2 : Word) (w3 : Word) (s : State) : Host.Outcome State Fault Refusal :=
  nextBody (fun c b => b.windowIn c n w0 w1 w2 w3) s
/-- SHIFT_FRAME of a receiver entering the queue (R141, R142). -/
def execWindowShiftFrame (n : Fin 16) (w0 : Word) (w1 : Word) (w2 : Word) (w3 : Word) (s : State) : Host.Outcome State Fault Refusal :=
  nextBody (fun c b => b.windowIn c n w0 w1 w2 w3) s
/-- A pulse or window command with a reserved opcode enters its queue, where check 1 discards it (R93, R142). -/
def execReservedCommand (window : Bool) (n : Fin 16) (w0 : Word) (w1 : Word) (w2 : Word) (w3 : Word) (s : State) : Host.Outcome State Fault Refusal :=
  nextBody (fun c b => if window then b.windowIn c n w0 w1 w2 w3 else b.pulseIn c n w0 w1 w2 w3) s

/-! ### Updates and opening (R135, R140, R141, R145) -/

/-- Sub-ns part of a window command with IN_TRIM added (R140). -/
def Body.winSub (b : Body) (n : Nat) (x : WinCmd) : Nat := x.k + b.rfld (IN_TRIM n) 0 8

/-- A command's pin sample lies in this cycle or before (R31, R140). -/
def Body.winDue (b : Body) (c : Clock) (n : Nat) (x : WinCmd) : Bool := b.fireDue c 8 x.v (b.winSub n x)

/-- A command's fire time, before IN_TRIM is added, is reached by a sample of this cycle (R31, R144). -/
def Body.winFired (b : Body) (c : Clock) (x : WinCmd) : Bool := b.fireDue c 8 x.v x.k

/-- The first pin sample of a command, counted from sample 0 of this cycle: its fire time and IN_TRIM, at most 255/16 ns away once the fire
time has come (R31, R140). -/
def Body.pinSample (b : Body) (c : Clock) (n : Nat) (x : WinCmd) : Nat :=
  ((List.range 160).find? (fun j => decide (fireTide 8 x.v (b.winSub n x) ≤ b.sampleTide c 8 j))).getD 0

/-! ### Samples (R132, R136 to R138) -/

/-- The code of a pin voltage in pV: nearest to the 2,048th part of the half-span of 0.40 V, the transitions midway, at the ends the end
code; a transition itself belongs to the code farther from zero, as it does at the two ends (R132, DEDUCED, log entry 56). -/
def adcCode (v : Int) : Int :=
  let mag (x : Nat) : Nat := (2 * x + 195312500) / 390625000
  if 0 ≤ v then min 2047 (mag v.natAbs) else max (-2048) (-(mag v.natAbs : Int))

/-- The code of ADC sample `k` of input `n` (R132). -/
def adc (n k : Nat) : Int := adcCode (Config.pinVolts n k)
/-- An over-range code (R132, R153, R156). -/
def overRange (x : Int) : Bool := x == -2048 || x == 2047

/-- A tap of the linear-phase decimation filter in units of 2⁻⁴⁸: 384 taps, the 24 cc of group delay on each side of the instant midway between
two samples, symmetric, of gain 1.0 at the demodulator frequency (R137, R138). -/
def filterTap (i : Nat) : Int :=
  let k := min i (383 - i)
  if k < 191 then Config.filterTap k else 2 ^ 47 - ((List.range 191).map Config.filterTap).sum

/-- The phase of a demodulator at ADC sample `k`, F·(c + j/8) + θ reduced to 18 bits (R33, R136). -/
def Nco.phase (e : Nco) (f th k : Nat) : Nat := wrap 18 (shrEven (f * (8 * e.ph + k - 8 * (e.from_ / 8)) + th * 2 ^ 33 : Nat) 33)

/-- ADC sample `k` of input `n` mixed by a demodulator, in units of 2⁻⁴¹; none where the core produced no sample (R134, R136). -/
def mixed (n : Nat) (l : List Nco) (k : Nat) : Option (Int × Int) :=
  match l.find? (fun e => decide (e.from_ ≤ k)) with
  | some e => e.tune.map (fun t => (adc n k * cosTab (e.phase t.1 t.2 k), -(adc n k * sinTab (e.phase t.1 t.2 k))))
  | none => none

/-- The decimated sample of demodulator `t` whose 16 pin samples begin at ADC sample `k`: the filtered stream at the instant midway between
its samples 7 and 8 (R137, R138). -/
def Receiver.decimated (r : Receiver) (n t k : Nat) : Word :=
  let l := r.nco.get [] t
  let xs := (List.range 384).map (fun i => if k + i < 184 then none else mixed n l (k + i - 184))
  if xs.all (·.isSome) then
    let sum (f : Int × Int → Int) : Int := ((xs.zipIdx).map (fun e => filterTap e.2 * f (e.1.getD (0, 0)))).sum
    let up := Config.filterUp n t k
    mkC (satS 18 (shrOpen (sum (·.1)) 72 (bit up 0))) (satS 18 (shrOpen (sum (·.2)) 72 (bit up 1)))
  else Config.filterIdle n t k

/-- F and θ of a demodulator at this cycle: its own registers, or those of the slot of the same number of P(n) with DEMOD_ROT added
(R136). -/
def Body.tuneOf (b : Body) (n t : Nat) : Nat × Nat :=
  if b.rbit (TONE_CFG n t) 0 then
    (b.slotF (64 + n) t, (b.rfld (SLOT_FRAME (64 + n) t) 0 18 + b.rfld (TONE_DEMOD_ROT n t) 0 18) % 2 ^ 18)
  else (b.freq (TONE_FREQ_LO n t) (TONE_FREQ_HI n t), b.rfld (TONE_FRAME n t) 0 18)

/-- An entry joins what a demodulator has mixed with; entries no open window and no capture unit can still reach leave: those 2²² cc older
than another old one (R136, log entry 56). -/
def keepNco (c : Clock) (e : Nco) (l : List Nco) : List Nco :=
  let old (x : Nco) : Bool := decide (x.from_ / 8 + 2 ^ 22 < c.cyc)
  e :: (l.filter (fun x => ! old x) ++ (l.filter old).take 1)

/-- What demodulator `t` mixes with in this cycle is noted where it differs from before: another F or θ, a Phase Count that has been set, a core
that starts or stops (R34, R134, R136). -/
def Body.ncoNote (b : Body) (c : Clock) (n t : Nat) (r : Receiver) : Receiver :=
  let l := r.nco.get [] t
  let tune := if b.rbit (RCV_STATUS n) 1 then some (b.tuneOf n t) else none
  let same := match l with
    | e :: _ => e.tune == tune && e.ph + (c.cyc - e.from_ / 8) == c.ph
    | [] => tune.isNone
  if same then r else { r with nco := r.nco.put [] t (keepNco c ⟨8 * c.cyc, c.ph, tune⟩ l) }

/-- Change F or θ of one demodulator (R139, R141). -/
def Body.toneUpdate (b : Body) (n : Nat) (x : WinCmd) (t : Nat) : Body :=
  match opOf x.w1 with
  | 4 => b.rsetPair (TONE_FREQ_LO n t) (TONE_FREQ_HI n t) (toneF x.w2 x.w3).toNat
  | 5 => b.rset (TONE_FRAME n t) (r32 (fld x.w3 0 18))
  | _ => b.rset (TONE_FRAME n t) (r32 ((b.rfld (TONE_FRAME n t) 0 18 + fld x.w3 0 18) % 2 ^ 18))

/-- An update applies to one demodulator from pin sample `j` of this cycle (R141). -/
def Body.updateTone (b : Body) (c : Clock) (n j : Nat) (x : WinCmd) (t : Nat) : Body :=
  if b.rbit (TONE_CFG n t) 0 then b
  else
    let b := b.toneUpdate n x t
    let r := b.recv n
    match r.nco.get [] t with
    | e :: l =>
      if e.tune.isSome then b.setRecv n { r with nco := r.nco.put [] t (keepNco c ⟨8 * c.cyc + j, c.ph, some (b.tuneOf n t)⟩ (e :: l)) }
      else b
    | [] => b

/-- DEMOD_UPDATE: every queued update retires at its fire time, and those whose pin sample has come apply, in queue order (R141,
R144). -/
def Body.demodUpdate (b : Body) (c : Clock) (n : Nat) : Body :=
  let r := b.recv n
  let out (x : WinCmd) : Bool := opOf x.w1 != 1 && b.winFired c x
  let all := r.upds ++ r.queue.filter out
  let b1 := b.setRecv n { r with queue := r.queue.filter (fun x => ! out x), upds := all.filter (fun x => ! b.winDue c n x) }
  (all.filter (fun x => b.winDue c n x)).foldl (fun b x =>
    (tonesOf x.w1).foldl (fun b t => b.updateTone c n (b.pinSample c n x) x t) b) b1

/-- DEMOD_UPDATE (R141). -/
def execDemodUpdate (n : Fin 16) (s : State) : Host.Outcome State Fault Refusal := nextBody (fun c b => b.demodUpdate c n) s

/-- Integer Tide Time of pin sample `i` counted from sample 0 of this cycle (R31, R32). -/
def Body.pinTide (b : Body) (c : Clock) (i : Nat) : Nat := (8 * c.tt.toNat + i * b.rnat TIDE_INC_ACT * 2 ^ 8) / 2 ^ 35

/-- A MEASURE opens its window, or is stale (R135, R140, R145, R152). -/
def Body.openWindow (b : Body) (c : Clock) (n : Nat) (x : WinCmd) : Body :=
  let j := b.pinSample c n x
  let last := j + 16 * winLen x.w2 - 1
  let slack := b.inSlack (b.pinTide c j)
  let ready := b.rbit (RCV_STATUS n) 1
  let w : Window := ⟨x, c.cyc + j / 8, j % 8, c.cyc + last / 8, b.pinTide c last, b.epoch,
    slack || ! ready || b.rbit (RCV_STATUS n) 3, ! slack && ready, ! slack, 0, [], 0, false⟩
  let r := b.recv n
  let b := b.setRecv n { r with wins := r.wins ++ [w] }
  if slack then (b.stick TIDE_STATUS 10).winDiscard c n 7
  else if ! ready then b.rcvFlag c n 6
  else b

/-- A queued MEASURE leaves the queue: its first pin sample lies in this cycle, or its fire time has come and that sample will fall in a Slack
window (R140, R145). -/
def Body.opensNow (b : Body) (c : Clock) (n : Nat) (x : WinCmd) : Bool :=
  opOf x.w1 == 1 && (b.winDue c n x || (b.winFired c x && b.inSlack (b.pinTide c (b.pinSample c n x))))

/-- WINDOW_OPEN: every queued MEASURE whose first pin sample lies in this cycle opens, and one that Slack discards leaves at its fire time, in
queue order (R140, R145). -/
def Body.windowOpen (b : Body) (c : Clock) (n : Nat) : Body :=
  let r := b.recv n
  let b1 := b.setRecv n { r with queue := r.queue.filter (fun x => ! b.opensNow c n x) }
  (r.queue.filter (fun x => b.opensNow c n x)).foldl (fun b x => b.openWindow c n x) b1

/-- WINDOW_OPEN (R140). -/
def execWindowOpen (n : Fin 16) (s : State) : Host.Outcome State Fault Refusal := nextBody (fun c b => b.windowOpen c n) s

/-- Samples of this cycle that carry an over-range code, while the core produces samples (R134, R156). -/
def Body.overs (b : Body) (c : Clock) (n : Nat) : List Nat :=
  if b.rbit (RCV_STATUS n) 1 then (List.range 8).filter (fun j => overRange (adc n (8 * c.cyc + j))) else []

/-- A window in one cycle: linked demodulators whose probe slot lies out of the band (R136), over-range codes inside it (R153), the Tide Time of
its last pin sample (R151). -/
def Body.markWindow (b : Body) (c : Clock) (n : Nat) (w : Window) : Window :=
  let out := (List.range 16).map (fun t =>
    if b.rbit (TONE_CFG n t) 0 && ! toneInBand (b.rbit (RCV_CTL n) 1) (b.slotF (64 + n) t) then 2 ^ t else 0)
  let last := w.samp + 16 * winLen w.cmd.w2 - 1
  let holds (j : Nat) : Bool := decide (8 * w.start + w.samp ≤ 8 * c.cyc + j) && decide (8 * c.cyc + j ≤ 8 * w.start + last)
  if w.start ≤ c.cyc ∧ c.cyc ≤ w.fin then
    { w with oob := w.oob ||| (out.sum &&& fld w.cmd.w1 12 16), ovr := w.ovr || (w.isOpen && (b.overs c n).any holds),
             finTide := if c.cyc = w.fin then b.pinTide c (last % 8) else w.finTide }
  else w

/-- A receiver in one cycle: what its demodulators mix with, its windows, ADC_OVR_COUNT with the flag of a window that holds a first over-range
code (R136, R156). -/
def Body.receiverTick (b : Body) (c : Clock) (n : Nat) : Body :=
  let r := (List.range 16).foldl (fun r t => b.ncoNote c n t r) (b.recv n)
  let wins := r.wins.map (fun w => b.markWindow c n w)
  let new := (List.zipWith (fun (x y : Window) => ! x.ovr && y.ovr) r.wins wins).any id
  let atEnd := ! (b.overs c n).isEmpty
  let b := b.setRecv n { r with wins := wins }
  let b := if atEnd then b.count (ADC_OVR_COUNT n) 1 else b
  if new then b.rcvFlag c n 3 else b

/-! ### Integration and discrimination (R147 to R149) -/

/-- Result of one demodulator of a window. -/
structure ToneResult where
  tone : Nat
  i : Int
  q : Int
  state : Nat
  conf : Nat
  bits : Nat
  deriving DecidableEq, Repr

/-- The weight the window reads for sample `m` of demodulator `t` (R146, R148, R406). -/
def weightOf (s : State) (n t m : Nat) (w : Window) : Word × State :=
  let key := 2048 * t + winKoff w.cmd.w2 + m
  match w.old.find? (fun e => e.1 = key) with
  | some e => (e.2, s)
  | none => readNoted s (kernAddr n key)

/-- Accumulate the products of weights and samples exactly, in units of 2⁻³⁴ (R147). -/
def accumulate (n t : Nat) (w : Window) : Nat → List Word → Int × Int × State → Int × Int × State
  | _, [], acc => acc
  | m, x :: xs, acc =>
    let r := weightOf acc.2.2 n t m w
    accumulate n t w (m + 1) xs
      (acc.1 + (cI r.1 * cI x - cQ r.1 * cQ x), acc.2.1 + (cI r.1 * cQ x + cQ r.1 * cI x), r.2)

/-- Linear discrimination (R149): state and confidence. -/
def Body.linear (b : Body) (n t : Nat) (i q : Int) : Nat × Nat :=
  let co (k : Nat) : Int := sval 18 (b.rfld k 0 18)
  let s0 := co (TONE_BND0_A n t) * i + co (TONE_BND0_B n t) * q - co (TONE_BND0_C n t) * 2 ^ 17
  let s1 := co (TONE_BND1_A n t) * i + co (TONE_BND1_B n t) * q - co (TONE_BND1_C n t) * 2 ^ 17
  let conf (d : Nat) : Nat := min 63 (d * 2 ^ b.rfld (TONE_CFG n t) 8 4 / 2 ^ 28)
  if s0 < 0 then (0, conf s0.natAbs)
  else if ! b.rbit (TONE_CFG n t) 2 then (1, conf s0.natAbs)
  else if s1 < 0 then (1, conf (min s0.natAbs s1.natAbs))
  else (2, conf (min s0.natAbs s1.natAbs))

/-- A map coordinate before clamping (R149). -/
def mapCoord (x org : Int) (shift : Nat) : Int := (x - org) * 2 ^ shift / 2 ^ 17

/-- Map discrimination (R149): state, confidence and OUTSIDE; an uncorrectable word gives state 3, confidence 0 (R406). -/
def mapRead (s : State) (n t : Nat) (i q : Int) : (Nat × Nat × Bool) × State :=
  let b := s.body
  let sh := b.rfld (TONE_MAP_CFG n t) 20 5
  let col := mapCoord i (sval 18 (b.rfld (TONE_MAP_ORG_I n t) 0 18)) sh
  let row := mapCoord q (sval 18 (b.rfld (TONE_MAP_ORG_Q n t) 0 18)) sh
  let cc := clampI 0 63 col
  let rr := clampI 0 63 row
  let idx := (rr * 64 + cc).toNat
  let a := sharedAddr n (b.rfld (TONE_MAP_CFG n t) 0 20 + idx / 4)
  let bad := decide (s.mem.errAt a = 2)
  let r := readNoted s a
  let e := fld r.1 (8 * (idx % 4)) 8
  ((if bad then 3 else e % 4, if bad then 0 else e / 4, cc != col || rr != row), r.2)

/-- The bits of a result that the window itself carries: ADC_OVR, OUT_OF_BAND, KERNEL_RACE (R153). -/
def Window.bits (w : Window) (t : Nat) : Nat :=
  (if w.ovr then 2 else 0) + (if w.oob.testBit t then 16 else 0) + (if w.race.testBit t then 32 else 0)

/-- Result of one demodulator from its decimated samples: held values when the window is stale (R152), else integrate and discriminate. -/
def toneResult (s : State) (n : Nat) (w : Window) (t : Nat) (xs : List Word) : ToneResult × State :=
  let b := s.body
  if w.stale then
    let o := b.rfld (TONE_LAST_OUT n t) 0 8
    (⟨t, sval 18 (b.rfld (TONE_LAST_I n t) 0 18), sval 18 (b.rfld (TONE_LAST_Q n t) 0 18), o % 4, o / 4, 1 + w.bits t⟩, s)
  else
    let acc := accumulate n t w 0 xs (0, 0, s)
    let sh := 17 + b.rfld (TONE_CFG n t) 4 4
    let i0 := shrEven acc.1 sh
    let q0 := shrEven acc.2.1 sh
    let i := satS 18 i0
    let q := satS 18 q0
    let psat := ovfS 18 i0 || ovfS 18 q0
    let d : (Nat × Nat × Bool) × State :=
      if b.rbit (TONE_CFG n t) 1 then mapRead acc.2.2 n t i q
      else (((b.linear n t i q).1, (b.linear n t i q).2, false), acc.2.2)
    let bits := w.bits t + (if psat then 4 else 0) + (if d.1.2.2 then 8 else 0)
    let b := d.2.body
    let b := (b.rset (TONE_LAST_I n t) (r32 (wrap 18 i))).rset (TONE_LAST_Q n t) (r32 (wrap 18 q))
    let b := b.rset (TONE_LAST_OUT n t) (r32 (d.1.2.1 * 4 + d.1.1))
    (⟨t, i, q, d.1.1, d.1.2.1, bits⟩, { d.2 with body := b })

/-- The decimated samples of demodulator `t` of a window (R138). -/
def Receiver.samples (r : Receiver) (n : Nat) (w : Window) (t : Nat) : List Word :=
  (List.range (winLen w.cmd.w2)).map (fun m => r.decimated n t (8 * w.start + w.samp + 16 * m))

/-- Results of every demodulator of a window, in ascending order. -/
def windowResults (n : Nat) (w : Window) : List Nat → State → List ToneResult × State
  | [], s => ([], s)
  | t :: ts, s =>
    let r := toneResult s n w t ((s.body.recv n).samples n w t)
    let rest := windowResults n w ts r.2
    (r.1 :: rest.1, rest.2)

/-! ### Publication (R151) -/

/-- A window that has closed, with its results. -/
structure Closed where
  win : Window
  res : List ToneResult
  deriving DecidableEq, Repr

/-- Does the window publish? Not when stale, nor from a failed tile (R151, R410). -/
def Body.publishes (b : Body) (n : Nat) (w : Window) : Bool :=
  bit w.cmd.w3 29 && ! w.stale && ! b.rbit FLT_STATUS (16 + n / 4)

/-- Slot a demodulator publishes to. -/
def Body.toneSlot (b : Body) (n t : Nat) : Nat := b.rfld (TONE_CFG n t) 12 10

/-- Another demodulator of this input, of higher number, publishes the same slot in this cycle (R151). -/
def Body.clashed (b : Body) (n : Nat) (all : List Closed) (t : Nat) : Bool :=
  all.any (fun x => b.publishes n x.win &&
    x.res.any (fun r => decide (t < r.tone) && b.toneSlot n r.tone == b.toneSlot n t))

/-- Mark the results a clash keeps from publishing (R151). -/
def Body.markClash (b : Body) (n : Nat) (all : List Closed) (x : Closed) : Closed :=
  if b.publishes n x.win then
    { x with res := x.res.map (fun r => if b.clashed n all r.tone then { r with bits := r.bits + 64 } else r) }
  else x

/-- Publish one result (R151, R163). -/
def Body.publishTone (b : Body) (c : Clock) (n : Nat) (w : Window) (r : ToneResult) : Body :=
  if r.bits.testBit 6 then b.rcvFlag c n 10
  else
    let u : SlotUpd := ⟨b.toneSlot n r.tone, r.conf * 4 + r.state, w.epoch, w.finTide % 2 ^ 36, 1, n, r.tone, c.cyc⟩
    { b with fab := { b.fab with arrivals := b.fab.arrivals ++ [u] } }

/-- Publish the results of a window. -/
def Body.publishWindow (b : Body) (c : Clock) (n : Nat) (x : Closed) : Body :=
  if b.publishes n x.win then x.res.foldl (fun b r => b.publishTone c n x.win r) b else b

/-! ### Result packets (R153 to R155) -/

/-- The outcome word (R153). -/
def outcomeWord (w : Window) (r : ToneResult) : Word :=
  BitVec.ofNat 36 (r.tone * 2 ^ 32 + fld w.cmd.w1 0 12 * 2 ^ 20 + r.state * 2 ^ 18 + r.conf * 2 ^ 12 + r.bits)

/-- Words of a window's packet, each with its STALE mark (R153). -/
def packetWords (n : Nat) (x : Closed) : List (Word × Bool) :=
  let w := x.win
  let emit := fld w.cmd.w3 34 2
  let hdr := BitVec.ofNat 36 (w.epoch * 2 ^ 20 + n * 2 ^ 16 + fld w.cmd.w1 12 16)
  (if bit w.cmd.w3 27 then [(hdr, false)] else []) ++
  (x.res.map (fun r =>
    (if emit = 2 ∨ emit = 3 then [(mkC r.i r.q, w.stale)] else []) ++
    (if emit = 1 ∨ emit = 3 then [(outcomeWord w r, w.stale)] else []))).flatten

/-- Queue a packet whole, or discard it whole when the queue has too little room (R154). -/
def Body.queuePacket (b : Body) (c : Clock) (n fifo : Nat) (ws : List (Word × Bool)) : Body :=
  let r := b.recv n
  if r.resq.length + ws.length ≤ 256 then
    let words := ws.zipIdx.map (fun e =>
      (⟨fifo, e.1.1, e.1.2, decide (e.2 = 0), decide (e.2 + 1 = ws.length)⟩ : ResWord))
    b.setRecv n { r with resq := r.resq ++ words }
  else (b.count (RESULT_DROP_COUNT n) 1).rcvFlag c n 9

/-- An empty averaging bank. -/
def AvgBank.empty : AvgBank := ⟨0, 0, [0, 0, 0, 0], 0, 0⟩

/-- Words of an average packet (R155). -/
def AvgBank.packet (k : AvgBank) (t n epoch : Nat) : List (Word × Bool) :=
  let cnt (i : Nat) : Nat := (k.n[i]?).getD 0
  [(BitVec.ofNat 36 (t * 2 ^ 32 + n * 2 ^ 28 + epoch * 2 ^ 12 + k.tag), false),
   (BitVec.ofNat 36 (wrap 36 k.sumI), false), (BitVec.ofNat 36 (wrap 36 k.sumQ), false),
   (BitVec.ofNat 36 (cnt 0 * 2 ^ 18 + cnt 1), false), (BitVec.ofNat 36 (cnt 2 * 2 ^ 18 + cnt 3), false)]

/-- Add one result to its bank (R155). -/
def Body.average (b : Body) (n : Nat) (w : Window) (r : ToneResult) : Body :=
  let x := b.recv n
  let k := x.avg.get .empty r.tone
  let k : AvgBank := ⟨k.sumI + r.i, k.sumQ + r.q, k.n.modify r.state (· + 1), k.count + 1, fld w.cmd.w1 0 12⟩
  b.setRecv n { x with avg := x.avg.put .empty r.tone k }

/-- A bank that has reached AVG_N is queued and cleared (R155). -/
def Body.averageOut (b : Body) (c : Clock) (n t : Nat) : Body :=
  let x := b.recv n
  let k := x.avg.get .empty t
  if b.rfld (AVG_N n) 0 17 ≤ k.count then
    let b := b.setRecv n { x with avg := x.avg.put .empty t .empty }
    b.queuePacket c n (b.rfld (RCV_CTL n) 16 4) (k.packet t n b.epoch)
  else b

/-- Averages of the windows that close together: every result joins its bank, then full banks are queued in ascending demodulator order
(R155). -/
def Body.averages (b : Body) (c : Clock) (n : Nat) (all : List Closed) : Body :=
  let b := all.foldl (fun b x => if bit x.win.cmd.w3 28 && ! x.win.stale then x.res.foldl (fun b r => b.average n x.win r) b else b) b
  (List.range 16).foldl (fun b t => if (b.recv n).avg.entries.any (fun e => e.1 == t) then b.averageOut c n t else b) b

/-- Flags and packet of one closed window (R152 to R156). -/
def Body.finishWindow (b : Body) (c : Clock) (n : Nat) (x : Closed) : Body :=
  let has (i : Nat) := x.res.any (fun r => r.bits.testBit i)
  let b := if has 2 then b.rcvFlag c n 4 else b
  let b := if has 5 then b.rcvFlag c n 5 else b
  let b := if x.win.stale then b.rcvFlag c n 8 else b
  if fld x.win.cmd.w3 34 2 = 0 then b else b.queuePacket c n (fld x.win.cmd.w3 30 4) (packetWords n x)

/-- The windows of an input whose last pin sample lay in cycle `fin`: they close together (R150). -/
def Receiver.closing (r : Receiver) (fin : Nat) : List Window := r.wins.filter (fun w => decide (w.fin = fin))

/-- The demodulators of some windows, as a mask. -/
def tonesOfAll (ws : List Window) : BitVec 16 := ws.foldl (fun m w => m ||| BitVec.ofNat 16 (fld w.cmd.w1 12 16)) 0

/-- The results of windows that close together. -/
def closeAll (n : Nat) : List Window → State → List Closed × State
  | [], s => ([], s)
  | w :: ws, s =>
    let r := windowResults n w (tonesOf w.cmd.w1) s
    let rest := closeAll n ws r.2
    (⟨w, r.1⟩ :: rest.1, rest.2)

/-- The windows of the input that ended in cycle `fin` give their results together (R150 to R155). -/
def windowClose (s : State) (n fin : Nat) : State :=
  let r := s.body.recv n
  let b := s.body.setRecv n { r with wins := r.wins.filter (fun w => ! decide (w.fin = fin)) }
  let x := closeAll n (r.closing fin) { s with body := b }
  let all := x.1.map (fun y => x.2.body.markClash n x.1 y)
  let b := all.foldl (fun b y => b.publishWindow s.clock n y) x.2.body
  { x.2 with body := (all.foldl (fun b y => b.finishWindow s.clock n y) b).averages s.clock n all }

/-- WINDOW_CLOSE: 53 cc after the last pin sample the windows it names, all that ended in that cycle, give their results (R150). -/
def execWindowClose (n : Fin 16) (fin : Nat) (tones : BitVec 16) (s : State) : Host.Outcome State Fault Refusal :=
  let l := (s.body.recv n).closing fin
  .next (if s.clock.cyc < fin + 53 ∨ l.isEmpty ∨ tonesOfAll l ≠ tones then s else windowClose s n fin)

/-! ### Registers (R133, R155, R157, R158) -/

/-- Clear every averaging bank (R155). -/
def Body.clearBanks (b : Body) (n : Nat) : Body := b.setRecv n { b.recv n with avg := .empty }

/-- Counters of an input (R157). -/
def Body.clearRcvCounts (b : Body) (n : Nat) : Body :=
  [ADC_OVR_COUNT n, RCV_LATE_COUNT n, RCV_DISCARD_COUNT n, RESULT_DROP_COUNT n].foldl (fun b k => b.clearCount k) b

/-- A MODE change leaves every unlinked demodulator in its band (R133). -/
def Body.modeOk (b : Body) (n : Nat) (mode2 : Bool) : Bool :=
  (List.range 16).all (fun t => b.rbit (TONE_CFG n t) 0 || toneInBand mode2 (b.freq (TONE_FREQ_LO n t) (TONE_FREQ_HI n t)))

/-- A write of RCV_CTL, judged whole (R133, R134, R155, R157). -/
def Body.writeRcvCtl (b : Body) (c : Clock) (n : Nat) (v : Reg32) : Body :=
  if (! b.rcvIdle c n && slChanged (b.rget (RCV_CTL n)) v 0xF01FE) ||
      (bit v 1 != b.rbit (RCV_CTL n) 1 && ! b.modeOk n (bit v 1)) || b.coreRefused (.rx n) (bit v 0) then
    b.reject (RCV_STATUS n)
  else
    let b := b.rset (RCV_CTL n) (b.rget (RCV_CTL n) &&& 1 ||| v &&& 0xF01FE)
    let b := if bit v 9 then b.clearRcvCounts n else b
    let b := if bit v 10 then b.clearBanks n else b
    b.coreBit c (.rx n) (bit v 0)

/-- AVG_CLR: a write of RCV_CTL with AVG_CLR (R155). -/
def execAvgClr (n : Fin 16) (v : Reg32) (s : State) : Host.Outcome State Fault Refusal :=
  nextBody (fun c b => b.writeRcvCtl c n v) s

/-- A write of AVG_N; one of its present value counts as no write (R10, R155, R157). -/
def Body.writeAvgN (b : Body) (c : Clock) (n : Nat) (v : Reg32) : Body :=
  let x := v &&& 0x1FFFF
  if x = b.rget (AVG_N n) then b
  else if ! b.rcvIdle c n || decide (x = 0) || decide (65536 < x.toNat) then b.reject (RCV_STATUS n)
  else (b.rset (AVG_N n) x).clearBanks n

/-- AVG_N_WRITE (R155). -/
def execAvgNWrite (n : Fin 16) (v : Reg32) (s : State) : Host.Outcome State Fault Refusal :=
  nextBody (fun c b => b.writeAvgN c n v) s

/-- A write of TONEk_FREQ_HI (R133). -/
def Body.writeToneFreq (b : Body) (c : Clock) (n t : Nat) (v : Reg32) : Body :=
  if b.pairBusy (b.rcvIdle c n) (TONE_FREQ_LO n t) (TONE_FREQ_HI n t) 0xFFFFF v ||
      ! toneInBand (b.rbit (RCV_CTL n) 1) (b.pairNew (TONE_FREQ_LO n t) 0xFFFFF v) then
    (b.unstage (TONE_FREQ_LO n t)).reject (RCV_STATUS n)
  else b.commitPair (TONE_FREQ_LO n t) (TONE_FREQ_HI n t) (v &&& 0xFFFFF)

/-- A write of TONEk_CFG (R157, R158). -/
def Body.writeToneCfg (b : Body) (c : Clock) (n t : Nat) (v : Reg32) : Body :=
  let m : Reg32 := 0x003FFFF7
  if (! b.rcvIdle c n && slChanged (b.rget (TONE_CFG n t)) v m) || decide (11 < fld v 4 4) || decide (10 < fld v 8 4) ||
      (b.rbit (TONE_CFG n t) 0 && ! bit v 0 &&
        ! toneInBand (b.rbit (RCV_CTL n) 1) (b.freq (TONE_FREQ_LO n t) (TONE_FREQ_HI n t))) then
    b.reject (RCV_STATUS n)
  else b.rset (TONE_CFG n t) (v &&& m)

/-- A write of TONEk_MAP_CFG (R157). -/
def Body.writeMapCfg (b : Body) (c : Clock) (n t : Nat) (v : Reg32) : Body :=
  let m : Reg32 := 0x01FFFFFF
  if (! b.rcvIdle c n && slChanged (b.rget (TONE_MAP_CFG n t)) v m) || decide (1047552 < fld v 0 20) ||
      decide (fld v 20 5 < 5) || decide (17 < fld v 20 5) then b.reject (RCV_STATUS n)
  else b.rset (TONE_MAP_CFG n t) (v &&& m)

/-! ### The enable of a core (R104, R120, R134) -/

/-- CORE_EN: a write of the control register of a port with a core (R104, R120, R134). -/
def execCoreEn (p : PortRef) (v : Reg32) (s : State) : Host.Outcome State Fault Refusal :=
  nextBody (fun c b =>
    if ! p.ok then b
    else
    match p with
    | .dp q => b.writePortCtl c q v
    | .fx f => b.writeFlxCtl c f v
    | .rx n => b.writeRcvCtl c n v) s

/-- CORE_READY (R104). -/
def execCoreReady (p : PortRef) (s : State) : Host.Outcome State Fault Refusal := nextBody (fun c b => if p.ok then b.coreReady c p else b) s

end Sys2Proof.Machine
end

