-- ==== Sys2Proof/Machine/EngIo.lean ====
section
/-! DEFINITION. What Yosum instructions do beyond the engine: timed issue, decisions, events, results, branches, the end of a
program (R214, R223 to R236). -/

namespace Sys2Proof.Machine

/-! ### Timed issue (R223 to R226) -/

/-- Commands of a cove on their way to a queue. -/
def Body.onTheWay (b : Body) (n : Nat) (window : Bool) : List Issue := b.issue.filter (fun i => i.cove == n && i.window == window)

/-- The target queues have room, counting the commands on their way (R23, R225). -/
def Body.issueRoom (b : Body) (n : Nat) (window : Bool) (w1 : Word) : Bool :=
  if window then decide ((b.recv n).fill + (b.onTheWay n true).length < 64)
  else
    let slot := fld w1 24 4
    (b.targets n (fld w1 20 4)).all (fun q =>
      let way := (b.onTheWay n false).filter (fun i => (b.targets n (fld i.w1 20 4)).contains q)
      let same := way.filter (fun i => fld i.w1 24 4 == slot)
      decide ((b.comp q).queue.length + way.length < 256) &&
      (decide (80 ≤ q) || decide (((b.comp q).queue.filter (fun p => p.slot == slot)).length + same.length < 64)))

/-- Word 0 as sent (R224). -/
def relWord (s : State) (rel : Nat) (w : Word) : Word :=
  match rel with
  | 1 => BitVec.ofNat 36 s.body.grid.started + w
  | 2 => BitVec.ofNat 36 s.clock.now + w
  | _ => w

/-- The inputs a command takes: those of every port it names, or the receiver's (R195). -/
def Body.inputsOf (b : Body) (n : Nat) (window : Bool) (w1 : Word) : List Nat :=
  if window then [112 + n] else b.targets n (fld w1 20 4)

/-- No command holds an input of the command (R195). -/
def Body.inputsFree (b : Body) (c : Clock) (n : Nat) (window : Bool) (w1 : Word) : Bool :=
  (b.inputsOf n window w1).all (fun q => decide (b.held.get 0 q ≤ c.cyc))

/-- An engine of lower number stalls for one of these inputs with a command its queues have room for (R195). -/
def Body.aheadInLine (b : Body) (g : Nat) (window : Bool) (w1 : Word) : Bool :=
  (List.range (g % 12)).any (fun k =>
    let h := 12 * (g / 12) + k
    ! b.oddTwin h &&
    (match (b.eng h).stall with
      | some ⟨_, .input win x⟩ =>
        b.issueRoom (g / 12) win x && (b.inputsOf (g / 12) win x).any (fun q => (b.inputsOf (g / 12) window w1).contains q)
      | _ => false))

/-- The cove takes the command of engine `g` in this cycle: its queues have room, its inputs are free, and no engine of lower number waits for
one of them (R195, R225). -/
def Body.mayTake (b : Body) (c : Clock) (g : Nat) (window : Bool) (w1 : Word) : Bool :=
  b.issueRoom (g / 12) window w1 && b.inputsFree c (g / 12) window w1 && ! b.aheadInLine g window w1

/-- Issue a command of four words: it holds its inputs for 4 cc and enters its queue 9 cc later, 10 cc in Guarded mode (R195, R225). -/
def sendCommand (g : Nat) (window : Bool) (rel : Nat) (w0 w1 w2 w3 : Word) (s : State) : State :=
  let n := g / 12
  let i : Issue := ⟨n, g, window, relWord s rel w0, w1, w2, w3, s.clock.cyc + (if s.body.guarded n then 10 else 9)⟩
  let held := (s.body.inputsOf n window w1).foldl (fun h q => h.put 0 q (s.clock.cyc + 4)) s.body.held
  { s with body := { s.body with issue := s.body.issue ++ [i], held := held } }

/-- What an instruction sends, if the cove takes it; else the instruction stalls before its first word, with no effect (R225). -/
def issueWords (g : Nat) (window : Bool) (rel : Nat) (ws : List Word) (fin : Engine → Engine) (s : State) : Act :=
  let w (i : Nat) : Word := (ws[i]?).getD 0
  if s.body.mayTake s.clock g window (w 1) then regAct g fin (sendCommand g window rel (w 0) (w 1) (w 2) (w 3) s)
  else (stallAt g (.input window (w 1)) (! s.body.issueRoom (g / 12) window (w 1)) s, none)

/-- A command whose cycle has come enters its queues; one that finds them full waits (R225). -/
def Body.enterIssue (b : Body) (c : Clock) (i : Issue) : Body :=
  if i.window then
    (if (b.recv i.cove).fill < 64 then ({ b with issue := b.issue.erase i } : Body).enterWindow c i.cove i.w0 i.w1 i.w2 i.w3 else b)
  else if (b.targets i.cove (fld i.w1 20 4)).all (fun q => b.queueRoom q (fld i.w1 24 4)) then
    ({ b with issue := b.issue.erase i } : Body).enterPulse c i.cove i.w0 i.w1 i.w2 i.w3
  else b

/-- Commands in the order in which the cove took them, by engine in one cycle (R195). -/
def insertIssue (i : Issue) : List Issue → List Issue
  | [] => [i]
  | x :: t => if i.due < x.due ∨ (i.due = x.due ∧ i.eng < x.eng) then i :: x :: t else x :: insertIssue i t

/-- The commands of engines enter their queues in their cycle (R194, R225). -/
def Body.issuesDue (b : Body) (c : Clock) : Body :=
  ((b.issue.filter (fun i => decide (i.due ≤ c.cyc))).foldl (fun l i => insertIssue i l) []).foldl (fun b i => b.enterIssue c i) b

/-- PISSUE and WISSUE: the group rd to rd + 3; REL 3 is cause 0x11, another base cause 0x12 (R223, R224). -/
def issueAct (g : Nat) (f : BitVec 28) (window : Bool) (s : State) : Act :=
  let x := s.eng g
  let r := fRd f
  if fRel f = 3 then (s, some 0x11)
  else if r % 4 ≠ 0 ∨ r = 0 then (s, some 0x12)
  else issueWords g window (fRel f) [x.reg r, x.reg (r + 1), x.reg (r + 2), x.reg (r + 3)] id s

/-- PISSUE (R223). -/
def execPissue (e : Fin 192) (f : BitVec 28) (s : State) : Host.Outcome State Fault Refusal :=
  .next (instr e 0x70 (issueAct e f false) s)

/-- WISSUE (R223). -/
def execWissue (e : Fin 192) (f : BitVec 28) (s : State) : Host.Outcome State Fault Refusal :=
  .next (instr e 0x71 (issueAct e f true) s)

/-- PISSUEM and WISSUEM: four words through An (R223). -/
def issueMemAct (g : Nat) (f : BitVec 28) (window : Bool) (s : State) : Act :=
  let w := mWalk f 4 (s.eng g)
  if fRel f = 3 then (s, some 0x11)
  else if ! addrsOk s g w.1 then (s, some 1)
  else
    let r := readAll g w.1 s
    match r.2.2 with
    | some cause => (r.2.1, some cause)
    | none => issueWords g window (fRel f) r.1 (fun x => x.setAreg (fAn f) w.2) r.2.1

/-- PISSUEM (R223). -/
def execPissuem (e : Fin 192) (f : BitVec 28) (s : State) : Host.Outcome State Fault Refusal :=
  .next (instr e 0x72 (issueMemAct e f false) s)

/-- WISSUEM (R223). -/
def execWissuem (e : Fin 192) (f : BitVec 28) (s : State) : Host.Outcome State Fault Refusal :=
  .next (instr e 0x73 (issueMemAct e f true) s)

/-! ### Decisions (R227, R228) -/

/-- The engine lane of the cove takes a publication of engine `g` in this cycle: it has taken none, and no engine of lower number waits
for it (R161). -/
def Body.laneFree (b : Body) (c : Clock) (g : Nat) : Bool :=
  decide (b.fab.lane.get 0 (g / 12) ≤ c.cyc) &&
  (List.range (g % 12)).all (fun k =>
    let h := 12 * (g / 12) + k
    b.oddTwin h || (match (b.eng h).stall with
      | some ⟨_, .lane⟩ => false
      | _ => true))

/-- PUBLISH: ra[7:0] to local slot MOD[9:0]; it stalls while the lane is taken (R161, R227). -/
def publishAct (g : Nat) (f : BitVec 28) (s : State) : Act :=
  let v := fld ((s.eng g).reg (fRa f)) 0 8
  if s.body.laneFree s.clock g then
    regAct g id { s with body := s.body.publishSlot s.clock g (fld f 0 10) v (s.body.guarded (g / 12)) }
  else (stallAt g .lane false s, none)

/-- PUBLISH (R227). -/
def execPublish (e : Fin 192) (f : BitVec 28) (s : State) : Host.Outcome State Fault Refusal := .next (instr e 0x78 (publishAct e f) s)

/-- The value an AWAIT select names, once it is valid in the view of cove `n` (R168, R228). -/
def Body.selected (b : Body) (n sel : Nat) : Option Word :=
  if sel.testBit 17 then b.tableResult (bitsAt sel 10 3)
  else
    let x := b.seenSlot n (bitsAt sel 13 4) (bitsAt sel 3 10)
    if x.current b.epoch then some (BitVec.ofNat 36 x.value) else none

/-- A deadline register as a short tide resolved now; G0 for none (R228). -/
def deadlineOf (s : State) (w : Word) (none_ : Bool) : Option Int :=
  if none_ then none else some (resolveTide s.clock.now w.toNat)

/-- EV_INFO of an event taken at input `k` (R231). -/
def Body.evInfo (b : Body) (k : Nat) (e : TiEvent) : Word :=
  BitVec.ofNat 36 (e.ch % 64 + k * 2 ^ 6 + e.reason % 256 * 2 ^ 8 + b.epoch * 2 ^ 16)

/-- The order in which task inputs are served (R230, R232). -/
def inputOrder : List Nat := [3, 0, 1, 2]

/-- The first input of a mask with a pending event (R230). -/
def Body.firstInput (b : Body) (g mask : Nat) : Option (Nat × TiEvent) :=
  inputOrder.findSome? (fun k => if mask.testBit k then (b.tiPending (4 * g + k)).map (fun e => (k, e)) else none)

/-- What a waiting engine finds in this cycle: its value, an event it consumes, or, at the end of the cycle, its deadline
(R228, R230). -/
def Body.pollWait (b : Body) (c : Clock) (g : Nat) (final : Bool) : Body :=
  let x := b.eng g
  match x.wait with
  | none => b
  | some w =>
    if w.got.isSome || w.dead.isSome then b
    else
      let late := final && (match w.deadline with
        | some d => decide (d ≤ (c.now : Int))
        | none => false)
      let expire := if late then b.setEng g { x with wait := some { w with dead := some c.cyc } } else b
      if w.ev then
        match b.firstInput g w.sel with
        | some (k, e) =>
          (b.setEng g { x with wait := some { w with got := some (b.evInfo k e, c.cyc), lin := e.lin } }).tiTake (4 * g + k)
        | none => expire
      else
        match b.selected (g / 12) w.sel with
        | some v => b.setEng g { x with wait := some { w with got := some (v, c.cyc) } }
        | none => expire

/-- The engine waits (R228, R230, R198). -/
def startWait (g : Nat) (w : Wait) (s : State) : Act :=
  let b := (s.body.setEng g { s.eng g with wait := some w, resume := none, stall := none, fresh := false, cont := none }).setEngState g 3
  ({ s with body := b.pollWait s.clock g false }, none)

/-- A table select with non-zero [16:13] is an illegal field (R228). -/
def selOk (sel : Nat) : Bool := ! sel.testBit 17 || bitsAt sel 13 4 == 0

/-- AWAIT (R228). -/
def awaitAct (g : Nat) (f : BitVec 28) (s : State) : Act :=
  let x := s.eng g
  let sel := fld (x.reg (fRb f)) 0 18
  if ! selOk sel then (s, some 0x11)
  else startWait g ⟨false, f, 3, sel, deadlineOf s (x.reg (fRa f)) (fRa f == 0), none, 0, none, none⟩ s

/-- AWAIT (R228). -/
def execAwait (e : Fin 192) (f : BitVec 28) (s : State) : Host.Outcome State Fault Refusal := .next (instr e 0x79 (awaitAct e f) s)

/-! ### Events (R229 to R234) -/

/-- Go on after a read, or fault. -/
def readThen (r : Word × Act) (k : Word → State → Act) : Act :=
  match r.2.2 with
  | some cause => (r.2.1, some cause)
  | none => k r.1 r.2.1

/-- An event leaves on a channel with the lineage the engine holds: that of the event block while EV_CTL has IN_HANDLER or LIN_HELD, else an
empty one (R229); then `k`. -/
def signalThen (g ch : Nat) (k : State → Act) (s : State) : Act :=
  let send (lin : BitVec 64) (s : State) : Act := k { s with body := s.body.sendOut s.clock g (.signal ch lin) }
  readThen (readEv s g 0) (fun ctl s =>
    if bit ctl 4 || bit ctl 5 then
      readThen (readEv s g 8) (fun lo s =>
        readThen (readEv s g 9) (fun hi s => send (BitVec.ofNat 64 (fld lo 0 32 + fld hi 0 32 * 2 ^ 32)) s))
    else send 0 s)

/-- SIGNAL: an event on channel MOD[5:0], or ra[5:0], reaching the router 1 cc later, 2 cc in Guarded mode (R229, R204). -/
def signalAct (g : Nat) (f : BitVec 28) (s : State) : Act :=
  signalThen g (if bit f 6 then fld ((s.eng g).reg (fRa f)) 0 6 else fld f 0 6) (regAct g id) s

/-- SIGNAL (R229). -/
def execSignal (e : Fin 192) (f : BitVec 28) (s : State) : Host.Outcome State Fault Refusal := .next (instr e 0x7C (signalAct e f) s)

/-- WAITEV: a zero mask is cause 0x11 (R230). -/
def waitevAct (g : Nat) (f : BitVec 28) (s : State) : Act :=
  let x := s.eng g
  if fld f 0 4 = 0 then (s, some 0x11)
  else startWait g ⟨true, f, 3, fld f 0 4, deadlineOf s (x.reg (fRa f)) (fRa f == 0), none, 0, none, none⟩ s

/-- WAITEV (R230). -/
def execWaitev (e : Fin 192) (f : BitVec 28) (s : State) : Host.Outcome State Fault Refusal := .next (instr e 0x7D (waitevAct e f) s)

/-- Write the lineage of an event into the event block (R230, R232). -/
def State.setLineage (s : State) (g : Nat) (lin : BitVec 64) : State :=
  (s.setEvWord g 8 (BitVec.ofNat 36 (fld lin 0 32))).setEvWord g 9 (BitVec.ofNat 36 (fld lin 32 32))

/-- Inputs tested at this point: ENABLE, without those a WAITEV waits on (R230, R232). -/
def State.tested (s : State) (g : Nat) (ctl : Word) : Nat :=
  (List.range 4).foldl (fun m k =>
    let mine := match (s.eng g).wait with
      | some w => w.ev && w.sel.testBit k
      | none => false
    if bit ctl k && ! mine then m + 2 ^ k else m) 0

/-- The engine is at a point where it takes events: RUNNING with an instruction ended and no stall, or waiting with nothing arrived. A STOP or a
mismatch that is to act comes first (R232, R222, R198). -/
def State.atPoint (s : State) (g : Nat) : Bool :=
  let x := s.eng g
  ! s.body.oddTwin g && x.twin.isNone && ! x.stop &&
  ((s.body.engState g == 2 && x.stall.isNone && ! x.fresh) ||
   (s.body.engState g == 3 && (match x.wait with
     | some w => w.got.isNone && w.dead.isNone
     | none => false)))

/-- Take an event: the state is saved, IN_HANDLER set in EV_CTL, which held `ctl`, and the engine goes on at VECk (R232). -/
def enterEvent (s : State) (g k : Nat) (e : TiEvent) (ctl : Word) : State :=
  let x := s.eng g
  let info := s.body.evInfo k e
  let s : State := { s with body := s.body.tiTake (4 * g + k) }
  let save := x.pc.toNat + x.flags.toNat * 2 ^ 24 + (if x.resume.isSome then 2 ^ 30 else 0)
  let s := s.setEvWord g 5 (BitVec.ofNat 36 save)
  let s := s.setEvWord g 6 (BitVec.ofNat 36 (x.resume.getD 0))
  let s := ((s.setEvWord g 7 info).setLineage g e.lin).setEvWord g 0 (setBit ctl 4 true)
  let s : State := { s with body := (s.body.setEng g { x with wait := none, resume := none, cont := none }).setEngState g 2 }
  actEnd g (readThen (readEv s g (1 + k)) (fun v s =>
    let vec := fld v 0 24
    if inShared vec then (s.setEng g ((s.eng g).goto vec), none) else (s, some 1))) id

/-- EVENT_ENTRY: at an instruction end or safe point the first enabled input with an event is taken, unless a handler runs (R232). -/
def execEventEntry (e : Fin 192) (s : State) : Host.Outcome State Fault Refusal :=
  if s.atPoint e && (s.body.firstInput e 15).isSome then
    .next (actEnd e (readThen (readEv s e 0) (fun ctl s =>
      if bit ctl 4 then (s, none)
      else
        match s.body.firstInput e (s.tested e ctl) with
        | some (k, ev) => (enterEvent s e k ev ctl, none)
        | none => (s, none))) id)
  else .next s

/-- RETE: cause 0x14 outside a handler; else flags and PC from SAVE_PC, IN_HANDLER cleared, RESUME kept (R233, R234). -/
def reteAct (g : Nat) (s : State) : Act :=
  readThen (readEv s g 0) (fun ctl s =>
    if ! bit ctl 4 then (s, some 0x14)
    else
      readThen (readEv s g 5) (fun p s => readThen (readEv s g 6) (fun i s =>
        let s := s.setEvWord g 0 (setBit ctl 4 false)
        let x := (s.eng g).goto (fld p 0 24)
        (s.setEng g { x with flags := BitVec.ofNat 6 (fld p 24 6),
                             resume := if bit p 30 then some (fld i 0 17) else none }, none))))

/-- RETE (R233). -/
def execRete (e : Fin 192) (_f : BitVec 28) (s : State) : Host.Outcome State Fault Refusal := .next (instr e 0x7E (reteAct e) s)

/-! ### Results (R235) -/

/-- EMIT: ra to FIFO MOD[3:0]; without a grant it stalls with no effect (R235, R309, R310). -/
def emitAct (g : Nat) (f : BitVec 28) (s : State) : Act :=
  let n := g / 12
  if s.body.mayEmit s.clock n (fFifo f) (g % 12) then
    regAct g id { s with body := (s.body.noteTurn n (g % 12)).sendOut s.clock g (.emit (fFifo f) ((s.eng g).reg (fRa f))) }
  else (stallAt g (.fifo (fFifo f)) (! s.body.canTake n (fFifo f) (some (g % 12))) s, none)

/-- EMIT (R235). -/
def execEmit (e : Fin 192) (f : BitVec 28) (s : State) : Host.Outcome State Fault Refusal := .next (instr e 0x80 (emitAct e f) s)

/-- COMMIT and ABORT act behind the engine's own EMITs (R235, R309). -/
def resultAct (g : Nat) (k : OutKind) (s : State) : Act := regAct g id { s with body := s.body.sendOut s.clock g k }

/-- COMMIT (R235). -/
def execCommit (e : Fin 192) (f : BitVec 28) (s : State) : Host.Outcome State Fault Refusal :=
  .next (instr e 0x81 (resultAct e (.commit (fFifo f))) s)

/-- ABORT (R235). -/
def execAbort (e : Fin 192) (f : BitVec 28) (s : State) : Host.Outcome State Fault Refusal :=
  .next (instr e 0x82 (resultAct e (.abort (fFifo f))) s)

/-! ### Branches (R213, R214) -/

/-- Continue at a target, or fall through; a taken target outside cove shared memory is cause 0x01 at the branch (R214). -/
def branchTo (g : Nat) (taken : Bool) (target : Nat) (chg : Engine → Engine) (s : State) : Act :=
  let x := s.eng g
  if ! taken then (s.setEng g (chg x).advance, none)
  else if inShared target then (s.setEng g ((chg x).goto target), none)
  else (s, some 1)

/-- A conditional branch; a reserved condition is cause 0x11 (R213). -/
def condBranch (g : Nat) (cond target : Nat) (link : Engine → Engine) (s : State) : Act :=
  match condHolds (s.eng g).flags cond with
  | none => (s, some 0x11)
  | some t => branchTo g t target (if t then link else id) s

/-- BR (R214). -/
def execBr (e : Fin 192) (f : BitVec 28) (s : State) : Host.Outcome State Fault Refusal :=
  .next (instr e 0x90 (condBranch e (fCond f) (fTarget f) id) s)

/-- BRR: to ra[23:0] on condition MOD[3:0] (R210). -/
def execBrr (e : Fin 192) (f : BitVec 28) (s : State) : Host.Outcome State Fault Refusal :=
  .next (instr e 0x91 (fun s => condBranch e (fld f 0 4) (fld ((s.eng e).reg (fRa f)) 0 24) id s) s)

/-- G31 := PC + 1 (R210). -/
def linkReg (x : Engine) : Engine := x.setReg 31 ((x.pc + 1).setWidth 36)

/-- CALL (R210). -/
def execCall (e : Fin 192) (f : BitVec 28) (s : State) : Host.Outcome State Fault Refusal :=
  .next (instr e 0x92 (condBranch e (fCond f) (fTarget f) linkReg) s)

/-- RET: PC := G31[23:0] (R210). -/
def execRet (e : Fin 192) (_f : BitVec 28) (s : State) : Host.Outcome State Fault Refusal :=
  .next (instr e 0x93 (fun s => branchTo e true (fld ((s.eng e).reg 31) 0 24) id s) s)

/-- DBNZ: rd := rd − 1, then to PC + IMM if the result is not zero (R210). -/
def dbnzAct (g : Nat) (f : BitVec 28) (s : State) : Act :=
  let x := s.eng g
  let v := x.reg (fRd f) - 1
  branchTo g (v != 0) (x.pc + (fImm f).signExtend 24).toNat (fun x => x.setReg (fRd f) v) s

/-- DBNZ (R210). -/
def execDbnz (e : Fin 192) (f : BitVec 28) (s : State) : Host.Outcome State Fault Refusal := .next (instr e 0x94 (dbnzAct e f) s)

/-! ### The end of a program (R198, R199, R236) -/

/-- HALT: IN_HANDLER and LIN_HELD cleared, open packets rewound with HALT_OPEN; ARMED with REPEAT unless a STOP waits, else STOPPED
(R198, R199, R236). -/
def haltAct (g : Nat) (s : State) : Act :=
  readThen (readEv s g 0) (fun ctl s =>
    let s := s.setEvWord g 0 (setBit (setBit ctl 4 false) 5 false)
    let x := s.eng g
    let b := s.body.rewindAll s.clock g (some 0x83)
    let b := b.setEng g x.advance.quiet
    ({ s with body := b.setEngState g (if b.rbit (ENG_CTL g) 0 && ! x.stop then 1 else 0) }, none))

/-- HALT (R236): a STOP that reaches an engine executing it acts at its end (R198). -/
def execHalt (e : Fin 192) (_f : BitVec 28) (s : State) : Host.Outcome State Fault Refusal :=
  .next (if s.body.mayIssue e then instrNow e 0x01 (haltAct e) s else s)

/-- ILLEGAL_OP: cause 0x10 before any microword runs (R210, R244). -/
def execIllegalOp (e : Fin 192) (op : BitVec 8) (s : State) : Host.Outcome State Fault Refusal :=
  if s.body.runs e && ! s.body.opDefined (e.val / 12) op.toNat then
    .next (carryOut e (fun s => fetched s e op.toNat) (fun s => (s, some 0x10)) s)
  else .next s

end Sys2Proof.Machine
end

