-- ==== Sys2Proof/Machine/Scope.lean ====
section
/-! DEFINITION. The Acquisition Scope: sources and points, the capture budget, arming, lines, triggers, mask tests, records,
shedding (R339 to R355). -/

namespace Sys2Proof.Machine

/-! ### Sources (R339) -/

def Body.unit (b : Body) (u : Nat) : ScopeUnit := b.scope.get .reset u
def Body.setUnit (b : Body) (u : Nat) (x : ScopeUnit) : Body := { b with scope := b.scope.put .reset u x }
/-- STATE: 0 DISARMED, 1 FILLING, 2 WAITING, 3 POST, 4 DONE, 5 STOPPED. -/
def Body.uState (b : Body) (u : Nat) : Nat := b.rfld (U_STATUS u) 0 3
/-- A unit that is not DISARMED, DONE or STOPPED holds live pointers (R343, R355). -/
def Body.uLive (b : Body) (u : Nat) : Bool := decide (1 ≤ b.uState u) && decide (b.uState u ≤ 3)
def Body.uSrc (b : Body) (u : Nat) : Nat := b.rfld (U_CTL u) 0 3
def Body.uIdx (b : Body) (u : Nat) : Nat := b.rfld (U_CTL u) 3 6
def Body.uAvg (b : Body) (u : Nat) : Nat := b.rfld (U_CTL u) 13 4
def Body.uTrig (b : Body) (u : Nat) : Nat := b.rfld (U_CTL u) 17 2
/-- Lines of a record, R (R343). -/
def Body.uLines (b : Body) (u : Nat) : Nat := b.rfld (U_PRE u) 0 16 + b.rfld (U_POST u) 0 16
def Body.bufBase (b : Body) (u : Nat) : Nat := b.rpair (U_BUF_BASE_LO u) (U_BUF_BASE_HI u)
def Body.recBase (b : Body) (u : Nat) : Nat := b.rpair (U_REC_BASE_LO u) (U_REC_BASE_HI u)
def Body.maskBase (b : Body) (u : Nat) : Nat := b.rpair (U_MASK_BASE_LO u) (U_MASK_BASE_HI u)
def Body.maskOff (b : Body) (u : Nat) : Int := sval 24 (b.rfld (U_MASK_OFF u) 0 24)
def Body.maskPoints (b : Body) (u : Nat) : Nat := b.rfld (U_MASK_POINTS u) 0 17

/-- Points of a line (R339). -/
def linePoints (src a : Nat) : Nat :=
  match src with
  | 0 => if a = 0 then 42 else 28
  | 4 => 28
  | 5 => 7
  | _ => 14

/-- Ports or inputs a source kind counts (R339). -/
def srcCount (src : Nat) : Nat :=
  match src with
  | 2 => 64
  | 4 => 32
  | _ => 16

/-- Class of a source's port for calibration (R287, R341). -/
def srcClass (src : Nat) : Nat :=
  match src with
  | 2 => 0
  | 3 => 1
  | 4 => 3
  | 5 => 4
  | _ => 2

/-- Source samples that lie in a Phase Count cycle: index, the place of the sample in the cycle in eighths, and whether it begins there; a
decimated sample lies in two cycles (R339, R340). -/
def srcSamples (src ph : Nat) : List (Nat × Nat × Bool) :=
  match src with
  | 0 => (List.range 8).map (fun j => (8 * ph + j, j, true))
  | 1 => [(ph / 2, 0, decide (ph % 2 = 0))]
  | 4 => [(2 * ph, 0, true), (2 * ph + 1, 4, true)]
  | 5 => if ph % 1000000 = 0 then [(ph / 1000000, 0, true)] else []
  | _ => [(ph, 0, true)]

/-- Source samples that have begun by the end of a cycle. -/
def samplesTo (src ph : Nat) : Nat :=
  match src with
  | 0 => 8 * (ph + 1)
  | 1 => ph / 2 + 1
  | 4 => 2 * (ph + 1)
  | 5 => ph / 1000000 + 1
  | _ => ph + 1

/-- Source samples that are complete by the end of a cycle. -/
def samplesDone (src ph : Nat) : Nat := if src = 1 then (ph + 1) / 2 else samplesTo src ph

/-- Cycles from the chain input of a flux port to the code after predistortion, which a tap takes (R113, R339). -/
def tapDelay : Nat := 20

/-- The source produces samples: a READY core, an On bias output; a tap always does (R341). -/
def Body.srcOn (b : Body) (u : Nat) : Bool :=
  match b.uSrc u with
  | 0 | 1 => b.rbit (RCV_STATUS (b.uIdx u)) 1
  | 5 => b.rbit (BIAS_STATUS (b.uIdx u)) 0
  | _ => true

/-- The value of a tap's sample `j` in this cycle in Q1.17, zero while the core is not READY; SENSE_V and SENSE_I of a bias output (R339,
R341). -/
def Body.tapValue (b : Body) (c : Clock) (u j : Nat) : Int × Int :=
  let i := b.uIdx u
  match b.uSrc u with
  | 2 => let w := (b.comp i).base; if b.rbit (PORT_STATUS i) 1 then (cI w, cQ w) else (0, 0)
  | 3 => let w := (b.comp (64 + i)).base; if b.rbit (PORT_STATUS (64 + i)) 1 then (cI w, cQ w) else (0, 0)
  | 4 => if b.rbit (FLX_STATUS i) 1 then (4 * codeAt (b.flx i).line 2 (2 * (c.cyc - tapDelay : Int) + j / 4), 0) else (0, 0)
  | 5 => (sval 16 (b.rfld (SENSE_V i) 0 16), sval 24 (b.rfld (SENSE_I i) 0 24))
  | _ => (0, 0)

/-- What is added to the Tide Time of the cycle for the stamp, in 2⁻³² ns: the fixed delay and trim of a tap, and SKEW (R339, R347). -/
def Body.stampShift (b : Body) (u : Nat) : Int :=
  let inc : Int := b.rnat TIDE_INC_ACT * 2 ^ 8
  let i := b.uIdx u
  let d : Int := match b.uSrc u with
    | 2 => 36 * inc + b.rfld (OUT_TRIM i) 0 8 * 2 ^ 28
    | 3 => 36 * inc + b.rfld (OUT_TRIM (64 + i)) 0 8 * 2 ^ 28
    | 4 => 16 * inc + b.rfld (FLX_OUT_TRIM i) 0 8 * 2 ^ 28
    | _ => 0
  d + sval 16 (b.rfld (U_SKEW u) 0 16) * 2 ^ 28

/-! ### Capture budget (R342) -/

def ceilDiv (x d : Nat) : Nat := (x + d - 1) / d

/-- Rate of a source at an averaging `a`, with or without a mask test (R342). -/
def unitRate (src a : Nat) (mask : Bool) : Nat :=
  let f (x : Nat) : Nat := ceilDiv x (2 ^ a)
  let m (x : Nat) : Nat := if mask then f x else 0
  match src with
  | 0 => if a = 0 then 32768 + (if mask then 98304 else 0) else f 49152 + m 98304
  | 1 => f 6144 + m 6144
  | 4 => f 12288 + m 24576
  | 5 => 1
  | _ => f 12288 + m 12288

/-- The a in effect for a fill: one more while the governor sheds, up to 12, but for SRC 5 (R353). -/
def Body.uEff (b : Body) (u : Nat) : Nat :=
  if b.rbit SCOPE_STATUS 0 && b.uSrc u != 5 then min 12 (b.uAvg u + 1) else b.uAvg u

/-- RATE_USED: the sum over the units that are not DISARMED, DONE or STOPPED (R342). -/
def Body.rateUsed (b : Body) : Nat :=
  ((List.range 16).map (fun u => if b.uLive u then unitRate (b.uSrc u) (b.unit u).a (b.rbit (U_CTL u) 28) else 0)).sum

def Body.fixRate (b : Body) : Body := b.rset RATE_USED (r32 b.rateUsed)

/-! ### Fills (R344) -/

/-- The first whole line after a cycle. -/
def nextLine (src a ph : Nat) : Nat := ceilDiv (samplesTo src ph) (linePoints src a * 2 ^ a)

/-- A fill begins at line `l` with the a in effect: FILLING, or WAITING at once where PRE is 0 (R344). -/
def Body.fillFrom (b : Body) (u l : Nat) : Body :=
  let x := b.unit u
  let b := b.setUnit u { x with a := b.uEff u, first := l, next := l, pts := [], rise := false, fall := false, trig := none }
  ((b.rsetFld (U_STATUS u) 0 3 (if b.rfld (U_PRE u) 0 16 = 0 then 2 else 1)).rsetFld (U_STATUS u) 12 4 (b.uEff u)).fixRate

/-- A fill begins at the first whole line after this cycle; nothing taken before it is kept. -/
def Body.fillNow (b : Body) (c : Clock) (u : Nat) : Body :=
  let l := nextLine (b.uSrc u) (b.uEff u) c.ph
  (b.setUnit u { b.unit u with take := l, cur := [], buf := [] }).fillFrom u l

/-- The line at the head of what has been taken: the oldest of the die buffer, else the one being taken. -/
def ScopeUnit.head (x : ScopeUnit) (q : Nat) : Nat :=
  (x.buf.findSome? (fun e => match e with
    | .line pts _ => pts.head?.map (fun p => p.idx / q)
    | _ => none)).getD x.take

/-- A fill begins at the next line the unit has taken or is taking, unless the a in effect has changed (R344, R353). -/
def Body.fillOn (b : Body) (c : Clock) (u : Nat) : Body :=
  if b.uEff u = (b.unit u).a then b.fillFrom u ((b.unit u).head (linePoints (b.uSrc u) (b.unit u).a)) else b.fillNow c u

/-- SHED changes: units in FILLING and WAITING restart their fills (R353). -/
def Body.scopeShed (b : Body) (c : Clock) (on : Bool) : Body :=
  if b.rbit SCOPE_STATUS 0 = on then b
  else
    let b := b.rsetBit SCOPE_STATUS 0 on
    (List.range 16).foldl (fun b u => if b.uState u = 1 ∨ b.uState u = 2 then b.fillNow c u else b) b

/-! ### SCOPE_ARM descriptors that wait (R289, R349) -/

/-- How a unit ended, for the descriptors that wait for it: 1 DONE, 2 STOPPED, 3 DISARMED, with OVERRUN and SRC_LOST of its
records. -/
def Body.armEnds (b : Body) (c : Clock) (r u how : Nat) (d : Desc) : Body :=
  if d.kind ≠ 0xC ∨ d.st ≠ .active ∨ ! (d.fld 10 16).testBit u ∨ d.marks.any (fun m => m.1 == u) then b
  else
    let x := b.unit u
    let marks := d.marks ++ [(u, how + (if x.overFlag then 4 else 0) + (if x.lost then 8 else 0))]
    let d := { d with marks := marks }
    let b := b.setDesc r d
    if (List.range 16).all (fun v => ! (d.fld 10 16).testBit v || marks.any (fun m => m.1 == v)) then
      let mask (f : Nat → Bool) : Nat := ((marks.filter (fun m => f m.2)).map (fun m => 2 ^ m.1)).sum
      let stopped := mask (fun h => h % 4 == 2)
      let status := if stopped ≠ 0 then 0x30 else if mask (fun h => h % 4 == 3) ≠ 0 then 0x31 else 0
      b.complete c r d status stopped (mask (fun h => h.testBit 2) + mask (fun h => h.testBit 3) * 2 ^ 16)
    else b

/-- A unit ends: every SCOPE_ARM in flight that names it hears of it. -/
def Body.unitEnds (b : Body) (c : Clock) (u how : Nat) : Body :=
  b.host.rings.entries.foldl (fun b e => e.2.descs.foldl (fun b d => b.armEnds c e.1 u how d) b) b

/-! ### Record ends (R351) -/

/-- Write bytes of a whole number of lines to device memory. -/
def devBytes (s : State) (a : Nat) (l : List Byte) : State := devWrite s a (BitVec.ofNat 512 (ofBytes l))

/-- The entry of the oldest record that has ended is written; the last one, or a failing one with MASK_STOP, ends the unit (R344,
R348, R351). -/
def recordEnd (u : Nat) (s : State) : State :=
  let x := s.body.unit u
  match x.ends with
  | [] => s
  | e :: t =>
    let s := devBytes s e.addr e.bytes
    let b := s.body.setUnit u { x with ends := t }
    let b := b.rsetFld (U_STATUS u) 16 16 (b.rfld (U_STATUS u) 16 16 + 1)
    let b := if e.stop then ((b.rsetFld (U_STATUS u) 0 3 5).fixRate).unitEnds s.clock u 2
      else if e.last then ((b.rsetFld (U_STATUS u) 0 3 4).fixRate).unitEnds s.clock u 1
      else b
    { s with body := b }

/-- SCOPE_RECORD_END: every data line of the oldest ended record of a unit has reached memory (R351). -/
def execScopeRecordEnd (u : Fin 16) (s : State) : Host.Outcome State Fault Refusal := .next (recordEnd u s)

/-- Every ended record of a unit is written (R350). -/
def flushRecords (u : Nat) : Nat → State → State
  | 0, s => s
  | n + 1, s => flushRecords u n (recordEnd u s)

/-! ### Lines (R339, R341) -/

/-- The values of one point: the mean of its raw codes or decimated samples, or of the sums the taps have formed (R339). -/
def Body.formPoint (b : Body) (u src a : Nat) (p : ScopePt) : ScopePt :=
  let n := b.uIdx u
  match src with
  | 0 =>
    let cs := (List.range (2 ^ a)).map (fun i => adc n (p.raw + i))
    { p with v0 := shrEven (64 * cs.sum) a, ovr := cs.any overRange }
  | 1 =>
    let ws := (List.range (2 ^ a)).map (fun i => (b.recv n).decimated n (b.rfld (U_CTL u) 9 4) (p.raw + 16 * i))
    { p with v0 := shrEven (ws.map cI).sum a, v1 := shrEven (ws.map cQ).sum a }
  | _ => { p with v0 := shrEven p.v0 a, v1 := shrEven p.v1 a }

/-- Groups of `n` values. -/
def groups (n : Nat) : Nat → List ScopePt → List (List ScopePt)
  | 0, _ => []
  | k + 1, ps => if ps.isEmpty then [] else ps.take n :: groups n k (ps.drop n)

/-- The 14 words of a line (R339). -/
def lineOf (src a : Nat) (ps : List ScopePt) : List Word :=
  let at_ (g : List ScopePt) (k : Nat) : Int := (g.map (·.v0)).getD k 0
  match src with
  | 0 =>
    if a = 0 then
      (groups 3 14 ps).map (fun g => BitVec.ofNat 36
        (wrap 12 (at_ g 0 / 64) + wrap 12 (at_ g 1 / 64) * 2 ^ 12 + wrap 12 (at_ g 2 / 64) * 2 ^ 24))
    else (groups 2 14 ps).map (fun g => mkC (at_ g 0) (at_ g 1))
  | 4 => (groups 2 14 ps).map (fun g => mkC (at_ g 0) (at_ g 1))
  | 5 => (ps.map (fun p => [BitVec.ofInt 36 p.v0, BitVec.ofInt 36 p.v1])).flatten
  | _ => ps.map (fun p => mkC p.v0 p.v1)

/-! ### Triggers (R345, R346) -/

/-- The trigger value of a point (R345). -/
def Body.trigValue (b : Body) (u : Nat) (p : ScopePt) : Int :=
  if b.rbit (U_CTL u) 21 && (b.uSrc u == 1 || b.uSrc u == 2 || b.uSrc u == 3) then p.v1 else p.v0

/-- The edge test over points in order: the two flags, and the point that triggers (R345). -/
def edgeTest (up down : Bool) (level hyst : Int) (val : ScopePt → Int) : Bool → Bool → List ScopePt → Bool × Bool × Option ScopePt
  | rise, fall, [] => (rise, fall, none)
  | rise, fall, p :: t =>
    let v := val p
    let rise := rise || decide (v ≤ level - hyst)
    let fall := fall || decide (level + hyst ≤ v)
    if up && rise && decide (level ≤ v) then (rise, fall, some p)
    else if down && fall && decide (v ≤ level) then (rise, fall, some p)
    else edgeTest up down level hyst val rise fall t

/-- The first held point at or after a stamp. -/
def atStamp (t : Int) (ps : List ScopePt) : Option ScopePt := ps.find? (fun p => decide (t ≤ p.tt))

/-- TRIG_AT in units of 2⁻³² ns. -/
def Body.trigAt (b : Body) (u : Nat) : Int := b.rpair (U_TRIG_AT_LO u) (U_TRIG_AT_HI u) * 2 ^ 32

/-- The trigger TRIG selects once the points `new` of a line have joined the held points `held`: with the edge test's flags (R345). -/
def Body.trigTest (b : Body) (u : Nat) (x : ScopeUnit) (held new : List ScopePt) : Bool × Bool × Option ScopePt :=
  match b.uTrig u with
  | 0 => edgeTest (b.rbit (U_CTL u) 19) (b.rbit (U_CTL u) 20) (sval 18 (b.rfld (U_TRIG_LEVEL u) 0 18))
      (b.rfld (U_TRIG_HYST u) 0 17) (b.trigValue u) x.rise x.fall new
  | 1 => (x.rise, x.fall, atStamp (b.trigAt u) held)
  | _ => (x.rise, x.fall, match x.ev with
    | some t => atStamp (t * 2 ^ 32) held
    | none => none)

/-- The earlier of the two points; FORCED only where TRIG selects no point as early (R346). -/
def pickTrig (t f : Option ScopePt) : Option (ScopePt × Bool) :=
  match t, f with
  | some p, some q => if p.idx ≤ q.idx then some (p, false) else some (q, true)
  | some p, none => some (p, false)
  | none, some q => some (q, true)
  | none, none => none

/-! ### Masks and records (R348, R351) -/

/-- What a mask test finds: the record-relative index of the first failing point, and whether a line had an uncorrectable error. -/
structure MaskOut where
  fail : Option Nat
  err : Bool

/-- Test the points of one mask line (R348). -/
def maskLine (b : Body) (u : Nat) (l : BitVec 512) (base : Int) (pts : List ScopePt) (first i : Nat) : Option Nat :=
  (List.range 14).findSome? (fun k =>
    if b.maskPoints u ≤ 14 * i + k then none
    else
      match pts.find? (fun p => (p.idx : Int) == base + 14 * i + k) with
      | some p =>
        let w : Word := BitVec.ofNat 36 (fld l (36 * k) 36)
        let v := b.trigValue u p
        if cQ w ≤ v ∧ v ≤ cI w then none else some (p.idx - first)
      | none => none)

/-- Test the lines of the mask array that bound points of the record: `n` lines from line `i`; a line with an uncorrectable error, or with a
COUNT that R8 rejects, leaves its points untested (R8, R348). -/
def maskLines (u : Nat) (base : Int) (pts : List ScopePt) (first : Nat) : Nat → Nat → MaskOut → State → MaskOut × State
  | 0, _, o, s => (o, s)
  | n + 1, i, o, s =>
    if pts.any (fun p => decide (base + 14 * i ≤ p.idx) && decide ((p.idx : Int) < base + 14 * i + 14)) then
      let r := devRead s (s.body.maskBase u + 64 * i)
      match r.1.filter lineOk with
      | none => maskLines u base pts first n (i + 1) { o with err := true } r.2
      | some l =>
        let f := match o.fail with
          | some k => some k
          | none => maskLine s.body u l base pts first i
        maskLines u base pts first n (i + 1) { o with fail := f } r.2
    else maskLines u base pts first n (i + 1) o s

/-- The 64 bytes of a record entry (R351). -/
def recordBytes (b : Body) (u : Nat) (x : ScopeUnit) (t : ScopeTrig) (lines : Nat) (overFlag lost : Bool) (m : MaskOut) (pts : List ScopePt) : List Byte :=
  let q := linePoints (b.uSrc u) x.a
  let one (f : Bool) (i : Nat) : Nat := if f then 2 ^ i else 0
  let flags := one t.forced 0 + one t.short 1 + one overFlag 2 + one lost 3 + one m.fail.isSome 4 + one m.err 5 +
    one (pts.any (·.stale)) 6 + one (pts.any (·.ovr)) 7 + one (x.a != b.uAvg u) 8 + one t.loose 9
  let firstTt : Int := (pts.head?.map (·.tt)).getD 0
  let whole (v : Int) : Nat := wrap 64 (v / 2 ^ 32)
  let sub (v : Int) : Nat := wrap 4 (v / 2 ^ 28)
  leBytes 8 (whole t.pt.tt) ++ leBytes 1 (sub t.pt.tt) ++ leBytes 1 x.a ++ leBytes 2 flags ++ leBytes 4 (t.pt.idx - t.first * q) ++
  leBytes 8 t.pt.ph ++ leBytes 4 (t.first % b.uLines u) ++ leBytes 4 lines ++ leBytes 8 (whole firstTt) ++ leBytes 1 (sub firstTt) ++
  leBytes 1 (b.uSrc u) ++ leBytes 2 t.pt.epoch ++ leBytes 2 x.k ++ leBytes 2 0 ++ leBytes 4 (m.fail.getD 0xFFFFFFFF) ++ List.replicate 12 0

/-- A trigger is taken or a record ends: no FORCE waits, and no point taken carries one. -/
def ScopeUnit.unforce (x : ScopeUnit) : ScopeUnit :=
  let off (l : List ScopePt) : List ScopePt := l.map (fun p => { p with forced := false })
  { x with force := none, cur := off x.cur, buf := x.buf.map (fun e => match e with
    | .line pts m => .line (off pts) m
    | e => e) }

/-- A record ends with line `last`: the mask test, the entry, and the next fill or the end (R344, R348, R351, R352). -/
def endRecord (u last : Nat) (overFlag lost : Bool) (s : State) : State :=
  let b := s.body
  let x := b.unit u
  match x.trig with
  | none => s
  | some t =>
    let q := linePoints (b.uSrc u) x.a
    let pts := x.pts.filter (fun p => decide (t.first * q ≤ p.idx) && decide (p.idx < (last + 1) * q))
    let masked := b.rbit (U_CTL u) 28
    let r := if masked then maskLines u (t.pt.idx + b.maskOff u) pts (t.first * q) (linesOf (b.maskPoints u)) 0 ⟨none, false⟩ s
      else (⟨none, false⟩, s)
    let m := r.1
    let b := r.2.body
    let bytes := recordBytes b u x t (last + 1 - t.first) overFlag lost m pts
    let stop := m.fail.isSome && b.rbit (U_CTL u) 29
    let fin := x.k + 1 == b.rfld (U_RECORDS u) 0 16
    let e : ScopeEnd := ⟨b.recBase u + 64 * x.k, bytes, fin, stop⟩
    let b := if m.fail.isSome then ((b.count MASK_FAIL_COUNT 1).stick SCOPE_STATUS 9).stick (U_STATUS u) 9 else b
    let b := if lost then (b.stick SCOPE_STATUS 11).stick (U_STATUS u) 11 else b
    let b := b.setUnit u { x with k := x.k + 1, ends := x.ends ++ [e], overFlag := x.overFlag || overFlag, lost := x.lost || lost, pts := [], trig := none, ev := none }
    { r.2 with body := if stop || fin then b.setUnit u { b.unit u with cur := [], buf := [] } else b.fillOn s.clock u }

/-! ### A line is written (R344, R352) -/

/-- The record so far after a line: POST ends with its last line (R344). -/
def afterLine (u line : Nat) (s : State) : State :=
  match (s.body.unit u).trig with
  | some t =>
    let q := linePoints (s.body.uSrc u) (s.body.unit u).a
    let lastLine := t.pt.idx / q + s.body.rfld (U_POST u) 0 16 - 1
    if lastLine ≤ line then endRecord u lastLine false false s else s
  | none => s

/-- The unit has reached a place where lines are missing: a record ends at the last line accepted, a fill restarts at the next whole line (R352). -/
def gapReached (u : Nat) (lost : Bool) (s : State) : State :=
  if s.body.uState u = 3 then endRecord u ((s.body.unit u).next - 1) (! lost) lost s
  else { s with body := s.body.fillOn s.clock u }

/-- Places at the head of the die buffer where lines are missing are reached at once, in order (R352). -/
def settleGaps (u : Nat) : Nat → State → State
  | 0, s => s
  | n + 1, s =>
    let x := s.body.unit u
    match x.buf with
    | .over :: t => settleGaps u n (gapReached u false { s with body := s.body.setUnit u { x with buf := t } })
    | .lost :: t => settleGaps u n (gapReached u true { s with body := s.body.setUnit u { x with buf := t } })
    | _ => s

/-- Settle what stands at the head of the die buffer. -/
def settleUnit (u : Nat) (s : State) : State := settleGaps u ((s.body.unit u).buf.length) s

/-- A line is written, and its points tested (R343 to R346). -/
def lineKept (u : Nat) (line : List ScopePt) (miss : Int) (s : State) : State :=
  let b := s.body
  let x := b.unit u
  let src := b.uSrc u
  let q := linePoints src x.a
  let new := line.map (b.formPoint u src x.a)
  let size := b.uLines u
  let addr := b.bufBase u + 64 * size * x.k + 64 * (x.next % size)
  let s := devWrite s addr (packLine (lineOf src x.a new) false false (new.any (·.stale)))
  let low := max x.first (x.next + 1 - size)
  let all := x.pts ++ new
  let held := all.filter (fun p => decide (low * q ≤ p.idx))
  let past := ((all.filter (fun p => decide (p.idx < low * q))).getLast?.map (fun p => p.tt)).getD (if x.next = x.first then miss else x.past)
  let y : ScopeUnit := { x with next := x.next + 1, pts := if b.uState u = 3 then all else held, past := past }
  let b := s.body
  if b.uState u = 3 then afterLine u x.next { s with body := b.setUnit u y }
  else
    let t := b.trigTest u x held new
    match pickTrig t.2.2 (new.find? (·.forced)) with
    | some (p, forced) =>
      let line := p.idx / q
      let pre := b.rfld (U_PRE u) 0 16
      let gone := b.uTrig u == 1 && ! forced && decide (b.trigAt u ≤ past)
      let g : ScopeTrig := ⟨p, max low (line - pre), forced, decide (line < low + pre) || gone, ! b.anchored⟩
      let b := (b.setUnit u { y.unforce with trig := some g }).rsetFld (U_STATUS u) 0 3 3
      afterLine u x.next { s with body := b }
    | none =>
      let b := b.setUnit u { y with rise := t.1, fall := t.2.1 }
      { s with body := if b.rfld (U_PRE u) 0 16 ≤ y.next - y.first then b.rsetFld (U_STATUS u) 0 3 2 else b }

/-- The unit captures: live, and not waiting for the entry of its last record (R344). -/
def Body.capturing (b : Body) (u : Nat) : Bool := b.uLive u && ! (b.unit u).ends.any (fun e => e.last || e.stop)

/-- SCOPE_LINE: the oldest line of a unit's die buffer goes to memory, and what stands behind it is settled (R344, R352). -/
def scopeLine (u : Nat) (s : State) : State :=
  let x := s.body.unit u
  if ! s.body.capturing u then s
  else
    match x.buf with
    | .line pts miss :: t => settleUnit u (lineKept u pts miss { s with body := s.body.setUnit u { x with buf := t } })
    | _ => s

/-- SCOPE_LINE: the line it names is written if it is the one the unit writes next (R344). -/
def execScopeLine (u : Fin 16) (record line : Nat) (s : State) : Host.Outcome State Fault Refusal :=
  .next (if (s.body.unit u).k = record ∧ (s.body.unit u).next = line then scopeLine u s else s)

/-! ### What the units do in every cycle -/

/-- One source sample joins the points of a unit: it begins a point, which counts only from the line being taken on, or joins one begun
(R339, R340). -/
def Body.takeSample (b : Body) (c : Clock) (u : Nat) (x : ScopeUnit) (s j : Nat) (fresh : Bool) : ScopeUnit :=
  let src := b.uSrc u
  let p := s / 2 ^ x.a
  let v := if fresh then b.tapValue c u j else (0, 0)
  let stale := b.calOn (srcClass src) (b.uIdx u)
  let forced := match x.force with
    | some f => decide (f < c.cyc)
    | none => false
  if fresh && s % 2 ^ x.a == 0 then
    let tt : Int := c.tt.toNat + (b.rnat TIDE_INC_ACT * 2 ^ 8 * j / 8 : Nat) + b.stampShift u
    if p < x.take * linePoints src x.a then { x with miss := tt }
    else { x with cur := x.cur ++ [⟨p, c.ph, 8 * c.cyc + j, tt, b.epoch, stale, false, forced, v.1, v.2⟩] }
  else
    let join (y : ScopePt) : ScopePt :=
      { y with v0 := y.v0 + v.1, v1 := y.v1 + v.2, stale := y.stale || stale, forced := y.forced || forced }
    { x with cur := x.cur.map (fun y => if y.idx = p then join y else y) }

/-- Whole lines of the die buffer. -/
def ScopeUnit.lines (x : ScopeUnit) : Nat := (x.buf.filter (fun e => match e with
  | .line _ _ => true
  | _ => false)).length

/-- A place where lines are missing joins the die buffer, once. -/
def ScopeUnit.gap (x : ScopeUnit) (e : ScopeBuf) : ScopeUnit :=
  if x.buf.getLast? = some e then x else { x with buf := x.buf ++ [e] }

/-- A line whose last point is complete joins the die buffer, or finds its 32 places taken and is discarded (R352). -/
def Body.closeLine (b : Body) (u done : Nat) : Body :=
  let x := b.unit u
  let q := linePoints (b.uSrc u) x.a
  if done < (x.take + 1) * q * 2 ^ x.a ∨ x.cur.length < q then b
  else
    let pts : List ScopePt := x.cur.take q
    let y : ScopeUnit := { x with take := x.take + 1, cur := x.cur.drop q }
    if x.lines < 32 then b.setUnit u { y with buf := y.buf ++ [.line pts x.miss] }
    else
      let y : ScopeUnit := { y with miss := (pts.getLast?.map (fun p => p.tt)).getD x.miss }
      (((b.setUnit u (y.gap .over)).count SCOPE_OVERRUN_COUNT 1).stick SCOPE_STATUS 10).stick (U_STATUS u) 10

/-- The source stops, or the Phase Count has been set: points of a line not complete are dropped, and lines are taken from line `l` on
(R341, R352). -/
def ScopeUnit.breakOff (x : ScopeUnit) (l : Nat) : ScopeUnit :=
  { x.gap .lost with take := l, cur := [], miss := (x.cur.getLast?.map (·.tt)).getD x.miss }

/-- A unit in one cycle: an event on TRIG_EV is noted (R345); a source that produces nothing, or a Phase Count that has been set, breaks the
stream off; else its samples join, and a line may be complete (R341, R352). -/
def scopeUnitTick (s : State) (u : Nat) : State :=
  let b := s.body
  let c := s.clock
  if ! b.capturing u then s
  else
    let src := b.uSrc u
    let x := b.unit u
    let hit := b.uTrig u == 2 && b.uState u != 3 && b.log.delivered.any (fun e => e.1 == b.rfld (U_CTL u) 22 6)
    let x := if hit && x.ev.isNone then { x with ev := some c.now } else x
    if ! b.srcOn u then
      settleUnit u { s with body := b.setUnit u (x.breakOff (nextLine src x.a c.ph)) }
    else
      let x := if c.ph = 0 then x.breakOff 0 else x
      let x := (srcSamples src c.ph).foldl (fun x e => b.takeSample c u x e.1 e.2.1 e.2.2) x
      settleUnit u { s with body := (b.setUnit u x).closeLine u (samplesDone src c.ph) }

/-- All capture units in one cycle. -/
def scopeTick (s : State) : State := (List.range 16).foldl scopeUnitTick s

/-! ### Record ends before a command (R350) -/

/-- A record that ends in this cycle because the source gives nothing ends before a command of the cycle acts (R350, R352). -/
def endLost (u : Nat) (s : State) : State :=
  let x := s.body.unit u
  if s.body.capturing u && ! s.body.srcOn u then
    settleUnit u { s with body := s.body.setUnit u (x.breakOff (nextLine (s.body.uSrc u) x.a s.clock.ph)) }
  else s

/-- Every record of a unit that has ended, or ends in this cycle, is written (R350). -/
def closeRecords (u : Nat) (s : State) : State :=
  let s := endLost u s
  flushRecords u (s.body.unit u).ends.length s

/-! ### Arming and commands (R349, R350, R346) -/

/-- The mask window lies within one record wherever in its line the trigger point falls (R348). -/
def Body.maskFits (b : Body) (u : Nat) : Bool :=
  let q : Int := linePoints (b.uSrc u) (b.uEff u)
  let pre : Int := b.rfld (U_PRE u) 0 16
  decide (0 ≤ pre * q + b.maskOff u) && decide (pre * q + (q - 1) + b.maskOff u + b.maskPoints u ≤ b.uLines u * q)

/-- Checks 1 to 5 of an arm (R349). -/
def Body.armOk (b : Body) (u : Nat) : Bool :=
  let src := b.uSrc u
  let rng (a n : Nat) : Bool := b.inDev a n && a % 64 == 0
  let n := b.rfld (U_RECORDS u) 0 16
  let masked := b.rbit (U_CTL u) 28
  ! b.uLive u &&
  decide (src < 6) && decide (b.uIdx u < srcCount src) && decide (b.uAvg u ≤ 12) && ! (src == 5 && b.uAvg u != 0) &&
  b.uTrig u != 3 && ! (b.uTrig u == 0 && (b.rfld (U_CTL u) 19 2 == 0 || src == 5)) && ! (b.uTrig u == 1 && ! b.anchored) &&
  rng (b.bufBase u) (64 * n * b.uLines u) && rng (b.recBase u) (64 * n) &&
  (! masked || (rng (b.maskBase u) (64 * linesOf (b.maskPoints u)) && b.maskFits u))

/-- The units of a mask whose arm fails: checks 1 to 5, then the budget in the order of their numbers (R349). -/
def Body.armFails (b : Body) (mask : Nat) : Nat :=
  ((List.range 16).foldl (fun (t : Nat × Nat) u =>
    if ! mask.testBit u then t
    else if ! b.armOk u then (t.1 + 2 ^ u, t.2)
    else
      let r := t.2 + unitRate (b.uSrc u) (b.uEff u) (b.rbit (U_CTL u) 28)
      if 262144 < r then (t.1 + 2 ^ u, t.2) else (t.1, r)) (0, b.rateUsed)).1

/-- An accepted arm clears RECORDS_DONE and starts the fill (R349). -/
def Body.armUnit (b : Body) (c : Clock) (u : Nat) : Body :=
  let b := (b.setUnit u .reset).rsetFld (U_STATUS u) 16 16 0
  b.fillNow c u

/-- DISARM: ended records are written, the record in progress is abandoned (R350). -/
def disarmUnit (u : Nat) (s : State) : State :=
  let s := closeRecords u s
  let b := s.body
  let live := b.uLive u
  let x := b.unit u
  let b := (b.setUnit u { ScopeUnit.reset with overFlag := x.overFlag, lost := x.lost }).rsetFld (U_STATUS u) 0 3 0
  let b := (b.rsetFld (U_STATUS u) 12 4 0).fixRate
  { s with body := if live then b.unitEnds s.clock u 3 else b }

/-- FORCE: a FILLING or WAITING unit triggers at its next point; any other ignores it and sets CFG_REJECT (R346). -/
def Body.forceUnit (b : Body) (c : Clock) (u : Nat) : Body :=
  if b.uState u = 1 ∨ b.uState u = 2 then
    let x := b.unit u
    b.setUnit u { x with force := some (x.force.getD c.cyc) }
  else (b.reject (U_STATUS u)).reject SCOPE_STATUS

/-- A write of Uu_CMD (R349, R350, R346). -/
def writeUnitCmd (u : Nat) (v : Reg32) (s : State) : State :=
  let no : State := { s with body := (s.body.reject (U_STATUS u)).reject SCOPE_STATUS }
  match fld v 0 3 with
  | 0 => s
  | 1 =>
    let s := closeRecords u s
    let no : State := { s with body := (s.body.reject (U_STATUS u)).reject SCOPE_STATUS }
    if s.body.memReady && s.body.armFails (2 ^ u) == 0 then { s with body := s.body.armUnit s.clock u } else no
  | 2 => disarmUnit u s
  | 4 => let s := closeRecords u s; { s with body := s.body.forceUnit s.clock u }
  | _ => no

/-- UNIT_ARM (R349). -/
def execUnitArm (u : Fin 16) (v : Reg32) (s : State) : Host.Outcome State Fault Refusal := .next (writeUnitCmd u v s)
/-- UNIT_DISARM (R350). -/
def execUnitDisarm (u : Fin 16) (v : Reg32) (s : State) : Host.Outcome State Fault Refusal := .next (writeUnitCmd u v s)
/-- UNIT_FORCE (R346). -/
def execUnitForce (u : Fin 16) (v : Reg32) (s : State) : Host.Outcome State Fault Refusal := .next (writeUnitCmd u v s)

/-- The units a SCOPE_ARM names. -/
def Desc.units (d : Desc) : List Nat := (List.range 16).filter (fun u => (d.fld 10 16).testBit u)

/-- Ended records of the named units are written (R350). -/
def flushUnits (us : List Nat) (s : State) : State := us.foldl (fun s u => closeRecords u s) s

/-- SCOPE_ARM with OP ARM, and an OP outside 0 to 2 (R289, R349). -/
def armAct (r : Nat) (s : State) (d : Desc) : State :=
  if 2 < d.op then finish r d 2 0 0 s
  else if ! s.body.memReady then finish r d 5 0 0 s
  else
    let s := flushUnits d.units s
    let bad := s.body.armFails (d.fld 10 16)
    if bad ≠ 0 then finish r d 0xA bad 0 s
    else if d.units.isEmpty then finish r d 0 0 0 s
    else
      let b := d.units.foldl (fun b u => b.armUnit s.clock u) s.body
      { s with body := b.setDesc r { d with deadline := deadlineIn s.clock (d.fld 16 64) } }

/-- SCOPE_ARM (R349). -/
def execScopeArm (r : Fin 256) (seq : Reg32) (s : State) : Host.Outcome State Fault Refusal :=
  .next (startKind r seq.toNat (fun d => d.kind == 0xC && ! (d.op == 1 || d.op == 2)) (armAct r) s)

/-- OP DISARM: the named units are disarmed and the descriptor completes (R289, R350). -/
def disarmAct (r : Nat) (s : State) (d : Desc) : State :=
  if ! s.body.memReady then finish r d 5 0 0 s else finish r d 0 0 0 (d.units.foldl (fun s u => disarmUnit u s) s)

/-- SCOPE_DISARM (R350). -/
def execScopeDisarm (r : Fin 256) (seq : Reg32) (s : State) : Host.Outcome State Fault Refusal :=
  .next (startKind r seq.toNat (fun d => d.kind == 0xC && d.op == 1) (disarmAct r) s)

/-- OP FORCE: units that ignore it give CFG_REJECT with their mask (R289, R346). -/
def forceAct (r : Nat) (s : State) (d : Desc) : State :=
  if ! s.body.memReady then finish r d 5 0 0 s
  else
    let s := flushUnits d.units s
    let bad := ((d.units.filter (fun u => ! (s.body.uState u == 1 || s.body.uState u == 2))).map (fun u => 2 ^ u)).sum
    finish r d (if bad = 0 then 0 else 0xA) bad 0 { s with body := d.units.foldl (fun b u => b.forceUnit s.clock u) s.body }

/-- SCOPE_FORCE (R346). -/
def execScopeForce (r : Fin 256) (seq : Reg32) (s : State) : Host.Outcome State Fault Refusal :=
  .next (startKind r seq.toNat (fun d => d.kind == 0xC && d.op == 2) (forceAct r) s)

end Sys2Proof.Machine
end

