-- ==== Sys2Proof/Machine/Faults.lean ====
section
/-! DEFINITION. Faults: converter tiles, references, Harbour, the conditions of the guarantee (R401 to R416). -/

namespace Sys2Proof.Machine

/-! ### Converter tiles (R409, R410) -/

/-- The M ports of a tile go Safe, CORE_EN cleared; open windows become stale with CONV_NOT_READY (R410). -/
def Body.inputsSafe (b : Body) (c : Clock) (k : Nat) : Body :=
  (List.range 4).foldl (fun b i =>
    let n := 4 * k + i
    let b := (b.rsetBit (RCV_CTL n) 0 false).toSafe (.rx n)
    let r := b.recv n
    if r.wins.any (·.openNow c) then
      (b.setRecv n { r with wins := r.wins.map (fun w => if w.openNow c then { w with stale := true, isOpen := false } else w) }).rcvFlag c n 6
    else b) b

/-- Every port of a tile goes to its Safe state (R395, R410). -/
def Body.tileOff (b : Body) (c : Clock) (k : Nat) : Body := (b.tileSafe k).inputsSafe c k

/-- What the tests of a tile show in the cycle of detection: the link, the frame check, the three clocks, the rails, ERR_TT and frames that
failed their check. -/
structure TileTests where
  link : Bool
  frame : Bool
  clk : BitVec 3
  rail : Bool
  errTt : BitVec 36
  errs : Nat

/-- Failing tests as the fields of CAUSE and the record (R415). -/
def TileTests.cause (t : TileTests) : Nat :=
  (if t.link then 1 else 0) + (if t.frame then 2 else 0) + (if t.clk != 0 then 4 else 0) + (if t.rail then 8 else 0)

/-- A tile fails, once until the next reset that stops the core clock (R409, R410). -/
def Body.tileFail (b : Body) (c : Clock) (k : Nat) (t : TileTests) : Body :=
  let b := if t.rail then b.stick PMC_STATUS 9 else b
  if b.rbit FLT_STATUS (16 + k) || t.cause == 0 then b
  else
    let b := b.rsetBit FLT_STATUS (16 + k) true
    let b := (b.rsetFld (TILE_STATUS k) 8 4 t.cause).rsetBit (TILE_STATUS k) 0 (! t.link)
    let b := (List.range 3).foldl (fun b i => b.rsetBit (TILE_STATUS k) (1 + i) (! bit t.clk i)) b
    let b := b.count (TILE_LINK_ERR k) t.errs
    let b := (b.tileOff c k).calAbandon c
    let b := { b with flt := { b.flt with errTt := t.errTt :: b.flt.errTt } }
    b.fault c 0x03 (k * 2 ^ 8 + t.cause * 2 ^ 10) t.errTt.toNat

/-- TILE_FAIL (R409, R410). -/
def execTileFail (k : Fin 4) (link : Bool) (frame : Bool) (clk : BitVec 3) (rail : Bool) (errTt : BitVec 36) (errs : Nat) (s : State) : Host.Outcome State Fault Refusal :=
  nextBody (fun c b => if c.on then b.tileFail c k ⟨link, frame, clk, rail, errTt, errs⟩ else b) s

/-- TILE_ERR_TT_LO_READ: ERR_TT of the most recently failed tile, its high part snapshot (R416). -/
def Body.readErrTt (b : Body) : Body :=
  let v := (b.flt.errTt.headD 0).toNat
  ((b.rset TILE_ERR_TT_LO (r32 v)).rset TILE_ERR_TT_HI (r32 (v / 2 ^ 32))).emitOut (.regValue TILE_ERR_TT_LO (r32 v))

/-- TILE_ERR_TT_LO_READ (R416). -/
def execTileErrTtLoRead (s : State) : Host.Outcome State Fault Refusal := nextBody (fun _ b => b.readErrTt) s

/-! ### References (R407, R408) -/

/-- Reference `i` is present and its PLL locked: 0 A, 1 B (R416). -/
def Body.refOk (b : Body) (i : Nat) : Bool := b.rbit FLT_STATUS i
/-- The PLL in use: 0 A, 1 B. -/
def Body.pllUsed (b : Body) : Nat := b.rfld FLT_STATUS 2 1

/-- The state of a reference as FLT_STATUS and REF_STATUS show it; NO_REF while neither is present. -/
def Body.setRef (b : Body) (i : Nat) (present locked : Bool) : Body :=
  let b := ((b.rsetBit REF_STATUS i present).rsetBit REF_STATUS (2 + i) locked).rsetBit FLT_STATUS i (present && locked)
  b.rsetBit FLT_STATUS 4 (! b.rbit REF_STATUS 0 && ! b.rbit REF_STATUS 1)

/-- The core clock comes from PLL `i` from now on. -/
def Body.usePll (b : Body) (i : Nat) : Body := (b.rsetFld FLT_STATUS 2 1 i).rsetFld REF_STATUS 5 1 i

/-- ALIGNED, with the cycle since which it has been set. -/
def Body.setAligned (b : Body) (c : Clock) (on : Bool) : Body :=
  let b := if on && ! b.rbit FLT_STATUS 3 then { b with flt := { b.flt with aligned := c.cyc } } else b
  b.rsetBit FLT_STATUS 3 on

/-- A reference is lost, or its PLL loses lock: the clock switches if it was in use and the other is there; with neither it holds over
(R407, R408, R415). -/
def Body.refLoss (b : Body) (c : Clock) (i : Nat) (lockOnly : Bool) : Body :=
  if ! b.refOk i then b.setRef i (b.rbit REF_STATUS i && lockOnly) false
  else
    let al := b.rbit FLT_STATUS 3
    let b := (b.setRef i lockOnly false).setAligned c false
    if b.refOk (1 - i) then
      let used := b.pllUsed == i
      let b := if used then b.usePll (1 - i) else b
      let b := if used && ! al then b.startBreak c else b
      let b := { b with flt := { b.flt with revert := false } }
      b.fault c 0x01 (i * 2 ^ 8 + (if used then 2 ^ 9 else 0) + (if al then 2 ^ 10 else 0)) (if used then c.now else 0)
    else (b.startBreak c).fault c 0x02 0 0

/-- REF_LOSS (R407). -/
def execRefLoss (b : Bool) (lockOnly : Bool) (s : State) : Host.Outcome State Fault Refusal :=
  nextBody (fun c x => if c.on then x.refLoss c (if b then 1 else 0) lockOnly else x) s

/-- The preferred reference (R416). -/
def Body.refPref (b : Body) : Nat := b.rfld FLT_CTL 0 1

/-- The clock is to go back to the preferred PLL: REVERT, and ALIGNED for 1,000,000 cc (R408). -/
def Body.revertDue (b : Body) (c : Clock) : Bool :=
  b.rbit FLT_CTL 1 && b.pllUsed != b.refPref && b.refOk b.refPref && b.rbit FLT_STATUS 3 && decide (b.flt.aligned + 1000000 ≤ c.cyc)

/-- REF_REVERT: back at the next Slack commit point, or at once while the grid is stopped (R408). -/
def Body.refRevert (b : Body) (c : Clock) : Body :=
  if ! b.revertDue c then b
  else if b.gridRun then { b with flt := { b.flt with revert := true } }
  else b.usePll b.refPref

/-- REF_REVERT (R408). -/
def execRefRevert (s : State) : Host.Outcome State Fault Refusal := nextBody (fun c b => b.refRevert c) s

/-- A switch back that waits is made at a Slack commit point (R408). -/
def Body.revertCommit (b : Body) (c : Clock) : Body :=
  if b.flt.revert then
    let x := { b with flt := { b.flt with revert := false } }
    if b.revertDue c then x.usePll b.refPref else x
  else b

/-- REFERENCE_RETURN: a reference is present again and its PLL locked; `aligned` says that the loop tracks (R407, R408). A ROM that waits in
NO_REF goes on (R383, R385). -/
def Body.refReturn (b : Body) (c : Clock) (i : Nat) (aligned : Bool) : Body :=
  let b := b.setRef i true true
  let b := b.setAligned c (aligned && b.refOk 0 && b.refOk 1)
  if b.rfld BOOT_STATUS 0 8 = 0x80 then (b.usePll i).rsetFld BOOT_STATUS 0 8 0 else b

/-- REFERENCE_RETURN (R408). -/
def execReferenceReturn (b : Bool) (aligned : Bool) (s : State) : Host.Outcome State Fault Refusal :=
  nextBody (fun c x => if c.on then x.refReturn c (if b then 1 else 0) aligned else x) s

/-! ### Harbour (R412) -/

/-- FALLBACK is set: the thresholds act on the housekeeping round from now on, and consecutive samples count afresh (R392). -/
def Body.setFallback (b : Body) : Body :=
  if b.rbit THM_STATUS 3 then b
  else
    let b := (b.rsetBit THM_STATUS 3 true).stick THM_STATUS 11
    let b := { b with thm := { b.thm with seen := 0, sensors := b.thm.sensors.mapVals .reset (fun x => { x with hi := (0, 0, 0), lo := (0, 0) }) } }
    (List.range 24).foldl (fun b s => b.rsetBit (TEMP s) 15 false) b

/-- HARBOUR_FAIL: the watchdog has seen no sign of life for 10,000,000 cc (R412). -/
def Body.harbourFail (b : Body) (c : Clock) : Body :=
  if b.rbit FLT_STATUS 5 then ((b.rsetBit FLT_STATUS 5 false).fault c 0x11 0 0).setFallback else b

/-- HARBOUR_FAIL (R412). -/
def execHarbourFail (s : State) : Host.Outcome State Fault Refusal := nextBody (fun c b => b.harbourFail c) s

/-! ### Live registers (R402, R416, R435) -/

/-- Coves with DEGRADED set, at most 15 (R416). -/
def Body.degraded (b : Body) : Nat := min 15 ((List.range 16).filter (fun n => b.rbit (COVE_STATUS n) 3)).length

/-- Every cove with an engine not STOPPED is in Guarded mode with SPARE_AVAIL (R402). -/
def Body.condGuarded (b : Body) : Bool :=
  (List.range 16).all (fun n =>
    (List.range 12).all (fun e => b.engState (12 * n + e) == 0) ||
    (b.guarded n && b.rbit (COVE_STATUS n) 2))

/-- A standby Lighthouse other than the acting one reports RING_LOCK (R402). This device knows its own role; frames do not carry the
others', so what of a group whose other devices report RING_LOCK is open (log entry 10). -/
def Body.standbyLocked (b : Body) (open_ : Bool) : Bool :=
  (b.rfld RING_CTL 4 2 == 2 && ! b.rbit RING_STATUS 4 && b.rbit RING_STATUS 2) ||
  (open_ && b.ring.status.entries.any (fun e => bit (e.2.getD 0) 0 && e.1 != b.devId && e.1 != b.rfld RING_STATUS 20 4))

/-- Both rings are cabled, or the device stands alone (R402). -/
def Body.condRing (b : Body) (open_ : Bool) : Bool :=
  ! b.ringEn || (b.rbit RING_CTL 8 && b.rbit RING_STATUS 0 && b.rbit RING_STATUS 1 && ! b.rbit RING_STATUS 3 && b.standbyLocked open_)

/-- ECC and scrub are on (R402). -/
def Body.condEcc (b : Body) : Bool := b.rbit MEM_CTL 0 && b.rfld MEM_STATUS 4 4 == 0

/-- Both references are present, locked and aligned (R402). -/
def Body.condRef (b : Body) : Bool := b.refOk 0 && b.refOk 1 && b.rbit FLT_STATUS 3

/-- Slack windows come at least every 10 ms (R402). -/
def Body.condSlack (b : Body) (c : Clock) : Bool :=
  b.gridRun && decide (b.gridPeriod ≤ 10000000) && (match b.grid.lastCommit with
    | some t => decide (c.cyc ≤ t + 10000000)
    | none => false)

/-- FLT_COND as it reads; GUARANTEE while every condition holds (R402, R416). -/
def Body.fltCond (b : Body) (c : Clock) : Reg32 :=
  let v := [b.condGuarded, b.condEcc, b.condRef, b.condRing (bit b.openValue 0), b.condSlack c]
  let n := (v.zipIdx.map (fun e => if e.1 then 2 ^ e.2 else 0)).sum
  r32 (if n = 31 then n + 2 ^ 31 else n)

/-- FLT_STATUS as it reads (R416). -/
def Body.fltStatus (b : Body) : Reg32 :=
  setFld (setFld (b.rget FLT_STATUS) 20 4 (b.rfld MEM_STATUS 4 4)) 24 4 b.degraded

/-- RAILS_OK of tile `k` (R435). -/
def Body.railsOk (b : Body) (k : Nat) : Bool := bit b.pwr.rails (4 + k) && bit b.pwr.rails (8 + k) && bit b.pwr.rails (12 + k)

/-- TILE_STATUS as it reads; a tile whose rails are off reads zero but for FAILED and CAUSE (R435). -/
def Body.tileStatus (b : Body) (k : Nat) : Reg32 :=
  let failed := b.rbit FLT_STATUS (16 + k)
  let v := if b.railsOk k then setBit (setBit (b.rget (TILE_STATUS k)) 4 true) 6 (b.cal.runs.any (fun x => x.tile == k))
    else b.rget (TILE_STATUS k) &&& 0xF00
  setBit v 5 failed

end Sys2Proof.Machine
end

