-- ==== Sys2Proof/Machine/Microcode.lean ====
section
/-! DEFINITION. Patched instructions: the microwords of R241 to R250 as the engine carries them out. -/

namespace Sys2Proof.Machine

/-- The instruction a routine carries out. -/
structure MicroInstr where
  g : Nat
  op : Nat
  f : BitVec 28
  deriving DecidableEq, Repr

/-- What a routine keeps between microwords beside the engine: progress index and count, a PC it has written, elements it may
still complete, and the state at its last safe point, where a stall leaves the engine (R198, R249). -/
structure MicroCtx where
  elems : Option (Nat × Nat)
  newPc : Option Nat
  left : Nat
  safe : State
  deriving DecidableEq, Repr

/-- How a routine goes on after a microword (R243). -/
inductive MicroEnd where
  | goOn (u : Nat)
  | ended
  | pause
  | stall (on : StallOn) (full : Bool)
  | fault (cause : Nat)
  deriving DecidableEq, Repr

/-- What a microword leaves. -/
abbrev MicroRes := State × MicroCtx × MicroEnd

/-! ### Operands (R242) -/

/-- The format of the immediate: 0 IMM, 1 IMM23, otherwise TARGET (R209, R210). -/
def immKind (op : Nat) : Nat :=
  if op = 0x30 then 1 else if op = 0x90 ∨ op = 0x92 then 2 else if opListed op then 0 else (Config.immFormat op).toNat

/-- IMM of the instruction's format, sign- or zero-extended. -/
def microImm (i : MicroInstr) (zero : Bool) : Word :=
  let n := match immKind i.op with
    | 0 => 18
    | 1 => 23
    | _ => 24
  if zero then BitVec.ofNat 36 (fld i.f 0 n) else wordOf (sval n (fld i.f 0 n))

/-- A source operand. -/
def microSrc (i : MicroInstr) (x : Engine) (zero : Bool) (sel : Nat) : Word :=
  match sel with
  | 1 => x.reg (fRa i.f)
  | 2 => x.reg (fRb i.f)
  | 3 => x.reg (fRd i.f)
  | 4 => microImm i zero
  | 5 => x.t0
  | 6 => x.t1
  | 7 => (x.pc + 1).setWidth 36
  | _ => 0

/-- The engine as a following microword sees it: a PC a microword has written is read (R245). -/
def MicroCtx.seen (k : MicroCtx) (x : Engine) : Engine := match k.newPc with
  | some a => { x with pc := BitVec.ofNat 24 a }
  | none => x

/-- The general register a selector names as a destination. -/
def microReg (i : MicroInstr) (sel : Nat) : Nat :=
  match sel with
  | 1 => fRa i.f
  | 2 => fRb i.f
  | 3 => fRd i.f
  | _ => (fRd i.f + 1) % 32

/-- Write a destination; a PC outside cove shared memory is cause 0x01 (R214). -/
def microDst (i : MicroInstr) (sel : Nat) (w : Word) (r : State × MicroCtx) : Except Nat (State × MicroCtx) :=
  let x := r.1.eng i.g
  match sel with
  | 0 => .ok r
  | 5 => .ok (r.1.setEng i.g { x with t0 := w }, r.2)
  | 6 => .ok (r.1.setEng i.g { x with t1 := w }, r.2)
  | 7 => if inShared (fld w 0 24) then .ok (r.1, { r.2 with newPc := some (fld w 0 24) }) else .error 1
  | k => .ok (r.1.setEng i.g (x.setReg (microReg i k) w), r.2)

/-- Go on after a write, or fault. -/
def microThen (s : State) (k : MicroCtx) (next : MicroEnd) : Except Nat (State × MicroCtx) → MicroRes
  | .ok r => (r.1, r.2, next)
  | .error cause => (s, k, .fault cause)

/-! ### The classes (R241) -/

/-- An ALU operation with the flags it would set. -/
def microAlu (op : Nat) (fl : BitVec 6) (a b : Word) (m : Nat) : Word × BitVec 6 :=
  match op with
  | 0 => znOnly fl a
  | 1 => aluAdd fl a b
  | 2 => aluSub fl a b
  | 3 => aluAnd fl a b
  | 4 => aluOr fl a b
  | 5 => aluXor fl a b
  | 6 => aluShl fl a b
  | 7 => aluShr fl a b
  | 8 => aluSra fl a b
  | 9 => aluMin fl a b
  | 10 => aluMax fl a b
  | 11 => aluAdds fl a b
  | 12 => aluCadd fl a b
  | 13 => znOnly fl (extField m a)
  | 14 => znOnly fl (insField m b a)
  | _ => znOnly fl (lihWord b (BitVec.ofNat 18 a.toNat))

/-- Class 0. A reserved operation, which R254 keeps out of every image, does nothing. -/
def microClassAlu (i : MicroInstr) (w : BitVec 24) (next : MicroEnd) (s : State) (k : MicroCtx) : MicroRes :=
  let x := s.eng i.g
  let z := bit w 1
  let y := k.seen x
  let r := microAlu (fld w 12 5) x.flags (microSrc i y z (fld w 6 3)) (microSrc i y z (fld w 3 3)) (fMod i.f)
  if 16 ≤ fld w 12 5 then (s, k, next)
  else
    let t := if bit w 2 then s.setEng i.g { x with flags := r.2 } else s
    microThen s k next (microDst i (fld w 9 3) r.1 (t, k))

/-- The accumulator a MAC microword names. -/
def microAcc (i : MicroInstr) (w : BitVec 24) : Nat :=
  match fld w 12 2 with
  | 1 => 0
  | 2 => 2
  | _ => fAcc i.f

/-- Class 1: R189 to R193 in full. -/
def microClassMac (i : MicroInstr) (w : BitVec 24) (next : MicroEnd) (s : State) (k : MicroCtx) : MicroRes :=
  let x := s.eng i.g
  let a := microSrc i (k.seen x) false (fld w 9 3)
  let b := microSrc i (k.seen x) false (fld w 6 3)
  let acc := microAcc i w
  let sh := if bit w 2 then fld x.t0 0 6 else fSh i.f
  let op := fld w 14 3
  let cplx := (decide (2 ≤ op) && decide (op ≤ 5)) || op == 7
  if cplx && acc % 2 == 1 then (s, k, .fault 0x11)
  else
    match op with
    | 0 => (s.setEng i.g (x.mac acc a b false), k, next)
    | 1 => (s.setEng i.g (x.mac acc a b true), k, next)
    | 6 =>
      let r := narrowReal (x.accOf acc) sh
      microThen s k next (microDst i (fld w 3 3) r.word (s.setEng i.g (x.narrowed r r.clamped), k))
    | 7 =>
      if 40 < sh then (s, k, .fault 0x11)
      else
        let r := narrowCplx (x.accOf acc) (x.accOf (acc + 1)) sh
        microThen s k next (microDst i (fld w 3 3) r.word (s.setEng i.g (x.narrowed r r.clamped), k))
    | o => (s.setEng i.g (x.cmac acc a b (o == 3 || o == 5) (o == 4 || o == 5)), k, next)

/-- The address register a MEM microword goes through; none for a computed address. -/
def microAreg (i : MicroInstr) (addr : Nat) : Option Nat :=
  match addr with
  | 0 => some (fAn i.f)
  | 1 => some (fAa i.f)
  | 2 => some (fAb i.f)
  | 3 => some (fAd i.f)
  | _ => none

/-- The addresses of `n` accesses of a MEM microword, and the address register after them. -/
def microAddrs (i : MicroInstr) (w : BitVec 24) (x : Engine) (n : Nat) : List Nat × Option (Nat × AddrReg) :=
  let addr := fld w 12 3
  match microAreg i addr with
  | some k =>
    let t := walk (x.areg k) (bit w 11 || (addr == 0 && fNu i.f)) n
    (t.1, some (k, t.2))
  | none =>
    let base := if addr = 4 then BitVec.ofNat 24 (x.reg (fRa i.f) + microImm i false).toNat else BitVec.ofNat 24 x.t0.toNat
    ((List.range n).map (fun j => (base + BitVec.ofNat 24 j).toNat), none)

/-- Both words of a pair through a selector: successive registers, T0 and T1; the second word is open where the selector names none
(log entry 12). -/
def microPairSrc (i : MicroInstr) (x : Engine) (open_ : Word) (sel : Nat) : List Word :=
  match sel with
  | 0 => [0, 0]
  | 5 => [x.t0, x.t1]
  | 6 => [x.t1, open_]
  | 7 => [(x.pc + 1).setWidth 36, open_]
  | k => [x.reg (microReg i k), x.reg ((microReg i k + 1) % 32)]

/-- A pair of general registers begins at an even one (R215). -/
def microPairOk (i : MicroInstr) (sel : Nat) : Bool :=
  ! (decide (1 ≤ sel) && decide (sel ≤ 4)) || microReg i sel % 2 == 0

/-- Write one loaded word, or a loaded pair; a pair into G0 is discarded (R215). -/
def microLoadDst (i : MicroInstr) (two : Bool) (sel : Nat) (ws : List Word) (r : State × MicroCtx) : Except Nat (State × MicroCtx) :=
  let a := ws.headD 0
  let b := ws.tail.headD 0
  let x := r.1.eng i.g
  if ! two then microDst i sel a r
  else if sel = 5 then .ok (r.1.setEng i.g { x with t0 := a, t1 := b }, r.2)
  else if 1 ≤ sel ∧ sel ≤ 4 then
    let q := microReg i sel
    .ok (if q = 0 then r else (r.1.setEng i.g ((x.setReg q a).setReg (q + 1) b), r.2))
  else microDst i sel a r

/-- Class 2: R181 to R188 in full. -/
def microClassMem (i : MicroInstr) (w : BitVec 24) (next : MicroEnd) (s : State) (k : MicroCtx) : MicroRes :=
  let x := s.eng i.g
  let op := fld w 15 2
  let two := decide (2 ≤ op)
  let sel := fld w 8 3
  let t := microAddrs i w x (if two then 2 else 1)
  let moved (y : Engine) : Engine := match t.2 with
    | some (n, r) => y.setAreg n r
    | none => y
  if two && ! microPairOk i sel then (s, k, .fault 0x12)
  else if ! addrsOk s i.g t.1 then (s, k, .fault 1)
  else if op % 2 = 1 then
    let open_ := BitVec.ofNat 36 s.body.openValue.toNat
    let ws := if two then microPairSrc i (k.seen x) open_ sel else [microSrc i (k.seen x) false sel]
    let s : State := { s with body := s.body.draw }
    let s := storeAll i.g (t.1.zip ws) s
    (s.setEng i.g (moved (s.eng i.g)), k, next)
  else
    let r := readAll i.g t.1 s
    match r.2.2 with
    | some cause => (r.2.1, k, .fault cause)
    | none => microThen s k next (microLoadDst i two sel r.1 (r.2.1.setEng i.g (moved (r.2.1.eng i.g)), k))

/-- The number a PORT microword names: ARG, or the instruction's MOD field. -/
def microArg (i : MicroInstr) (w : BitVec 24) : Nat := if fld w 0 10 = 0x3FF then fMod i.f else fld w 0 10

/-- Four open words. -/
def openWords (b : Body) : List Word :=
  (List.range 4).map (fun j => BitVec.ofNat 36 (Config.freeValue (b.free + j)).toNat)

/-- The group an ISSUE sends, with the address register after it: rd to rd + 3, words through An, or open words for a selector the
spec gives no group (R223, R242). -/
def microGroup (i : MicroInstr) (sel : Nat) (s : State) : List Word × Act × Option AddrReg :=
  let x := s.eng i.g
  let r := fRd i.f
  if sel = 3 then
    if r % 4 ≠ 0 ∨ r = 0 then ([], (s, some 0x12), none)
    else ([x.reg r, x.reg (r + 1), x.reg (r + 2), x.reg (r + 3)], (s, none), none)
  else if sel = 5 then
    let t := mWalk i.f 4 x
    if ! addrsOk s i.g t.1 then ([], (s, some 1), none)
    else
      let q := readAll i.g t.1 s
      (q.1, q.2, some t.2)
  else (openWords s.body, ({ s with body := { s.body with free := s.body.free + 4 } }, none), none)

/-- ISSUE_P and ISSUE_W (R223 to R225). -/
def microIssue (i : MicroInstr) (window : Bool) (sel : Nat) (next : MicroEnd) (s : State) (k : MicroCtx) : MicroRes :=
  if fRel i.f = 3 then (s, k, .fault 0x11)
  else
    let r := microGroup i sel s
    match r.2.1.2 with
    | some cause => (r.2.1.1, k, .fault cause)
    | none =>
      let t := r.2.1.1
      let w (n : Nat) : Word := (r.1[n]?).getD 0
      if t.body.mayTake t.clock i.g window (w 1) then
        let t := sendCommand i.g window (fRel i.f) (w 0) (w 1) (w 2) (w 3) t
        (match r.2.2 with
          | some a => t.setEng i.g ((t.eng i.g).setAreg (fAn i.f) a)
          | none => t, k, next)
      else (s, k, .stall (.input window (w 1)) (! t.body.issueRoom (i.g / 12) window (w 1)))

/-- Something sent from the engine. -/
def microSend (i : MicroInstr) (o : OutKind) (s : State) : State := { s with body := s.body.sendOut s.clock i.g o }

/-- What follows from an action of a microword: on, or a fault. -/
def microActed (k : MicroCtx) (next : MicroEnd) (r : Act) : MicroRes := (r.1, k, match r.2 with
  | some cause => .fault cause
  | none => next)

/-- EMIT: with a grant of the collector, else a stall (R309). -/
def microEmit (i : MicroInstr) (f : Nat) (v : Word) (next : MicroEnd) (s : State) (k : MicroCtx) : MicroRes :=
  let n := i.g / 12
  if s.body.mayEmit s.clock n f (i.g % 12) then
    ({ s with body := (s.body.noteTurn n (i.g % 12)).sendOut s.clock i.g (.emit f v) }, k, next)
  else (s, k, .stall (.fifo f) (! s.body.canTake n f (some (i.g % 12))))

/-- PUBLISH: with the lane free, else a stall (R161). -/
def microPublish (i : MicroInstr) (slot : Nat) (v : Word) (next : MicroEnd) (s : State) (k : MicroCtx) : MicroRes :=
  if s.body.laneFree s.clock i.g then
    ({ s with body := s.body.publishSlot s.clock i.g slot (fld v 0 8) (s.body.guarded (i.g / 12)) }, k, next)
  else (s, k, .stall .lane false)

/-- Class 3. -/
def microClassPort (i : MicroInstr) (w : BitVec 24) (next : MicroEnd) (s : State) (k : MicroCtx) : MicroRes :=
  let x := s.eng i.g
  let sel := fld w 10 3
  let n := microArg i w
  let v := microSrc i (k.seen x) false sel
  match fld w 13 4 with
  | 0 => microIssue i false sel next s k
  | 1 => microIssue i true sel next s k
  | 2 => microPublish i (n % 1024) v next s k
  | 3 => microActed k next (signalThen i.g (n % 64) (fun s => (s, none)) s)
  | 4 => microEmit i (n % 16) v next s k
  | 5 => (microSend i (.commit (n % 16)) s, k, next)
  | 6 => (microSend i (.abort (n % 16)) s, k, next)
  | 7 =>
    match specialReg s i.g (n % 16) with
    | some r => microThen s k next (microDst i sel r (s, k))
    | none => (s, k, .fault 0x11)
  | 8 => if 7 ≤ n % 16 then (s, k, .fault 0x11) else (s.setEng i.g (x.writeSpecial (n % 16) v), k, next)
  | _ => (s, k, next)

/-- Class 4: the engine waits; the routine goes on when the wait ends (R228, R230, R249). -/
def microClassWait (i : MicroInstr) (w : BitVec 24) (next : MicroEnd) (s : State) (k : MicroCtx) : MicroRes :=
  let x := s.eng i.g
  let sel := fld w 11 3
  let none_ := sel == 0 || (decide (1 ≤ sel) && decide (sel ≤ 3) && microReg i sel == 0)
  let dl := deadlineOf s (microSrc i (k.seen x) false sel) none_
  let cont : Cont := ⟨match next with
    | .goOn u => some u
    | _ => none, i.op, k.elems, k.newPc⟩
  let ev := fld w 14 3 == 1
  let what := if ev then fld i.f 0 4 else fld (x.reg (fRb i.f)) 0 18
  if (ev && what == 0) || (! ev && ! selOk what) then (s, k, .fault 0x11)
  else ((startWait i.g ⟨ev, i.f, fld w 8 3, what, dl, none, 0, none, some cont⟩ s).1, k, .pause)

/-- A BRANCH condition; none for a reserved condition of the instruction (R213). -/
def microCond (i : MicroInstr) (w : BitVec 24) (x : Engine) : Option Bool :=
  match fld w 14 3 with
  | 0 => some true
  | 1 => some (bit x.flags 0)
  | 2 => some (! bit x.flags 0)
  | 3 => some (bit x.flags 1)
  | 4 => some (bit x.flags 2)
  | 5 => some (! bit x.flags 2)
  | 6 => condHolds x.flags (if i.op = 0x91 then fld i.f 0 4 else fCond i.f)
  | _ => some false

/-- Address registers the microwords from `u` to the next ELEM NEXT go through (R221, R249). -/
def microRegs (b : Body) (i : MicroInstr) : Nat → Nat → List Nat
  | 0, _ => []
  | n + 1, u =>
    let w := b.microword (i.g / 12) u
    if fld w 21 3 = 6 ∧ fld w 15 2 = 1 then []
    else
      let t := microRegs b i n (u + 1)
      if fld w 21 3 = 2 then (match microAreg i (fld w 12 3) with
        | some k => k :: t
        | none => t) else t

/-- Class 6: INIT takes the count, or goes on from the saved index; NEXT ends an element, the last one too: its index is saved, and the safe
point keeps where the routine goes on (R243, R249, R234). -/
def microClassElem (i : MicroInstr) (u : Nat) (w : BitVec 24) (next : MicroEnd) (s : State) (k : MicroCtx) : MicroRes :=
  let x := s.eng i.g
  if fld w 15 2 = 0 then
    let n := (if fld w 12 3 = 0 then x.reg (fRa i.f) else x.t0).toNat
    let at_ := x.resume.getD 0
    if 65536 < n then (s, k, .fault 0x13)
    else if n ≤ at_ then (s, k, .ended)
    else if ! (rangesOk x (microRegs s.body i 4096 (u + 1)).eraseDups (n - at_) &&
        addrsOk s i.g ((microRegs s.body i 4096 (u + 1)).eraseDups.map x.ptr)) then (s, k, .fault 1)
    else (s, { k with elems := some (at_, n) }, next)
  else
    match k.elems with
    | none => (s, k, next)
    | some (at_, n) =>
      let k := { k with elems := some (at_ + 1, n) }
      match (if at_ + 1 < n then .goOn (fld w 0 12) else next : MicroEnd) with
      | .goOn v =>
        let t := s.setEng i.g { x.safeAt (at_ + 1) with cont := some ⟨some v, i.op, k.elems, k.newPc⟩ }
        if k.left ≤ 1 then (t, k, .pause) else (t, { k with left := k.left - 1, safe := t }, .goOn v)
      | e => (s, k, e)

/-- One microword (R243): what it does and how the routine goes on. -/
def microStep (i : MicroInstr) (u : Nat) (w : BitVec 24) (s : State) (k : MicroCtx) : MicroRes :=
  let next : MicroEnd := if bit w 20 then .ended else .goOn (u + 1)
  match fld w 21 3 with
  | 0 => microClassAlu i w next s k
  | 1 => microClassMac i w next s k
  | 2 => microClassMem i w next s k
  | 3 => microClassPort i w next s k
  | 4 => microClassWait i w next s k
  | 5 =>
    match microCond i w (s.eng i.g) with
    | none => (s, k, .fault 0x11)
    | some t => (s, k, if t then .goOn (fld w 0 12) else next)
  | 6 => microClassElem i u w next s k
  | _ => (s, k, .fault (fld w 10 7))

/-- The instruction ends: the PC a routine has written, else the next instruction. -/
def microFinish (i : MicroInstr) (s : State) (k : MicroCtx) : State :=
  match k.newPc with
  | some a => s.setEng i.g ((s.eng i.g).goto a)
  | none => s.ends i.g

/-- Run microwords from `u`, each read from the control store first (R240); at most `fuel` of them. -/
def runMicro (i : MicroInstr) : Nat → Nat → State → MicroCtx → Act
  | 0, _, _, k => (k.safe, none)
  | fuel + 1, u, s, k =>
    let r := readStore s i.g false u
    match r.2 with
    | some cause => (r.1, some cause)
    | none =>
      let t := microStep i u (s.body.microword (i.g / 12) u) r.1 k
      match t.2.2 with
      | .goOn v => runMicro i fuel v t.1 t.2.1
      | .ended => (microFinish i t.1 t.2.1, none)
      | .pause => (t.1, none)
      | .stall on full => (stallAt i.g on full k.safe, none)
      | .fault cause => (t.1, some cause)

/-- A routine starts: T0 and T1 hold open values (R242). -/
def startRoutine (i : MicroInstr) (u upto : Nat) (s : State) : Act :=
  let v := (s.body.openValue, Config.freeValue (s.body.free + 1))
  let t : State := { s with body := s.body.draw.draw }
  let t := t.setEng i.g { t.eng i.g with t0 := BitVec.ofNat 36 v.1.toNat, t1 := BitVec.ofNat 36 v.2.toNat }
  runMicro i (4096 * (upto + 1)) u t ⟨none, none, upto, s⟩

/-- A patched instruction: its routine goes on where the last safe point left it, if nothing came between (R243, R249), else starts at START, a
resumed one too (R244). -/
def patchAct (i : MicroInstr) (u upto : Nat) (s : State) : Act :=
  if upto = 0 then (s, none)
  else
    match (s.eng i.g).cont with
    | some ⟨some v, op, elems, pc⟩ =>
      if op = i.op then runMicro i (4096 * (upto + 1)) v s ⟨elems, pc, upto, s⟩ else startRoutine i u upto s
    | _ => startRoutine i u upto s

/-- PATCHED_OPCODE: the routine of an opcode that a patch defines or changes; at most `upto` elements are completed before a safe point
(R244, R249, R255). -/
def execPatchedOpcode (e : Fin 192) (w : Word) (upto : Nat) (s : State) : Host.Outcome State Fault Refusal :=
  let op := fld w 28 8
  let n := e.val / 12
  if s.body.runs e && s.body.patched n op && s.body.opDefined n op then
    .next (carryOut e (fun s => fetched s e op) (patchAct ⟨e, op, BitVec.ofNat 28 w.toNat⟩ (s.body.opStart n op) upto) s)
  else .next s

/-! ### The end of a wait (R228, R230) -/

/-- A wait ends: flags and destination written; the instruction ends, or a patched routine goes on, from here again after a stall. -/
def endWait (g : Nat) (w : Wait) (v : Word) (fl : BitVec 6) (s : State) : State :=
  let s : State := { s with body := (s.body.setEng g { s.eng g with wait := none, flags := fl }).setEngState g 2 }
  match w.cont with
  | none => s.setEng g ((s.eng g).setReg (fRd w.f) v).advance
  | some k =>
    let i : MicroInstr := ⟨g, k.op, w.f⟩
    let ctx : MicroCtx := ⟨k.elems, k.newPc, 65536, s⟩
    match microDst i w.dst v (s, ctx) with
    | .error cause => engStop s g cause
    | .ok r =>
      match k.u with
      | none => microFinish i r.1 r.2
      | some u =>
        let s := r.1.setEng g { r.1.eng g with cont := some ⟨some u, k.op, k.elems, r.2.newPc⟩ }
        let t := runMicro i (4096 * 65537) u s { r.2 with safe := s }
        match t.2 with
        | some cause => engStop t.1 g cause
        | none => t.1

/-- The wait of an engine that waits, with what it finds in this cycle. -/
def polled (s : State) (g : Nat) : State :=
  if s.body.engState g == 3 && ! s.body.oddTwin g then { s with body := s.body.pollWait s.clock g false } else s

/-- The wait under way, when it is of the given kind. -/
def State.waiting (s : State) (g : Nat) (ev : Bool) : Option Wait :=
  if s.body.engState g == 3 && ! s.body.oddTwin g then
    match (s.eng g).wait with
    | some w => if w.ev == ev then some w else none
    | none => none
  else none

/-- Flags of a wait that found its value: Z and N from it, C clear (R228, R230). -/
def waitFlags (fl : BitVec 6) (v : Word) : BitVec 6 := setC (setZN fl v) false
/-- Flags of a wait whose deadline passed: rd is 0, C set (R228, R230). -/
def lateFlags (fl : BitVec 6) : BitVec 6 := setC (setZN fl 0) true

/-- AWAIT_COMPLETE: 3 cc after the value became visible it reaches rd (R228). -/
def execAwaitComplete (e : Fin 192) (s : State) : Host.Outcome State Fault Refusal :=
  let s := polled s e
  match s.waiting e false with
  | none => .next s
  | some w =>
    match w.got with
    | some (v, t) => .next (if t + 3 ≤ s.clock.cyc then endWait e w v (waitFlags (s.eng e).flags v) s else s)
    | none => .next s

/-- AWAIT_DEADLINE: the deadline has passed without a value (R228). -/
def execAwaitDeadline (e : Fin 192) (s : State) : Host.Outcome State Fault Refusal :=
  let s := polled s e
  match s.waiting e false with
  | none => .next s
  | some w =>
    match w.dead with
    | some t => .next (if t + 3 ≤ s.clock.cyc then endWait e w 0 (lateFlags (s.eng e).flags) s else s)
    | none => .next s

/-- WAITEV_COMPLETE: the consumed event's EV_INFO reaches rd and the event block, with its lineage (R230). -/
def execWaitevComplete (e : Fin 192) (s : State) : Host.Outcome State Fault Refusal :=
  let s := polled s e
  match s.waiting e true with
  | none => .next s
  | some w =>
    match w.got with
    | some (v, t) =>
      if t + 2 ≤ s.clock.cyc then
        .next (actEnd e (readThen (readEv s e 0) (fun ctl s =>
          let s := ((s.setEvWord e 7 v).setLineage e w.lin).setEvWord e 0 (setBit ctl 5 true)
          (endWait e w v (setC (s.eng e).flags false) s, none))) id)
      else .next s
    | none => .next s

/-- WAITEV_DEADLINE: the deadline has passed without an event (R230). -/
def execWaitevDeadline (e : Fin 192) (s : State) : Host.Outcome State Fault Refusal :=
  let s := polled s e
  match s.waiting e true with
  | none => .next s
  | some w =>
    match w.dead with
    | some t => .next (if t + 2 ≤ s.clock.cyc then endWait e w 0 (setC (s.eng e).flags true) s else s)
    | none => .next s

end Sys2Proof.Machine
end

