-- ==== Sys2Proof/Machine/Patch.lean ====
section
/-! DEFINITION. Microcode loads: the image format, its checks and the writing of the control stores (R251 to R258, R282). -/

namespace Sys2Proof.Machine

/-! ### The image (R251, R252) -/

/-- A record of a patch image: microwords or dispatch entries from a first address or opcode. -/
structure McRec where
  disp : Bool
  start : Nat
  items : List Nat
  deriving DecidableEq, Repr

/-- The records of an image body, `n` of them; none if the format is wrong. -/
def mcRecs : Nat → List Byte → Option (List McRec)
  | 0, l => if l.isEmpty then some [] else none
  | n + 1, l =>
    let ty := imgFld l 0 1
    let w := if ty = 1 then 4 else 2
    let k := imgFld l 4 2
    let size := 8 + (k * w + 3) / 4 * 4
    let items := (List.range k).map (fun i => imgFld l (8 + w * i) w)
    if l.length < size ∨ ¬ (ty = 1 ∨ ty = 2) ∨ k = 0 ∨ ! imgZero l 1 1 ∨ ! imgZero l 6 2 ∨ ! imgZero l (8 + k * w) (size - 8 - k * w) then none
    else if ! items.all (fun x => if ty = 1 then decide (x < 2 ^ 24) else decide (x < 2 ^ 13)) then none
    else if ty = 2 ∧ 256 < imgFld l 2 2 + k then none
    else (mcRecs n (l.drop size)).map (fun t => ⟨decide (ty = 2), imgFld l 2 2, items⟩ :: t)

/-- BODY_LEN of an image. -/
def mcBody (l : List Byte) : Nat := imgFld l 0x10 4

/-- The header of an image is well formed and its sizes agree (R251). -/
def mcHeaderOk (l : List Byte) : Bool :=
  imgFld l 0 4 == 0x594D4350 && imgFld l 4 2 == 1 && decide (imgFld l 7 1 ≤ 2) && imgFld l 8 2 != 0 && decide (imgFld l 10 1 ≤ 1) &&
  imgZero l 11 1 && decide (1 ≤ imgFld l 12 2) && decide (imgFld l 12 2 ≤ 512) && imgZero l 14 2 && mcBody l % 4 == 0 &&
  decide (mcBody l ≤ 32768) && imgZero l 20 44 && imgKeyForm l && l.length == 0xC0 + mcBody l + 96

/-- The records of a well-formed image. -/
def mcParse (l : List Byte) : Option (List McRec) :=
  if mcHeaderOk l then mcRecs (imgFld l 12 2) ((l.drop 0xC0).take (mcBody l)) else none

/-- A patch: microwords and dispatch entries over the standard image (R254). -/
structure Patch where
  words : SMap (Option (BitVec 24))
  disps : SMap (Option (BitVec 16))
  deriving DecidableEq, Repr

/-- Apply a record; later ones overwrite earlier ones (R252). -/
def Patch.apply (p : Patch) (r : McRec) : Patch :=
  (r.items.zipIdx r.start).foldl (fun p e =>
    if r.disp then { p with disps := p.disps.put none e.2 (some (BitVec.ofNat 16 e.1)) }
    else { p with words := p.words.put none e.2 (some (BitVec.ofNat 24 e.1)) }) p

/-- All records of an image, in order. -/
def patchOf (rs : List McRec) : Patch := rs.foldl Patch.apply ⟨.empty, .empty⟩

/-- The microword of the patched copy. -/
def Patch.word (p : Patch) (u : Nat) : BitVec 24 := (p.words.get none u).getD (romWord u)
/-- The routine of an opcode in the patched copy. -/
def Patch.start (p : Patch) (op : Nat) : Option Nat :=
  match p.disps.get none op with
  | some d => if bit d 12 then some (fld d 0 12) else none
  | none => if opListed op then some (romStart op) else none

/-! ### The rules checked at load (R254) -/

/-- Rule 2: no reserved code in a microword. -/
def wordLegal (w : BitVec 24) : Bool :=
  match fld w 21 3 with
  | 0 => decide (fld w 12 5 < 16)
  | 1 => fld w 12 2 != 3
  | 2 => decide (fld w 12 3 < 6)
  | 3 => decide (fld w 13 4 < 9)
  | 4 => decide (fld w 14 3 < 2)
  | 5 => decide (fld w 14 3 < 7)
  | 6 => decide (fld w 15 2 < 2) && (fld w 15 2 == 1 || decide (fld w 12 3 < 2))
  | _ => decide (0x20 ≤ fld w 10 7)

def isBranch (w : BitVec 24) : Bool := fld w 21 3 == 5
def isWait (w : BitVec 24) : Bool := fld w 21 3 == 4
def isInit (w : BitVec 24) : Bool := fld w 21 3 == 6 && fld w 15 2 == 0
def isNext (w : BitVec 24) : Bool := fld w 21 3 == 6 && fld w 15 2 == 1
def isFault (w : BitVec 24) : Bool := fld w 21 3 == 7
def isIssue (w : BitVec 24) : Bool := fld w 21 3 == 3 && decide (fld w 13 4 < 2)

/-- A selector that names architectural state as a destination. -/
def archDst (sel : Nat) : Bool := ! (sel == 0 || sel == 5 || sel == 6)

/-- Rule 8: a microword that writes architectural state. -/
def writesArch (w : BitVec 24) : Bool :=
  match fld w 21 3 with
  | 0 => archDst (fld w 9 3)
  | 1 => decide (fld w 14 3 < 6) || archDst (fld w 3 3)
  | 2 => fld w 15 2 % 2 == 1 || archDst (fld w 8 3)
  | 3 => true
  | 4 => archDst (fld w 8 3)
  | 6 => isNext w
  | _ => false

/-- Rules 2, 3 (branches), 5 and 9 on one microword. -/
def wordOk (u : Nat) (w : BitVec 24) : Bool :=
  wordLegal w && (! isBranch w || decide (u < fld w 0 12)) && bit w 19 == (isWait w || isNext w) && (! isIssue w || fld w 17 2 == 0)

/-- Microaddresses after a microword (R243); none stands for the end of the routine. -/
def wordNexts (u : Nat) (w : BitVec 24) : List (Option Nat) :=
  let seq := if bit w 20 then none else some (u + 1)
  if isFault w then []
  else if isBranch w then (if fld w 14 3 = 0 then [some (fld w 0 12)] else [some (fld w 0 12), seq])
  else if isNext w then [some (fld w 0 12), seq]
  else [seq]

/-- A place a routine can reach: microaddress; ELEM INITs passed (0 none, 1 + its microaddress for one, 5000 for more); whether
architectural state has been written. -/
structure McPlace where
  u : Nat
  init : Nat
  dirty : Bool
  deriving DecidableEq, Repr

/-- Places after a place. -/
def McPlace.nexts (x : McPlace) (w : BitVec 24) : List McPlace :=
  let init := if isInit w then (if x.init = 0 then 1 + x.u else 5000) else x.init
  (wordNexts x.u w).filterMap (fun o => o.map (fun v => ⟨v, init, x.dirty || writesArch w⟩))

/-- Rules 3 (ELEM NEXT), 4, 6 and 8 at a place. -/
def McPlace.bad (x : McPlace) (w : BitVec 24) : Bool :=
  (wordNexts x.u w).any (fun o => match o with
    | some v => decide (4096 ≤ v)
    | none => false) ||
  (isNext w && (x.init == 0 || x.init == 5000 || decide (fld w 0 12 < x.init))) || (isFault w && x.dirty)

/-- Every place reachable from a list of places: `fuel` bounds the steps. -/
def mcReach (p : Patch) : Nat → List McPlace → List McPlace → List McPlace
  | 0, _, seen => seen
  | _, [], seen => seen
  | n + 1, x :: t, seen =>
    if seen.contains x ∨ 4096 ≤ x.u then mcReach p n t seen else mcReach p n (x.nexts (p.word x.u) ++ t) (x :: seen)

/-- Cycles a microword counts under rule 7. -/
def wordCycles (w : BitVec 24) : Nat := if isWait w then 1 else if isIssue w then 4 else fld w 17 2 + 1

/-- Rule 7: the longest path in cycles from each microaddress to the next safe point or END, for the microaddresses from `4096 - n` up,
by descending microaddress; none where every path ends at a FAULT. -/
def mcCosts (p : Patch) : Nat → List (Option Nat)
  | 0 => []
  | n + 1 =>
    let t := mcCosts p n
    let u := 4095 - n
    let w := p.word u
    let after := if bit w 19 then [some 0] else (wordNexts u w).map (fun o => match o with
      | none => some 0
      | some v => if u < v then (t.getD (v - u - 1) none) else some 0)
    let best := after.foldl (fun a o => match a, o with
      | some x, some y => some (max x y)
      | some x, none => some x
      | none, y => y) none
    best.map (fun x => x + wordCycles w) :: t

/-- Every microaddress (below 65536) or opcode (65536 + opcode) at which a rule of R254 fails: rules 2, 3, 5 and 9 on the words of the image and
on every word a routine reaches. -/
def mcFailures (rs : List McRec) : List Nat :=
  let p := patchOf rs
  let ops := (rs.filter (·.disp)).flatMap (fun r => (List.range r.items.length).map (· + r.start))
  let us := (rs.filter (! ·.disp)).flatMap (fun r => (List.range r.items.length).map (· + r.start))
  let starts := (List.range 256).filterMap p.start
  let places := mcReach p (2 ^ 26) (starts.map (fun u => ⟨u, 0, false⟩)) []
  let costs := mcCosts p 4096
  (ops.filter (fun o => o == 0 || o == 1 || o == 0x7E)).map (· + 65536) ++
  us.filter (fun u => decide (u < 0x100) || (decide (0x1000 ≤ u) && decide (u < 0x10000))) ++
  us.filter (fun u => ! wordOk u (p.word u)) ++
  (places.filter (fun x => ! wordOk x.u (p.word x.u) || x.bad (p.word x.u))).map (·.u) ++
  (places.filter (fun x => match costs.getD x.u none with
    | some k => decide (64 < k)
    | none => false)).map (·.u)

/-! ### Loading (R256, R257, R282) -/

/-- A cove is ready to load (R256). -/
def Body.mcReadyCove (b : Body) (n : Nat) : Bool :=
  ! b.rbit (COVE_STATUS n) 1 && (List.range 12).all (fun e =>
    let st := b.engState (12 * n + e)
    st == 0 || st == 4 || st == 5 || st == 6)

/-- A load holds a cove: until the cove is written (R257). -/
def McLoad.holds (l : McLoad) (n : Nat) : Bool := match l.todo with
  | none => l.mask.testBit n
  | some ns => ns.contains n

/-- LOADING shows which coves a load holds (R257). -/
def Body.loadingBits (b : Body) : Body :=
  (List.range 16).foldl (fun b n => b.rsetBit (MC_VERSION n) 30 (b.mcLoads.any (fun l => l.holds n))) b

/-- Read an image line by line (R282); the status on an error. -/
def readImage (dev : Bool) : Nat → Nat → List (Option (BitVec 512)) → State → Except Nat (List Byte) × State
  | 0, _, _, s => (.ok [], s)
  | k + 1, a, src, s =>
    let r := srcLine s dev a (src.headD none)
    match r.1 with
    | .error st => (.error st, r.2)
    | .ok l =>
      let q := readImage dev k (a + 64) (src.drop 1) r.2
      (match q.1 with
        | .ok t => .ok (lineBytes l ++ t)
        | .error st => .error st, q.2)

/-- The coves of the mask that are not ready. -/
def Body.mcBusy (b : Body) (mask : Nat) : Nat := ((List.range 16).map (fun n => if mask.testBit n && ! b.mcReadyCove n then 2 ^ n else 0)).sum

/-- LOAD_MICROCODE starts: fields, MC_BUSY, then step 1 of R257 and the reading of the image (R256, R282, R300). -/
def mcStart (r : Nat) (src : List (Option (BitVec 512))) (s : State) (d : Desc) : State :=
  let n := d.fld 16 32
  let mask := d.fld 20 16
  let dev := bit d.raw (8 * 22)
  let busy := s.body.mcBusy mask
  if d.srcAddr % 64 ≠ 0 ∨ mask = 0 ∨ n = 0 ∨ 33056 < n ∨ (dev ∧ 2 ^ 40 ≤ d.srcAddr) then finish r d 2 0 0 s
  else if busy ≠ 0 then finish r d 0x10 busy 0 s
  else if dev && ! s.body.memReady then finish r d 5 0 0 s
  else if dev && ! s.body.inDev d.srcAddr n then finish r d 3 0 0 s
  else
    let t := readImage dev ((n + 63) / 64) d.srcAddr src s
    match t.1 with
    | .error st => finish r d st 0 0 t.2
    | .ok l =>
      let x : McLoad := ⟨r, d.seq, mask, l.take n, none, 0⟩
      let b : Body := { t.2.body with mcLoads := t.2.body.mcLoads ++ [x] }
      { t.2 with body := b.loadingBits }

/-- LOAD_MICROCODE (R256). -/
def execLoadMicrocode (r : Fin 256) (seq : Reg32) (src : List (Option (BitVec 512))) (s : State) : Host.Outcome State Fault Refusal :=
  .next (startKind r seq.toNat (fun d => d.kind == 5) (mcStart r src) s)

/-- The first check of R257 that an image fails, with its DETAIL0; none when it passes. One failing place of several is open. -/
def mcCheck (s : State) (x : McLoad) : Option (Nat × Nat) :=
  let l := x.image
  match mcParse l with
  | none => some (0x11, 0)
  | some rs =>
    if imgFld l 6 1 ≠ 1 then some (0x12, 0)
    else if ! s.mem.keyOk (imgFld l 10 1 == 1) (imgKey l) then some (0x13, 0)
    else if ! imgSigned l (mcBody l) then some (0x14, 0)
    else
      let bad := mcFailures rs
      let req := imgFld l 7 1
      if ! bad.isEmpty then some (0x15, bad.getD (s.body.openValue.toNat % bad.length) 0)
      else if (List.range 16).any (fun n => x.mask.testBit n &&
          ((req == 1 && s.body.rbit (COVE_CTL n) 1) || (req == 2 && ! s.body.rbit (COVE_CTL n) 1))) then some (0x16, 0)
      else none

/-- The control stores of cove `n` hold the standard image alone. -/
def Body.clearStores (b : Body) (n : Nat) : Body :=
  { b with ucode := b.ucode.dropKeys (fun k => k / 4096 == n), udisp := b.udisp.dropKeys (fun k => k / 256 == n) }

/-- The control stores of cove `n` hold a patch. -/
def Body.fillStores (b : Body) (n : Nat) (p : Patch) : Body :=
  let b := b.clearStores n
  { b with ucode := p.words.entries.foldl (fun t e => t.put none (4096 * n + e.1) e.2) b.ucode,
           udisp := p.disps.entries.foldl (fun t e => t.put none (256 * n + e.1) e.2) b.udisp }

/-- MC_VERSION of an image in effect (R258). -/
def mcVersion (l : List Byte) : Nat :=
  imgFld l 8 2 + imgFld l 6 1 * 2 ^ 16 + imgFld l 10 1 * 2 ^ 24 + imgFld l 7 1 * 2 ^ 25 + 2 ^ 31

/-- Whether a location is a control-store location of cove `n`. -/
def inStores (n k : Nat) : Bool := decide (storeKey n 0 false 0 ≤ k) && decide (k < storeKey (n + 1) 0 false 0)

/-- Write the stores of one cove: rewritten locations hold no error; a read-back failure leaves the standard image. MC_VERSION has VALID
(R257, R456). -/
def writeStores (x : McLoad) (s : State) (n : Nat) : State :=
  let p := patchOf ((mcParse x.image).getD [])
  let b := if x.bad.testBit n then (s.body.clearStores n).rset (MC_VERSION n) 0x80010000
    else (s.body.fillStores n p).rset (MC_VERSION n) (r32 (mcVersion x.image))
  { s with mem := { s.mem with err := s.mem.err.dropKeys (inStores n) }, body := { b with badDie := b.badDie.filter (fun k => ! inStores n k) } }

/-- The coves of a mask in ascending order. -/
def maskCoves (mask : Nat) : List Nat := (List.range 16).filter mask.testBit

/-- A load goes on, or goes, as a change of the list of loads. -/
def Body.setLoad (b : Body) (x : McLoad) (y : Option McLoad) : Body :=
  { b with mcLoads := b.mcLoads.filterMap (fun z => if z.ring == x.ring && z.seq == x.seq then y else some z) }

/-- Harbour begins to write the next cove, whose VALID clears; when none is left the load ends (R257). -/
def mcNext (x : McLoad) (s : State) : State :=
  match x.todo.getD [] with
  | n :: _ => { s with body := ((s.body.setLoad x (some x)).rsetBit (MC_VERSION n) 31 false).loadingBits }
  | [] =>
    let s : State := { s with body := (s.body.setLoad x none).loadingBits }
    match s.body.findDesc x.ring x.seq with
    | some d => finish x.ring d (if x.bad = 0 then 0 else 0x17) x.bad 0 s
    | none => s

/-- A cove of a load is written in one cycle of step 3: then the next one follows (R257; a cove takes one cycle, log entry 12). -/
def mcWrite (x : McLoad) (s : State) : State :=
  match x.todo with
  | some (n :: t) => mcNext { x with todo := some t } (writeStores x s n)
  | _ => s

/-- At the end of a cycle every load in step 3 writes one cove; without Harbour none does (R412). -/
def mcTick (s : State) : State := if s.body.rbit FLT_STATUS 5 then s.body.mcLoads.foldl (fun s x => mcWrite x s) s else s

/-- MC_LOAD_END: Harbour ends step 2 of the load of descriptor `seq` of ring `r`: a failed check ends the load; else step 3 begins, and `bad`
names the coves whose read-back fails (R257). Without Harbour no load ends (R412). -/
def execMcLoadEnd (r : Fin 256) (seq : Reg32) (bad : BitVec 16) (s : State) : Host.Outcome State Fault Refusal :=
  match s.body.mcLoads.find? (fun x => x.ring == r.val && x.seq == seq.toNat), s.body.findDesc r seq.toNat with
  | some x, some d =>
    if ! s.body.rbit FLT_STATUS 5 || x.todo.isSome then .next s
    else
      match mcCheck s x with
      | some e => .next (finish r d e.1 e.2 0 { s with body := (s.body.draw.setLoad x none).loadingBits })
      | none => .next (mcNext { x with todo := some (maskCoves x.mask), bad := bad.toNat &&& x.mask } s)
  | _, _ => .next s

end Sys2Proof.Machine
end

