-- ==== Sys2Proof/Machine/Fuse.lean ====
section
/-! DEFINITION. Writing fuses (R369, R373 to R377). -/

namespace Sys2Proof.Machine

/-- ENV_OK: every sensor reads from 0 to 85 °C and every supply monitor is in range (R374). -/
def Body.envOk (b : Body) : Bool :=
  b.pwr.rails == 0x1FFFF && (List.range 24).all (fun k =>
    let t := sval 11 (b.rfld (TEMP k) 0 11)
    decide (0 ≤ t) && decide (t ≤ 680))

/-- Every record names a kind, class, index and word count of R356. -/
def recsKnown (rs : List CalRec) : Bool :=
  rs.all (fun r => calApplies r.kind r.cls && decide (r.idx < calCount r.cls) && calWords r.kind == some r.words.length)

/-- A generation image is well formed (R371, R373). -/
def genImageOk (l : List Byte) : Bool :=
  imgFld l 0 4 == 0x4E454746 && imgFld l 4 2 == 1 && imgZero l 2036 12 && imgFld l 2032 4 == (crc32 (l.take 2032)).toNat &&
  (match areaRecs l 2048 with
    | some rs => recsKnown rs
    | none => false)

/-- A fuse write begins: WRITING, unless ENV_OK fails before the first word (R374, R375). -/
def fuseStart (r : Nat) (d : Desc) (gen : Option Nat) (words : List (Nat × BitVec 64)) (s : State) : State :=
  if ! s.body.envOk then finish r d 0x28 0 0 s
  else
    let b := s.body.setDesc r { d with aux := 1 }
    let x : FuseWrite := ⟨some (r, d.seq), gen, words, words, false, false⟩
    { s with body := { b with fuseWr := some x } }

/-- The words of a generation image, non-zero ones of 0 to 254 in ascending order (R375). -/
def genWords (g : Nat) (l : List Byte) : List (Nat × BitVec 64) :=
  ((List.range 255).map (fun i => (areaWord g + i, BitVec.ofNat 64 (imgFld l (8 * i) 8)))).filter (fun e => e.2 != 0)

/-- The words of a key hash image: big-endian words and their CRC-32 (R369). -/
def keyWords (l : List Byte) : List (Nat × BitVec 64) :=
  (List.range 6).map (fun i => (slotWord 3 + i, BitVec.ofNat 64 (ofBytes ((l.drop (8 * i)).take 8).reverse))) ++
  [(slotWord 3 + 6, (crc32 (l.take 48)).setWidth 64)]

/-- The image of a FUSE_COMMIT is read whole, or its status (R282, R288, R300). -/
def fuseImage (lines : Nat) (src : List (Option (BitVec 512))) (s : State) (d : Desc) : Except Nat (List Byte) × State :=
  let dev := bit d.raw (8 * 17)
  if dev && ! s.body.memReady then (.error 5, s)
  else if dev && ! s.body.inDev d.srcAddr (64 * lines) then (.error 3, s)
  else readImage dev lines d.srcAddr src s

/-- TARGET 0 (R373). -/
def genCommit (r : Nat) (src : List (Option (BitVec 512))) (s : State) (d : Desc) : State :=
  let t := fuseImage 32 src s d
  match t.1 with
  | .error st => finish r d st 0 0 t.2
  | .ok l =>
    if ! genImageOk l then finish r d 0x2A 0 0 t.2
    else
      match t.2.mem.blankGen with
      | none => finish r d 0x29 0 0 t.2
      | some g => fuseStart r d (some g) (genWords g l) t.2

/-- TARGET 1: a blank slot is written, a valid one with the same hash revoked (R369). -/
def keyCommit (r : Nat) (src : List (Option (BitVec 512))) (s : State) (d : Desc) : State :=
  let t := fuseImage 1 src s d
  match t.1 with
  | .error st => finish r d st 0 0 t.2
  | .ok l =>
    let m := t.2.mem
    if m.slotBlank 3 then fuseStart r d none (keyWords l) t.2
    else if m.slotValid 3 && m.slotHash 3 == l.take 48 then fuseStart r d none [(slotWord 3 + 7, 0xFFFFFFFFFFFFFFFF)] t.2
    else finish r d 0x29 0 0 t.2

/-- FUSE_COMMIT descriptors are carried out one at a time, and not without Harbour (R373, R412). -/
def fuseLook (r : Nat) (src : List (Option (BitVec 512))) (s : State) (d : Desc) : State :=
  if d.aux ≠ 0 ∨ s.body.fuseWr.isSome ∨ ! s.body.rbit FLT_STATUS 5 then s
  else if d.srcAddr % 64 ≠ 0 ∨ (bit d.raw (8 * 17) ∧ 2 ^ 40 ≤ d.srcAddr) then finish r d 2 0 0 s
  else
    match d.fld 16 8 with
    | 0 => genCommit r src s d
    | 1 => keyCommit r src s d
    | _ => finish r d 4 0 0 s

/-- FUSE_COMMIT: any TARGET but the customer key slot (R288, R373). -/
def execFuseCommit (r : Fin 256) (seq : Reg32) (src : List (Option (BitVec 512))) (s : State) : Host.Outcome State Fault Refusal :=
  .next (startOrLook r seq.toNat (fun d => d.kind == 0xB && d.fld 16 8 != 1) (fun s _ => s) (fuseLook r src) s)

/-- FUSE_COMMIT_KEY: TARGET 1 (R369). -/
def execFuseCommitKey (r : Fin 256) (seq : Reg32) (src : List (Option (BitVec 512))) (s : State) : Host.Outcome State Fault Refusal :=
  .next (startOrLook r seq.toNat (fun d => d.kind == 0xB && d.fld 16 8 == 1) (fun s _ => s) (fuseLook r src) s)

/-- End a fuse write. -/
def fuseEnd (x : FuseWrite) (status d0 : Nat) (s : State) : State :=
  let b := { s.body with fuseWr := none }
  match x.desc with
  | some (r, seq) =>
    match b.findDesc r seq with
    | some d => finish r d status d0 0 { s with body := b }
    | none => { s with body := b }
  | none => { s with body := b }

/-- DETAIL0 of a write cut short: the slot, and SPOILED (R374). -/
def FuseWrite.spoiled (x : FuseWrite) : Nat := x.gen.getD 0 + 2 ^ 8

/-- The next word of a write is tested for and begun (R374). -/
def fuseNext (x : FuseWrite) (s : State) : State :=
  if s.body.envOk then { s with body := { s.body with fuseWr := some x } } else fuseEnd x 0x28 x.spoiled s

/-- A word has been written: the next one, or read-back, then the marker (R375). -/
def fuseStep (x : FuseWrite) (s : State) : State :=
  let rest := x.todo.drop 1
  let y := { x with todo := rest, begun := true }
  if x.marker then fuseEnd x 0 (x.gen.getD 0) s
  else if ! rest.isEmpty then fuseNext y s
  else if ! x.all.all (fun e => s.mem.fuseWord e.1 == e.2) then fuseEnd x 0x2B 0 s
  else
    match x.gen with
    | some g => fuseNext { y with todo := [(areaWord g + 255, commitMarker)], marker := true } s
    | none => fuseEnd x 0 0 s

/-- FUSE_WORD_WRITTEN: the word in progress completes, but for bits that did not take (R375); none without Harbour (R412). -/
def execFuseWordWritten (miss : BitVec 64) (s : State) : Host.Outcome State Fault Refusal :=
  match s.body.fuseWr with
  | some x =>
    if ! s.body.rbit FLT_STATUS 5 then .next s
    else
      match x.todo with
      | e :: _ => .next (fuseStep x { s with mem := s.mem.blow e.1 (e.2 &&& ~~~miss) })
      | [] => .next s
  | none => .next s

/-- The word in progress when the device shuts down completes, and no further one is written (R376). -/
def fuseFinishWord (s : State) : State :=
  match s.body.fuseWr with
  | some x =>
    match x.todo with
    | e :: _ => { s with mem := s.mem.blow e.1 e.2, body := { s.body with fuseWr := none } }
    | [] => s
  | none => s

/-- The word in progress when power or the clock fails is lost: which of its bits have taken is open (R376, log entry 43). -/
def fuseLoseWord (s : State) : State :=
  match s.body.fuseWr with
  | some x =>
    match x.todo with
    | e :: _ => { s with mem := s.mem.blow e.1 (e.2 &&& s.body.openValue), body := { s.body.draw with fuseWr := none } }
    | [] => s
  | none => s

/-- FUSE_RD_LO_READ: the fuse word at FUSE_RD_ADDR, with its high half snapshot (R377). -/
def fuseRead (s : State) : State :=
  let v := s.mem.fuseWord (s.body.rfld FUSE_RD_ADDR 0 13)
  let b := (s.body.rset FUSE_RD_LO (r32 v.toNat)).rset FUSE_RD_HI (r32 (fld v 32 32))
  { s with body := b.emitOut (.regValue FUSE_RD_LO (r32 v.toNat)) }

/-- FUSE_RD_LO_READ (R377). -/
def execFuseRdLoRead (s : State) : Host.Outcome State Fault Refusal := .next (fuseRead s)

/-- A write of FUSE_RD_ADDR (R377). -/
def Body.writeFuseAddr (b : Body) (v : Reg32) : Body :=
  if 5119 < fld v 0 13 then b.reject FUSE_STATUS else b.rset FUSE_RD_ADDR (v &&& 0x1FFF)

end Sys2Proof.Machine
end

