-- ==== Sys2Proof/Machine/Power.lean ====
section
/-! DEFINITION. Power states, resets, boot, Neap, SMBus, legacy rises, temperatures, the Power Governor, and what the host link
reaches outside the rings (R262 to R264, R335 to R337, R378 to R400, R427, R431 to R433). -/

namespace Sys2Proof.Machine

/-! ### What a reset leaves (R382, R389, R427) -/

/-- The registers of the VAUX island: NEAP_CFG, WAKE_CAUSE, TRG_CFGp, LEGk_CFG, LEG_SW, LEG_STATUS (R400, R335). -/
def islandRegs : List Nat :=
  [NEAP_CFG, WAKE_CAUSE, LEG_SW, LEG_STATUS] ++ (List.range 8).map TRG_CFG ++ (List.range 8).map LEG_CFG

/-- Everything outside the VAUX island at its reset value; the levels of the pins are what they are. -/
def Body.island (b : Body) : Body :=
  let r := Body.reset
  let x := islandRegs.foldl (fun (t : Body) k => t.rset k (b.rget k))
    { r with evt := { r.evt with trg := b.evt.trg, ilk := b.evt.ilk }, pwr := b.pwr, out := b.out, free := b.free }
  x.holdTiles

/-- SEEN is cleared (R335). -/
def Body.clearSeen (b : Body) : Body := b.rsetFld LEG_STATUS 8 8 0

/-- Memory after a reset: fuses stay, device memory with its standing errors where it is kept (R301, R382). -/
def Mem.afterReset (m : Mem) (keep : Bool) : Mem :=
  { onDie := .empty, dev := if keep then m.dev else .empty,
    err := if keep then m.err.dropKeys (fun k => decide (0xF000000000 ≤ k)) else .empty, fuse := m.fuse }

/-- The core clock at its start, or stopped (R24, R25). -/
def clockAt (on : Bool) : Clock := { Clock.reset with on := on }

/-- A reset of everything outside the VAUX island that stops the core clock (R382); it starts again at once unless held. -/
def resetDevice (keep run : Bool) (s : State) : State :=
  let s := fuseLoseWord s
  { s with clock := clockAt run, mem := s.mem.afterReset keep, body := s.body.clearSeen.island }

/-- Rails that MAIN_EN does not switch: LPDDR5X and VAUX (R378). -/
def vauxRails : BitVec 17 := 0x10008

/-- Neap entry ends: the core clock stops, MAIN_EN falls (R388, R389). ANCHORED clears here, with the clock and not at the request: the spec says
"entry to Neap" and no cycle of it (DESIGN CHOICE, assumption 54). -/
def neapDone (s : State) : State :=
  let p := { s.body.pwr with mode := .neap, mainEn := false, rails := vauxRails }
  { s with clock := clockAt false, mem := s.mem.afterReset true, body := ({ s.body with pwr := p } : Body).island }

/-- A device reset (R382): it ends a Neap entry at once; elsewhere the clock restarts unless PERST# is asserted. -/
def deviceReset (s : State) : State :=
  match s.body.pwr.mode with
  | .on => resetDevice true (! s.body.pwr.perst) s
  | .entry => neapDone { s with body := s.body.clearSeen }
  | _ => s

/-- POWER_ON: VAUX enters its range (R382). The levels of pins stay what they are. -/
def execPowerOn (s : State) : Host.Outcome State Fault Refusal :=
  let s := fuseLoseWord s
  let p : PwrSt := { PwrSt.reset with mode := .vaux, mainEn := true, perst := s.body.pwr.perst, rails := 0x10000 }
  let b : Body := { Body.reset with evt := { EvtSt.reset with trg := s.body.evt.trg, ilk := s.body.evt.ilk }, pwr := p, out := s.body.out, free := s.body.free }
  .next { s with clock := clockAt false, mem := s.mem.afterReset false, body := b.rsetBit LEG_STATUS 16 s.body.evt.ilk }

/-- LOSS_OF_VAUX (R382, R386). -/
def execLossOfVaux (s : State) : Host.Outcome State Fault Refusal :=
  let s := fuseLoseWord s
  let p : PwrSt := { PwrSt.reset with mode := .off, mainEn := false, perst := s.body.pwr.perst, rails := 0 }
  let b : Body := { Body.reset with evt := { EvtSt.reset with trg := s.body.evt.trg, ilk := s.body.evt.ilk }, pwr := p, out := s.body.out, free := s.body.free }
  .next { s with clock := clockAt false, mem := s.mem.afterReset false, body := b.rsetBit LEG_STATUS 16 s.body.evt.ilk }

/-- A cold start: everything outside the VAUX island is cleared, device memory is kept after Neap, the core clock starts unless PERST# is
asserted (R301, R382). -/
def coldStart (s : State) : State :=
  let w := s.body.pwr.mode
  if s.body.pwr.mainEn && (w == .vaux || w == .neap || w == .shut) then
    let p := { s.body.pwr with mode := .on, rails := 0x1FFFF, wake := none, refused := false }
    { s with clock := clockAt (! p.perst), mem := s.mem.afterReset (w == .neap), body := ({ s.body with pwr := p } : Body).island }
  else s

/-- COLD_START (R382). -/
def execColdStart (s : State) : Host.Outcome State Fault Refusal := .next (coldStart s)

/-- DEVICE_RESET: a write of GLB_RESET with its key (R432). -/
def writeGlbReset (v : Reg32) (s : State) : State :=
  if bit v 0 && fld v 16 16 == 0x7192 then deviceReset s else { s with body := s.body.reject GLB_STATUS }

/-- DEVICE_RESET (R432). -/
def execDeviceReset (v : Reg32) (s : State) : Host.Outcome State Fault Refusal := .next (writeGlbReset v s)

/-- PERST_ASSERT: a device reset with the core clock stopped until PERST# is deasserted (R382, R383). -/
def execPerstAssert (s : State) : Host.Outcome State Fault Refusal :=
  .next (deviceReset { s with body := { s.body with pwr := { s.body.pwr with perst := true } } })

/-! ### Waking (R390, R395, R337) -/

/-- A wake source: in Neap MAIN_EN rises and WAKE_CAUSE shows it; during Neap entry it waits for the end of the entry (R388, R390). -/
def Body.wakeBy (b : Body) (cause : Nat) : Body :=
  match b.pwr.mode with
  | .neap => { b.rset WAKE_CAUSE (b.rget WAKE_CAUSE ||| r32 cause) with pwr := { b.pwr with mainEn := true } }
  | .entry => { b with pwr := { b.pwr with wake := some ((b.pwr.wake.getD 0) ||| cause) } }
  | _ => b

/-- Shut-down is left no earlier than 100 ms after entry (R395). -/
def Body.leaveShut (b : Body) (aged : Bool) : Body :=
  if b.pwr.mode == .shut && aged then { b with pwr := { b.pwr with mainEn := true } } else b

/-- PERST_DEASSERT: boot starts, or a wake; `aged` says that shut-down has lasted 100 ms (R383, R390, R395). -/
def perstDeassert (aged : Bool) (s : State) : State :=
  if ! s.body.pwr.perst then s
  else
    let b : Body := { s.body with pwr := { s.body.pwr with perst := false } }
    let b := if b.rbit NEAP_CFG 1 then b.wakeBy 4 else b
    { s with clock := if b.pwr.mode == .on then clockAt true else s.clock, body := b.leaveShut aged }

/-- PERST_DEASSERT (R383). -/
def execPerstDeassert (aged : Bool) (s : State) : Host.Outcome State Fault Refusal := .next (perstDeassert aged s)

/-- NEAP_EXIT: a wake source of the entry starts the exit once MAIN_EN has been low for 10 ms (R388). -/
def execNeapExit (s : State) : Host.Outcome State Fault Refusal :=
  nextBody (fun _ b =>
    match b.pwr.mode, b.pwr.wake with
    | .neap, some w => ({ b with pwr := { b.pwr with wake := none } } : Body).wakeBy w
    | _, _ => b) s

/-- LEGACY_RISE: a channel's level rises: SEEN, its event, SAFE, WAKE (R335 to R337). -/
def Body.legacyRise (b : Body) (c : Clock) (k : Nat) (ilk : Bool) : Body :=
  let b := b.setIlk ilk
  if b.pwr.mode == .off || ! b.legRises k then b
  else
    let b := (b.legRise c k).calAbandon c
    if b.rbit (LEG_CFG k) 15 then b.wakeBy (2 + 2 ^ (8 + k)) else b

/-- LEGACY_RISE (R335). -/
def execLegacyRise (k : Fin 8) (ilk : Bool) (s : State) : Host.Outcome State Fault Refusal := nextBody (fun c b => b.legacyRise c k ilk) s

/-- RAIL_FAULT: a rail has been out of range for 10,000 cc: a device reset for VCORE, VCLK and VIO with device memory lost, a tile fault for
VCNV, VANA and VBIAS (R381). The other operands are what the tile's tests show (R415). -/
def railFault (i : Nat) (t : TileTests) (s : State) : State :=
  if s.body.pwr.mode == .off then s
  else
    let s := { s with body := { s.body with pwr := { s.body.pwr with rails := setBit s.body.pwr.rails i false } } }
    if s.body.pwr.mode != .on && s.body.pwr.mode != .entry then s
    else if i < 3 then
      let s := resetDevice false false s
      { s with body := { s.body with pwr := { s.body.pwr with mode := .vaux } } }
    else if 4 ≤ i ∧ i < 16 ∧ s.clock.on then { s with body := s.body.tileFail s.clock ((i - 4) % 4) { t with rail := true } }
    else s

/-- RAIL_FAULT (R381). -/
def execRailFault (i : Fin 17) (link : Bool) (frame : Bool) (clk : BitVec 3) (errTt : BitVec 36) (errs : Nat) (s : State) : Host.Outcome State Fault Refusal :=
  .next (railFault i ⟨link, frame, clk, true, errTt, errs⟩ s)

/-! ### Boot (R383 to R385, R433) -/

/-- STATUS of BOOT_STATUS. -/
def Body.bootStatus (b : Body) : Nat := b.rfld BOOT_STATUS 0 8
def Body.setBoot (b : Body) (v : Nat) : Body := b.rsetFld BOOT_STATUS 0 8 v

/-- HYST in eighths of a degree (R398, R399). -/
def Body.hyst (b : Body) : Int := 8 * b.rfld THM_CTL 0 4

/-- What the ROM finds: the references and whether the PLLs track, its checksum, the Fuse Store identity, the straps, the sensors. -/
structure BootFinds where
  refA : Bool
  refB : Bool
  aligned : Bool
  romOk : Bool
  serial : BitVec 64
  date : BitVec 14
  order : Bool
  straps : BitVec 3
  temps : List (BitVec 11)

/-- Step 1 of R383: the PLLs, the one in use by REF_PREF where its reference is present (R407). -/
def Body.bootRefs (b : Body) (c : Clock) (f : BootFinds) : Body :=
  let b := (b.setRef 0 f.refA f.refA).setRef 1 f.refB f.refB
  let b := b.usePll (if b.refOk b.refPref then b.refPref else 1 - b.refPref)
  ((b.setAligned c (f.aligned && f.refA && f.refB)).rset GLB_STRAPS (f.straps.setWidth 32)).rsetBit REF_STATUS 4 (bit f.straps 0)

/-- Step 2 of R383: the identity, and the standard image in every control store (R239, R431). -/
def Body.bootIdent (b : Body) (f : BootFinds) : Body :=
  let b := (b.rsetPair GLB_SERIAL_LO GLB_SERIAL_HI f.serial.toNat).rset GLB_DATE (f.date.setWidth 32)
  let b := (b.rsetBit GLB_ID 24 f.order).rsetBit GLB_STATUS 0 true
  let b := (List.range 16).foldl (fun b n => (b.clearStores n).rset (MC_VERSION n) 0x80010000) b
  (List.range 4).foldl (fun b k => b.rset (TILE_STATUS k) 0xF) b

/-! ### Temperatures (R392, R393, R399) -/

def Body.sensor (b : Body) (s : Nat) : Sensor := b.thm.sensors.get .reset s
def Body.setSensor (b : Body) (s : Nat) (x : Sensor) : Body := { b with thm := { b.thm with sensors := b.thm.sensors.put .reset s x } }

/-- Reading of a sensor in eighths of a degree. -/
def Body.reading (b : Body) (s : Nat) : Int := sval 11 (b.rfld (TEMP s) 0 11)

/-- The thermal state: the highest level a sensor holds (R393). -/
def Body.thermalState (b : Body) : Nat :=
  let l := b.thm.sensors.entries.map (·.2.held)
  if l.any (·.2) then 2 else if l.any (·.1) then 1 else 0

/-- TEMP_MAX and NEAR follow the sensors: the hottest valid reading, the lowest number among equals (R398, R399). -/
def Body.fixTemps (b : Body) : Body :=
  let valid := (List.range 24).filter (fun s => b.rbit (TEMP s) 15)
  let b := b.rsetBit THM_STATUS 2 ((List.range 24).any (fun s => b.rbit (TEMP s) 14))
  match valid with
  | [] => b
  | h :: t =>
    let m := t.foldl (fun m s => if b.reading m < b.reading s then s else m) h
    b.rset TEMP_MAX (r32 (b.rfld (TEMP m) 0 16 + m * 2 ^ 16))

/-- STEP and THROTTLE_STEP (R396). -/
def Body.fixStep (b : Body) (throttle : Nat) : Body :=
  (b.rsetFld GOV_STATUS 5 5 throttle).rsetFld GOV_STATUS 0 5 (max throttle (b.rfld GOV_CTL 0 5))

def Body.throttleStep (b : Body) : Nat := b.rfld GOV_STATUS 5 5

/-- THROTTLE_STEP rises by one, up to 16 (R396). -/
def Body.stepUp (b : Body) : Body :=
  if b.throttleStep < 16 then (b.fixStep (b.throttleStep + 1)).count THROTTLE_COUNT 1 else b

/-- The thermal state is worked out anew; entry to Throttle raises THROTTLE_STEP and starts its period, leaving it starts the longer one
(R396). -/
def Body.fixState (b : Body) (c : Clock) : Body :=
  let was := b.rfld THM_STATUS 0 2
  let now := b.thermalState
  let b := b.rsetFld THM_STATUS 0 2 now
  if now = 2 ∧ was ≠ 2 then { b.stepUp with thm := { b.thm with stepAt := c.cyc + 10000000 } }
  else if now ≠ 2 ∧ was = 2 then { b with thm := { b.thm with stepAt := c.cyc + 100000000 } }
  else b

/-- A level is entered: sticky bit, fault record, event (R393). `l` is 1 Warning, 2 Throttle. -/
def Body.levelEntry (b : Body) (c : Clock) (s l : Nat) : Body :=
  let b := b.stick THM_STATUS (8 + l)
  let b := b.fault c 0x0D (l * 2 ^ 8 + s * 2 ^ 16) (b.rnat (TEMP s))
  if b.rbit THM_CTL 16 then b.publish c (b.rfld THM_CTL 10 6) 0 0 false else b

/-- A dwell still holds. -/
def dwelling (c : Clock) (d : Option Nat) : Bool :=
  match d with
  | some t => decide (c.cyc < t)
  | none => false

/-- LEVEL and DWELL of a sensor's register (R399). -/
def Body.fixLevel (b : Body) (s : Nat) : Body :=
  let x := b.sensor s
  (b.rsetFld (TEMP s) 11 2 (if x.held.2 then 2 else if x.held.1 then 1 else 0)).rsetBit (TEMP s) 13 (x.dwell.1.isSome || x.dwell.2.isSome)

/-- One more sample in a run, or none. -/
def runOf (on : Bool) (n : Nat) : Nat := if on then n + 1 else 0

/-- A sample on the path in use: entries and exits of Warning and Throttle (R393). -/
def Body.levels (b : Body) (c : Clock) (s : Nat) (t : Int) : Body :=
  let x := b.sensor s
  let hi := (runOf (decide (760 ≤ t)) x.hi.1, runOf (decide (800 ≤ t)) x.hi.2.1, runOf (decide (880 ≤ t)) x.hi.2.2)
  let lo := (runOf (decide (t < 760 - b.hyst)) x.lo.1, runOf (decide (t < 800 - b.hyst)) x.lo.2)
  let in1 := ! x.held.1 && decide (4 ≤ hi.1) && ! dwelling c x.dwell.1
  let in2 := ! x.held.2 && decide (4 ≤ hi.2.1) && ! dwelling c x.dwell.2
  let out1 := x.held.1 && decide (4 ≤ lo.1)
  let out2 := x.held.2 && decide (4 ≤ lo.2)
  let d (out : Bool) (old : Option Nat) : Option Nat := if out then some (c.cyc + 100000000) else old
  let y : Sensor := ⟨hi, lo, ((x.held.1 || in1) && ! out1, (x.held.2 || in2) && ! out2), (d out1 x.dwell.1, d out2 x.dwell.2)⟩
  let b := (b.setSensor s y).fixLevel s
  let b := if in1 then b.levelEntry c s 1 else b
  let b := if in2 then b.levelEntry c s 2 else b
  b.fixState c

/-- A reading from the path in use reaches its register (R399). -/
def Body.setReading (b : Body) (s : Nat) (t : BitVec 11) : Body :=
  let b := (b.rsetFld (TEMP s) 0 11 t.toNat).rsetBit (TEMP s) 15 true
  b.rsetBit (TEMP s) 14 (decide (720 ≤ sval 11 t.toNat))

/-- Every port of every tile goes Safe at once; the word being written to the fuses completes; the core clock stops and MAIN_EN falls
(R395). -/
def shutDown (s : State) : State :=
  let s := fuseFinishWord { s with body := (List.range 4).foldl (fun b k => b.tileOff s.clock k) s.body }
  let p := { s.body.pwr with mode := .shut, mainEn := false, rails := vauxRails, wake := none }
  { s with clock := clockAt false, mem := s.mem.afterReset false, body := ({ s.body with pwr := p } : Body).island }

/-- A sample of sensor `s` on the path in use (R393). -/
def thermalSample (s : Nat) (t : BitVec 11) (st : State) : State :=
  let b := (st.body.setReading s t).levels st.clock s (sval 11 t.toNat)
  let st := { st with body := b.fixTemps }
  if 4 ≤ (b.sensor s).hi.2.2 then shutDown st else st

/-- TEMP_SAMPLE: a sample of the fast loop, which Harbour runs (R392, R393). While FALLBACK is set it counts towards clearing it only. -/
def tempSample (s : Nat) (t : BitVec 11) (st : State) : State :=
  if ! st.clock.on || ! st.body.rbit FLT_STATUS 5 then st
  else
    let b := st.body
    let thm := { b.thm with last := st.clock.cyc, seen := setBit b.thm.seen s true }
    let b : Body := { b with thm := thm }
    if ! b.rbit THM_STATUS 3 then thermalSample s t { st with body := b }
    else if thm.seen = 0xFFFFFF then
      let b : Body := { b with thm := { thm with seen := 0, sensors := thm.sensors.mapVals .reset (fun x => { x with hi := (0, 0, 0), lo := (0, 0) }) } }
      let b := (List.range 24).foldl (fun b s => b.rsetBit (TEMP s) 15 false) (b.rsetBit THM_STATUS 3 false)
      thermalSample s t { st with body := b }
    else { st with body := b }

/-- TEMP_SAMPLE (R393). -/
def execTempSample (s : Fin 24) (t : BitVec 11) (st : State) : Host.Outcome State Fault Refusal := .next (tempSample s t st)

/-- HOUSEKEEPING: the round samples every sensor and supply monitor; it is the path in use while FALLBACK is set (R392). -/
def housekeeping (temps : List (BitVec 11)) (rails : BitVec 17) (s : State) : State :=
  if ! s.clock.on then s
  else
    let s := { s with body := { s.body with pwr := { s.body.pwr with rails := rails } } }
    (temps.take 24).zipIdx.foldl (fun s e => if s.clock.on && s.body.rbit THM_STATUS 3 then thermalSample e.2 e.1 s else s) s

/-- HOUSEKEEPING (R392). -/
def execHousekeeping (temps : List (BitVec 11)) (rails : BitVec 17) (s : State) : Host.Outcome State Fault Refusal := .next (housekeeping temps rails s)

/-- FALLBACK: the fast loop has updated no sensor for 3 ms (R392). -/
def execFallback (s : State) : Host.Outcome State Fault Refusal :=
  nextBody (fun c b => if c.on && decide (b.thm.last + 3000000 ≤ c.cyc) then b.setFallback else b) s

/-- DWELL_END: 100 ms after a sensor left a level its dwell ends (R393). -/
def Body.dwellEnd (b : Body) (c : Clock) (s : Nat) : Body :=
  let x := b.sensor s
  let f (d : Option Nat) : Option Nat := if dwelling c d then d else none
  (b.setSensor s { x with dwell := (f x.dwell.1, f x.dwell.2) }).fixLevel s

/-- DWELL_END (R393). -/
def execDwellEnd (s : Fin 24) (st : State) : Host.Outcome State Fault Refusal := nextBody (fun c b => b.dwellEnd c s) st

/-! ### Boot, continued -/

/-- Step 3 of R383: THERMAL while a sensor reads at or above 110 °C − HYST, else WAIT_FW. -/
def Body.bootThermal (b : Body) (temps : List (BitVec 11)) : Body :=
  let b := (temps.take 24).zipIdx.foldl (fun b e => b.setReading e.2 e.1) b
  let hot := (temps.take 24).any (fun t => decide (880 - b.hyst ≤ sval 11 t.toNat))
  b.fixTemps.setBoot (if hot then 0x86 else 1)

/-- BOOT: the ROM runs on from ROM_RUNNING or THERMAL (R383, R385). -/
def Body.boot (b : Body) (c : Clock) (f : BootFinds) : Body :=
  if b.bootStatus = 0x86 then b.bootThermal f.temps
  else if b.bootStatus ≠ 0 then b
  else
    let b := b.bootRefs c f
    if ! f.refA && ! f.refB then b.setBoot 0x80
    else if ! f.romOk then b.setBoot 0x81
    else (b.bootIdent f).bootThermal f.temps

/-- BOOT (R383). -/
def execBoot (refA : Bool) (refB : Bool) (aligned : Bool) (romOk : Bool) (serial : BitVec 64) (date : BitVec 14) (order : Bool) (straps : BitVec 3) (temps : List (BitVec 11)) (s : State) : Host.Outcome State Fault Refusal :=
  nextBody (fun c b => if c.on then b.boot c ⟨refA, refB, aligned, romOk, serial, date, order, straps, temps⟩ else b) s

/-- The image is refused: LAST_ERR, and back to WAIT_FW (R433). -/
def Body.fwRefuse (b : Body) (code : Nat) : Body := (b.rsetFld BOOT_STATUS 8 8 code).setBoot 1

/-- A write of BOOT_CMD (R433). -/
def Body.writeBootCmd (b : Body) (v : Reg32) : Body :=
  if ! bit v 0 then b
  else if b.bootStatus ≠ 1 then b.reject GLB_STATUS
  else
    let b := (b.rsetFld BOOT_STATUS 8 8 0).rset BOOT_DETAIL 0
    let n := b.rfld BOOT_LEN 0 23
    if b.rpair BOOT_ADDR_LO BOOT_ADDR_HI % 64 ≠ 0 ∨ n < 352 ∨ 4194592 < n then b.fwRefuse 0x82 else b.setBoot 2

/-- GO (R433). -/
def execGo (v : Reg32) (s : State) : Host.Outcome State Fault Refusal := nextBody (fun _ b => b.writeBootCmd v) s

/-- Form of a firmware image (R384, R433). -/
def fwForm (l : List Byte) (len : Nat) : Bool :=
  let body := imgFld l 12 4
  imgFld l 0 4 == 0x48574246 && imgFld l 4 2 == 1 && imgFld l 6 1 == 1 && decide (imgFld l 7 1 ≤ 1) && body % 64 == 0 &&
  decide (64 ≤ body) && decide (body ≤ 4194304) && len == 0xC0 + body + 96 && imgZero l 0x10 48 && imgKeyForm l

/-- The ROM's verdict on the image: form, key, signature; or Harbour starts and applies the fuse calibration (R384, R385, R370). -/
def Body.fwCheck (b : Body) (c : Clock) (m : Mem) (img : Option (List Byte)) (off : Nat) : Body :=
  if b.bootStatus ≠ 2 then b
  else
    match img with
    | none => (b.rset BOOT_DETAIL (r32 off)).fwRefuse 0x85
    | some l =>
      let n := b.rfld BOOT_LEN 0 23
      let b := b.hostRead n
      if ! fwForm l n then b.fwRefuse 0x82
      else if ! m.keyOk (imgFld l 7 1 == 1) (imgKey l) then b.fwRefuse 0x83
      else if ! imgSigned l (imgFld l 12 4) then b.fwRefuse 0x84
      else
        let b := ((b.setBoot 4).rset FW_VERSION (r32 (imgFld l 8 4))).rsetBit FLT_STATUS 5 true
        { b.calBoot m with thm := { b.thm with fwAt := c.cyc, last := c.cyc } }

/-- FW_CHECK_DONE: the image as read, or the offset of the read that failed (R384, R385). -/
def execFwCheckDone (img : Option (List Byte)) (off : Nat) (s : State) : Host.Outcome State Fault Refusal :=
  nextBody (fun c b => if c.on then b.fwCheck c s.mem img off else b) s

/-- FW_READY: calibration applied, device memory trained (R385). -/
def execFwReady (s : State) : Host.Outcome State Fault Refusal :=
  nextBody (fun _ b => if b.bootStatus = 4 ∧ b.memReady ∧ b.rbit FLT_STATUS 5 then b.setBoot 5 else b) s

/-! ### Neap (R387 to R389) -/

/-- The conditions of a Neap request (R387). -/
def Body.neapOk (b : Body) : Bool :=
  ! b.gridRun && b.fuseWr.isNone && b.cal.runs.isEmpty && b.mcLoads.isEmpty &&
  ! (List.range 8).any (fun k => b.rbit LEG_STATUS k && b.rbit (LEG_CFG k) 15)

/-- Every descriptor fetched leaves with no record, polling stops (R263, R388). -/
def Body.dropHost (b : Body) : Body :=
  { b with host := { HostSt.reset with order := b.host.order, rr := b.host.rr, heldWrites := b.host.heldWrites, commitMark := b.host.commitMark } }

/-- Every populated interface enters self-refresh (R301, R388). -/
def Body.selfRefresh (b : Body) : Body :=
  (List.range 4).foldl (fun b k => if b.rbit MEM_CFG k then b.rsetBit (MC_STATUS k) 1 true else b) b

/-- An accepted request: steps 1 to 4 of R388; the clock stops when the entry ends, within 2,000,000 cc. -/
def Body.enterNeap (b : Body) (c : Clock) : Body :=
  let b := (List.range 4).foldl (fun b k => b.tileOff c k) b
  let b := ((b.dropHost.rsetBit HST_STATUS 0 false).selfRefresh).rsetBit RING_CTL 6 false
  let b := (b.rset WAKE_CAUSE 0).clearSeen
  let p := { b.pwr with mode := .entry, entryEnd := c.cyc + 1 + b.openValue.toNat % 2000000, wake := none }
  { b.draw with pwr := p }

/-- A request for Neap (R387). -/
def Body.neapRequest (b : Body) (c : Clock) : Body := if b.neapOk then b.enterNeap c else b.reject PMC_STATUS

/-- A write of PMC_CTL (R387, R400). -/
def Body.writePmcCtl (b : Body) (c : Clock) (v : Reg32) : Body :=
  if bit v 0 && b.pwr.mode == .on then b.neapRequest c else b

/-- NEAP_REQ (R387). -/
def execNeapReq (v : Reg32) (s : State) : Host.Outcome State Fault Refusal := nextBody (fun c b => b.writePmcCtl c v) s

/-- Neap entry ends in its cycle (R388). -/
def neapTick (s : State) : State :=
  if s.body.pwr.mode == .entry && decide (s.body.pwr.entryEnd ≤ s.clock.cyc) then neapDone s else s

/-! ### SMBus (R391) -/

/-- The port is served in every state in which VAUX is in range. -/
def smbus (f : State → State) (s : State) : Host.Outcome State Fault Refusal := .next (if s.body.pwr.mode == .off then s else f s)

/-- A value read over SMBus. -/
def smbusRead (v : Nat) (s : State) : State := { s with body := s.body.emitOut (.smbus v true) }

/-- State of the device as READ_STATE gives it: booting until firmware is ready. -/
def Body.stateCode (b : Body) : Nat :=
  match b.pwr.mode with
  | .neap => 2
  | .shut => 3
  | .entry => 4
  | .on => if b.fwReady then 1 else 0
  | _ => 0

/-- READ_STATE; a rejected NEAP shows once in bit 7 (R391). -/
def execReadState (s : State) : Host.Outcome State Fault Refusal :=
  smbus (fun s =>
    let t := smbusRead (s.body.stateCode + if s.body.pwr.refused then 128 else 0) s
    { t with body := { t.body with pwr := { t.body.pwr with refused := false } } }) s

/-- READ_TEMP (R391). -/
def execReadTemp (s : State) : Host.Outcome State Fault Refusal :=
  smbus (fun s => smbusRead (if s.body.pwr.mode == .on || s.body.pwr.mode == .entry then s.body.rfld TEMP_MAX 0 16 else 0x8000) s) s

/-- WAKE: in Neap if WAKE_SMB is set, in shut-down 100 ms after its entry (R390, R391, R395). -/
def execWake (aged : Bool) (s : State) : Host.Outcome State Fault Refusal :=
  smbus (fun s =>
    let b := if s.body.rbit NEAP_CFG 0 then s.body.wakeBy 1 else s.body
    { s with body := (b.leaveShut aged).emitOut (.smbus 0 true) }) s

/-- NEAP (R387, R391). -/
def execNeap (s : State) : Host.Outcome State Fault Refusal :=
  smbus (fun s =>
    let b := s.body.emitOut (.smbus 0 true)
    if b.pwr.mode != .on || ! s.clock.on then { s with body := b }
    else
      let no := ! b.neapOk
      let b := b.neapRequest s.clock
      { s with body := { b with pwr := { b.pwr with refused := b.pwr.refused || no } } }) s

/-- RESET: a device reset, ignored in Neap and shut-down (R382, R391). -/
def execReset (s : State) : Host.Outcome State Fault Refusal :=
  smbus (fun s => deviceReset { s with body := s.body.emitOut (.smbus 0 true) }) s

/-- READ_RAILS (R391). -/
def execReadRails (s : State) : Host.Outcome State Fault Refusal := smbus (fun s => smbusRead (fld s.body.pwr.rails 0 16) s) s
/-- READ_LEG (R391). -/
def execReadLeg (s : State) : Host.Outcome State Fault Refusal := smbus (fun s => smbusRead (s.body.rfld LEG_STATUS 0 16) s) s
/-- WRITE_LEG_SW (R391). -/
def execWriteLegSw (v : BitVec 8) (s : State) : Host.Outcome State Fault Refusal :=
  smbus (fun s => { s with body := (s.body.rset LEG_SW (v.setWidth 32)).emitOut (.smbus 0 true) }) s

/-! ### Rate of rise (R394) -/

/-- The rate of tile `k` from the sum of its two sensors now and 1 s ago, in units of 0.01 °C/s; its rounding is open. -/
def riseRate (d : Int) (up : Bool) : Int := shrOpen (25 * d) 2 up

/-- A rate is compared with RISE_LIMIT (R394). -/
def Body.riseTest (b : Body) (c : Clock) (k : Nat) (d : Int) : Body :=
  let x := b.thm.tiles.get .reset k
  let above := decide (16 * (b.rfld THM_CTL 4 6 : Int) < 10 * d)
  let hi := runOf above x.hi
  let lo := runOf (! above) x.lo
  let free := ! x.tripped || (match x.rearm with
    | some t => decide (t ≤ c.cyc)
    | none => false)
  let rearm := if x.tripped && x.rearm.isNone && decide (4 ≤ lo) then some (c.cyc + 100000000) else x.rearm
  let trip := free && decide (4 ≤ hi)
  let y : RiseSt := { x with hi := hi, lo := lo, tripped := trip || ! free, rearm := if trip || free then none else rearm }
  let b := b.rset (RISE_TILE k) (r32 (wrap 16 (riseRate d (bit b.openValue 0))))
  let b : Body := { b.draw with thm := { b.thm with tiles := b.thm.tiles.put .reset k y } }
  if trip then ((b.stick THM_STATUS (12 + k)).fault c 0x0E (k * 2 ^ 8) (b.rnat (RISE_TILE k))).driftRequest k else b

/-- RISE_EVAL: Harbour evaluates the rate of a tile, not in the first second after firmware started (R394). -/
def Body.riseEval (b : Body) (c : Clock) (k : Nat) : Body :=
  if ! b.rbit FLT_STATUS 5 then b
  else
    let x := b.thm.tiles.get .reset k
    let now := b.reading (16 + 2 * k) + b.reading (17 + 2 * k)
    let old := x.hist.find? (fun e => decide (e.1 + 1000000000 ≤ c.cyc))
    let keep := match old with
      | some o => x.hist.filter (fun e => decide (o.1 ≤ e.1))
      | none => x.hist
    let b : Body := { b with thm := { b.thm with tiles := b.thm.tiles.put .reset k { x with hist := (c.cyc, now) :: keep } } }
    match old with
    | some o => if b.thm.fwAt + 1000000000 ≤ c.cyc then b.riseTest c k (now - o.2) else b
    | none => b

/-- RISE_EVAL (R394). -/
def execRiseEval (k : Fin 4) (s : State) : Host.Outcome State Fault Refusal := nextBody (fun c b => if c.on then b.riseEval c k else b) s

/-! ### Power Governor (R396, R397) -/

/-- THROTTLE_STEP: it rises every 10 ms in Throttle and falls every 100 ms below (R396). -/
def Body.stepDue (b : Body) (c : Clock) : Body :=
  if c.cyc < b.thm.stepAt then b
  else if b.rfld THM_STATUS 0 2 = 2 then { b.stepUp with thm := { b.thm with stepAt := b.thm.stepAt + 10000000 } }
  else if b.throttleStep = 0 then b
  else { b.fixStep (b.throttleStep - 1) with thm := { b.thm with stepAt := b.thm.stepAt + 100000000 } }

/-- THROTTLE_STEP (R396). -/
def execThrottleStep (s : State) : Host.Outcome State Fault Refusal := nextBody (fun c b => if c.on then b.stepDue c else b) s

def Body.shedLevel (b : Body) : Nat := b.rfld GOV_STATUS 10 3

/-- A change of SHED_LEVEL that waits is made; level 1 sheds scope capture (R353, R397). -/
def Body.shedCommit (b : Body) (c : Clock) : Body :=
  match b.thm.shed with
  | none => b
  | some up =>
    let l := if up then min 5 (b.shedLevel + 1) else b.shedLevel - 1
    let b : Body := { b.rsetFld GOV_STATUS 10 3 l with thm := { b.thm with shed := none } }
    b.scopeShed c (decide (1 ≤ l))

/-- The limit L in sixteenths of a watt (R396). -/
def Body.powerLimit (b : Body) : Nat := 3200 - 128 * b.rfld GOV_STATUS 0 5

/-- POWER_SAMPLE: a new POWER_NOW (R396, R397). -/
def Body.powerSample (b : Body) (c : Clock) (p : Nat) : Body :=
  let b := (b.rset POWER_NOW (r32 p)).rset POWER_PEAK (r32 (max p (b.rnat POWER_PEAK)))
  let l := b.powerLimit
  let low := decide (p + 128 < l)
  let since := b.thm.below.getD c.cyc
  let fall := low && decide (since + 100000000 ≤ c.cyc)
  let below := if fall then some c.cyc else if low then some since else none
  let shed := if l < p ∧ b.shedLevel < 5 then some true
    else if fall && decide (0 < b.shedLevel) then some false else b.thm.shed
  let b : Body := { b with thm := { b.thm with below := below, shed := shed } }
  if b.gridRun then b else b.shedCommit c

/-- POWER_SAMPLE (R397). -/
def execPowerSample (p : BitVec 16) (s : State) : Host.Outcome State Fault Refusal :=
  nextBody (fun c b => if c.on then b.powerSample c p.toNat else b) s

/-- Number under which a port or cove is parked. -/
def parkKey : ParkRef → Nat
  | .port p => p.parkKey
  | .cove n => 128 + n

/-- Engines all STOPPED, SPARE or FAILED (R397). -/
def Body.coveQuiet (b : Body) (n : Nat) : Bool :=
  (List.range 12).all (fun e => let st := b.engState (12 * n + e); st == 0 || st == 5 || st == 6)

/-- A port with something in its queue or an open window, a cove with an engine at work: busy for parking (R397). -/
def Body.parkBusy (b : Body) (c : Clock) (k : Nat) : Bool :=
  if k < 112 then ! (b.comp k).queue.isEmpty
  else if k < 128 then ! (b.recv (k - 112)).queue.isEmpty || (b.recv (k - 112)).wins.any (·.openNow c)
  else ! b.coveQuiet (k - 128)

/-- Parking holds: level 4 is reached and PARK_EN is set (R397). -/
def Body.parking (b : Body) : Bool := decide (4 ≤ b.shedLevel) && b.rbit GOV_CTL 5

/-- PARK: at level 4 and with PARK_EN, a port or cove idle for 10 ms is parked, outside shots: a port's core goes off while CORE_EN stays (R19,
R397). -/
def Body.park (b : Body) (c : Clock) (t : ParkRef) : Body :=
  let k := parkKey t
  let ok := match t with
    | .port p => p.ok && b.rbit p.ctl 0
    | .cove n => decide (n < 16)
  if ! b.parking ∨ (b.gridRun ∧ ! b.inSlack c.now) ∨ ! ok ∨ b.thm.parked.contains k ∨ b.parkBusy c k ∨
    c.cyc < b.thm.busy.get 0 k + 10000000 then b
  else
    let b : Body := { b with thm := { b.thm with parked := b.thm.parked ++ [k] } }
    match t with
    | .port p => b.toSafe p
    | .cove _ => b

/-- PARK (R397). -/
def execPark (t : ParkRef) (s : State) : Host.Outcome State Fault Refusal := nextBody (fun c b => if c.on then b.park c t else b) s

/-- The port a number stands for. -/
def portOfKey (k : Nat) : PortRef := if k < 80 then .dp k else if k < 112 then .fx (k - 80) else .rx (k - 112)

/-- A parked port whose queue has taken a command starts its core again; a cove that works again is ungated (R397). -/
def Body.unpark (b : Body) (c : Clock) (k : Nat) : Body :=
  let b : Body := { b with thm := { b.thm with parked := b.thm.parked.filter (· ≠ k) } }
  if k < 128 ∧ b.rbit (portOfKey k).ctl 0 then b.coreStart c (portOfKey k) else b

/-- In each cycle: who is busy, and who leaves parking: what is busy, and everything once parking no longer holds (R397). -/
def Body.parkTick (b : Body) (c : Clock) : Body :=
  let busy := (List.range 144).filter (fun k => b.parkBusy c k)
  let b : Body := { b with thm := { b.thm with busy := busy.foldl (fun m k => m.put 0 k c.cyc) b.thm.busy } }
  (b.thm.parked.filter (fun k => ! b.parking || busy.contains k)).foldl (fun b k => b.unpark c k) b

/-! ### Host-side resets (R263, R264) and BAR2 (R262) -/

/-- Registers of HST, the MSI-X table and the PBA return to their reset values. -/
def Body.resetHst (b : Body) : Body :=
  let hst (k : Nat) : Bool := decide (0x10000 ≤ k) && decide (k < 0x20000)
  { b with regs := b.regs.dropKeys hst, staged := b.staged.dropKeys hst,
           log := { b.log with sets := b.log.sets.dropKeys hst, incs := b.log.incs.dropKeys hst } }

/-- Calibrations and the fuse write after a host-side reset: queued ones dropped, running ones without a descriptor; a fuse write goes on once its first word
has been written (R264). -/
def Body.orphan (b : Body) : Body :=
  let b : Body := { b with cal := { b.cal with queue := b.cal.queue.filter (fun q => q.desc.isNone), runs := b.cal.runs.map (fun x => { x with req := { x.req with desc := none } }) } }
  match b.fuseWr with
  | some x => { b with fuseWr := if x.begun then some { x with desc := none } else none }
  | none => b

/-- HOST_RESET (R263, R264): loads of microcode not yet writing are dropped, bindings lose their host halves. -/
def Body.hostReset (b : Body) (c : Clock) : Body :=
  let b := b.resetHst.dropHost
  let b := ({ b with mcLoads := [] } : Body).loadingBits
  (List.range 256).foldl (fun b k => b.loseHost c (k / 16) (k % 16)) b.orphan

/-- HOST_RESET (R263). -/
def execHostReset (s : State) : Host.Outcome State Fault Refusal := nextBody (fun c b => b.hostReset c) s

/-- Replace `n` bytes of a line from byte `o`. -/
def patchLine (l : BitVec 512) (o : Nat) (bytes : List Byte) : BitVec 512 :=
  setFld l (8 * o) (8 * bytes.length) (ofBytes bytes)

/-- BAR2 write, line by line: a whole line is written, part of one by read-modify-write, a line with an uncorrectable error not (R262,
R305). -/
def bar2Write : Nat → Nat → List Byte → State → State
  | 0, _, _, s => s
  | fuel + 1, a, bytes, s =>
    if bytes.isEmpty then s
    else
      let o := a % 64
      let part := bytes.take (64 - o)
      let base := a - o
      let s := if part.length = 64 then devWrite s base (BitVec.ofNat 512 (ofBytes part))
        else
          let r := devRead s base
          match r.1 with
          | some l => devWrite r.2 base (patchLine l o part)
          | none => r.2
      bar2Write fuel (base + 64) (bytes.drop (64 - o)) s

/-- BAR2 read of `n` bytes: none where a line has an uncorrectable error (R262). -/
def bar2Read : Nat → Nat → Nat → State → Option (List Byte) × State
  | 0, _, _, s => (some [], s)
  | fuel + 1, a, n, s =>
    if n = 0 then (some [], s)
    else
      let o := a % 64
      let k := min n (64 - o)
      let r := devRead s (a - o)
      match r.1 with
      | none => (none, r.2)
      | some l =>
        let t := bar2Read fuel (a + k) (n - k) r.2
        (t.1.map (fun x => ((lineBytes l).drop o).take k ++ x), t.2)

/-- BAR2_ACCESS: offset `o` of the window; a write of bytes, or a read of `n` (R262, R300). -/
def bar2 (write : Bool) (o n : Nat) (bytes : List Byte) (s : State) : State :=
  let a := s.body.rfld BAR2_WIN 0 12 * 2 ^ 28 + o
  let len := if write then bytes.length else n
  if ! s.body.memReady || ! s.body.inDev a len then { s with body := s.body.emitOut .unsupported }
  else if write then bar2Write (len + 1) a bytes s
  else
    let r := bar2Read (len + 1) a n s
    { r.2 with body := r.2.body.emitOut (match r.1 with
      | some l => .bar2 l
      | none => .poisoned) }

/-- BAR2_ACCESS (R262). -/
def execBar2Access (write : Bool) (o : BitVec 28) (n : Nat) (bytes : List Byte) (s : State) : Host.Outcome State Fault Refusal :=
  .next (bar2 write o.toNat n bytes s)

end Sys2Proof.Machine
end

