-- ==== Sys2Proof/Machine/Ring.lean ====
section
/-! DEFINITION. The Tide Ring: receiving frames, link delay, the servo, Lighthouse roles, wrap and recovery (R50 to R85). -/

namespace Sys2Proof.Machine

/-! ### Small facts -/

/-- This device acts as the Lighthouse of an open ring. -/
def Body.actingLh (b : Body) : Bool := b.ringEn && b.rbit RING_STATUS 4
/-- The role in force: a change between member and standby waits for a commit point (R85). -/
def Body.role (b : Body) : Nat := b.ring.roleStaged.getD (b.rfld RING_CTL 4 2)
/-- SYNC_INTERVAL in ns or cc (R85). -/
def Body.syncNs (b : Body) : Nat := b.rfld SYNC_CFG 0 4 * 1000
/-- Ingress delay of a ring input in 1/16 ns (R61). -/
def Body.ingress (b : Body) (ringB : Bool) : Nat := b.rfld (if ringB then LINK_B_IN else LINK_A_IN) 0 20
/-- ASYM_MISMATCH: the constants of a link pair differ at its two ends (R61). -/
def Body.asymMismatch (b : Body) : Bool :=
  (match b.ring.nbUp with | some x => x != b.rfld ASYM_UP 0 16 | none => false) ||
  (match b.ring.nbDn with | some x => x != b.rfld ASYM_DN 0 16 | none => false)

/-- Start a Tide break, unless one holds (R73). -/
def Body.tideBreakNow (b : Body) (c : Clock) : Body := if b.tideBreak then b else b.startBreak c

/-- Set ASYM_SUSPECT; the round trips that a confirm needs are counted anew (R77, R78). -/
def Body.suspect (b : Body) : Body :=
  if b.rbit RING_STATUS 7 then b
  else { (b.rsetBit RING_STATUS 7 true) with ring := { b.ring with newUp := 0, newDn := 0 } }

/-- Does any device of the group report ASYM_SUSPECT (R78)? -/
def Body.anySuspect (b : Body) : Bool := b.rbit RING_STATUS 7 || b.ring.status.entries.any (fun e => bit (e.2.getD 0) 3)

/-- While any member reports ASYM_SUSPECT a member freezes its servo and stages the nominal increment (R78). -/
def Body.freeze (b : Body) (c : Clock) : Body :=
  if b.anySuspect && ! b.rbit RING_STATUS 6 && ! b.actingLh then
    (b.rsetBit RING_STATUS 6 true).stageInc c 0x01000000
  else b

/-- RING_LOCK: block lock on both inputs, or on one with a wrap; 8 round trips on each live pair; no DUP_ID (R82). A member counts in
MEMBER_LOCK by its last STATUS for as long as the ring is open (DESIGN CHOICE, assumption 54). -/
def Body.lockUpdate (b : Body) : Body :=
  let a := b.rbit RING_STATUS 0
  let bb := b.rbit RING_STATUS 1
  let live := (a && bb) || ((a || bb) && b.rbit RING_STATUS 3)
  let trips := (! a || decide (8 ≤ b.ring.rttUp.length)) && (! bb || decide (8 ≤ b.ring.rttDn.length))
  let b := b.rsetBit RING_STATUS 2 (live && trips && ! b.rbit RING_STATUS 12)
  let own := if b.rbit RING_STATUS 2 then 2 ^ b.devId else 0
  let others := (b.ring.status.entries.filter (fun e => bit (e.2.getD 0) 0 && e.1 != b.devId)).map (fun e => 2 ^ e.1)
  if b.ringEn then b.rset MEMBER_LOCK (r32 (own + others.sum)) else b

/-- STATUS of a LINK frame (R55). -/
def Body.linkStatus (b : Body) : BitVec 5 :=
  BitVec.ofNat 5 ((if b.rbit RING_STATUS 2 then 1 else 0) + (if b.anchored then 2 else 0) +
    (if b.rbit RING_STATUS 3 then 4 else 0) + (if b.rbit RING_STATUS 7 then 8 else 0) + (if b.tideBreak then 16 else 0))

/-- Send LINK on both rings (R55, R82). -/
def Body.sendLink (b : Body) (hello : Bool) : Body :=
  let st := b.linkStatus
  let d1 := b.ring.nonce.toNat + b.rfld ASYM_DN 0 16 * 2 ^ 16 + b.rfld ASYM_UP 0 16 * 2 ^ 32 + st.toNat * 2 ^ 48
  let b := b.sendBoth 0xC 0 true (if hello then 1 else 0) d1 0 0
  { b with ring := { b.ring with lastStatus := st } }

/-- A change of STATUS is reported in a LINK frame (R77). -/
def Body.reportStatus (b : Body) : Body :=
  if b.canSend && b.linkStatus != b.ring.lastStatus then b.sendLink false else b

/-! ### Terms (R71) -/

/-- A Lighthouse frame: one only the acting Lighthouse sends. -/
def lhFrame (t : Nat) : Bool := t == 1 || t == 5 || t == 7 || t == 0xA || t == 0xB

/-- Own class-0 frames that wait leave no more (R71). -/
def Body.dropClass0 (b : Body) : Body :=
  let keep (e : TxEntry) : Bool := ! (frameClass e.frame.type.toNat == 0 && e.frame.src.toNat == b.devId)
  { b with ring := { b.ring with txA := b.ring.txA.filter keep, txB := b.ring.txB.filter keep } }

/-- The device loses its role as Lighthouse: it becomes a member and stops sending class-0 frames (R71). -/
def Body.depose (b : Body) (c : Clock) : Body :=
  if b.rbit RING_STATUS 4 then (b.dropClass0.rsetBit RING_STATUS 4 false).ringFlag c 11 else b

/-- Follow the highest term seen; of two Lighthouses of one term the lower SRC wins (R71). A class-0 frame of the Lighthouse
followed ends its silence (R70). -/
def Body.follow (b : Body) (c : Clock) (f : Frame) : Body :=
  let t := b.rfld RING_STATUS 24 8
  let lh := lhFrame f.type.toNat
  let wins := decide (t < f.term.toNat) ||
    (lh && decide (f.term.toNat = t) && (! b.ring.lhKnown || decide (f.src.toNat < b.rfld RING_STATUS 20 4)))
  let b := if wins then
      let b := (b.depose c).rsetFld RING_STATUS 24 8 f.term.toNat
      if lh then { (b.rsetFld RING_STATUS 20 4 f.src.toNat) with ring := { b.ring with lhKnown := true } }
      else { b with ring := { b.ring with lhKnown := false } }
    else b
  if lh && b.ring.lhKnown && decide (f.src.toNat = b.rfld RING_STATUS 20 4) && decide (t ≤ f.term.toNat) then
    { b with ring := { b.ring with lastLh := c.cyc } }
  else b

/-- The frame comes from the Lighthouse this device follows. -/
def Body.fromLh (b : Body) (f : Frame) : Bool := b.ring.lhKnown && decide (f.src.toNat = b.rfld RING_STATUS 20 4)

/-! ### Accepting a frame (R56) -/

/-- What the rules of R56 make of a received frame: the body, whether it is delivered, and the copy accepted before. -/
structure Accepted where
  body : Body
  deliver : Bool
  first : Option SeenFrame

/-- A copy of the same frame accepted from the other ring within 4,096 cc (R56 rule 7). -/
def Body.seenBefore (b : Body) (c : Clock) (rx : Rx) : Option SeenFrame :=
  b.ring.seen.find? (fun x => x.ringB != rx.ringB && x.src == rx.frame.src && x.type == rx.frame.type &&
    x.seq == rx.frame.seq && decide (c.cyc ≤ x.at_ + 4096))

/-- Remember an accepted frame; those older than 4,096 cc are forgotten. -/
def Body.remember (b : Body) (c : Clock) (rx : Rx) : Body :=
  let x : SeenFrame := ⟨rx.ringB, rx.frame.src, rx.frame.type, rx.frame.seq, rx.frame.hops.toNat, c.cyc⟩
  { b with ring := { b.ring with seen := x :: b.ring.seen.filter (fun y => decide (c.cyc ≤ y.at_ + 4096)) } }

/-- An own vote for the same boundary still queued at the output merges into the passing frame (R69). -/
def Body.mergeVote (b : Body) (ringB : Bool) (f : Frame) : Frame × Body :=
  let q := if ringB then b.ring.txB else b.ring.txA
  let mine (e : TxEntry) : Bool := e.frame.type == 6 && e.frame.src.toNat == b.devId && e.frame.d1 == f.d1
  if f.type == 6 then
    match q.find? mine with
    | some e =>
      let f := { f with d2 := f.d2 ||| (e.frame.d2 &&& 0x0000FFFFF0000000) }
      let q := q.filter (fun e => ! mine e)
      (f, { b with ring := if ringB then { b.ring with txB := q } else { b.ring with txA := q } })
    | none => (f, b)
  else (f, b)

/-- Forward a frame with HOPS incremented (R56 rule 6, R59, R69). -/
def Body.forward (b : Body) (c : Clock) (rx : Rx) : Body :=
  let m := b.mergeVote rx.ringB rx.frame
  m.2.toOutput rx.ringB ⟨{ m.1 with hops := m.1.hops + 1 }, some (c.stamp rx.sub.toNat), b.ingress rx.ringB⟩

/-- Rules 3 to 7 of R56 on a frame with a good CRC and a valid TYPE; `direct` marks the frames a neighbour consumes whatever their DST (R60;
DESIGN CHOICE, assumption 54). Every frame of another device shows its term (R71). -/
def Body.accept (b : Body) (c : Clock) (rx : Rx) (direct : Bool) : Accepted :=
  let f := rx.frame
  let first := b.seenBefore c rx
  if ! b.ringEn then ⟨b, false, none⟩
  else if f.src.toNat = b.devId then ⟨b, false, none⟩
  else
  let b := b.follow c f
  if direct then ⟨b, true, none⟩
  else if ! f.bcast && f.dst.toNat == b.devId then ⟨if first.isNone then b.remember c rx else b, first.isNone, first⟩
  else if frameClass f.type.toNat = 0 ∧ f.term.toNat < b.rfld RING_STATUS 24 8 then ⟨b.count FRAME_DROP 1, false, none⟩
  else if 30 ≤ f.hops.toNat then ⟨b.count FRAME_DROP 1, false, none⟩
  else
    let b := b.forward c rx
    if f.bcast then ⟨if first.isNone then b.remember c rx else b, first.isNone, first⟩ else ⟨b, false, none⟩

end Sys2Proof.Machine

namespace Sys2Proof


/-- The frame of a row carries that row's TYPE. -/
def Rx.typed (rx : Rx) (t : BitVec 4) : Rx := { rx with frame := { rx.frame with type := t } }

end Sys2Proof

namespace Sys2Proof.Machine


/-- FRAME_DISCARD: a frame whose CRC field `crc` is not the CRC of what it covers, or one that carries a reserved TYPE (R54, R56 rules 1 and
2). -/
def Body.frameDiscard (b : Body) (rx : Rx) (crc : BitVec 32) (begun : Bool) : Body :=
  let ty := rx.frame.type.toNat
  if ! b.ringEn then b
  else if crc ≠ rx.frame.crc then
    let b := b.count (if rx.ringB then CRC_ERR_B else CRC_ERR_A) 1
    if begun then b.emitOut (.errorBlock rx.ringB) else b
  else if ty = 0 ∨ 13 ≤ ty then b.count FRAME_DROP 1
  else b

/-- FRAME_DISCARD (R56). -/
def execFrameDiscard (rx : Rx) (crc : BitVec 32) (begun : Bool) (s : State) : Host.Outcome State Fault Refusal :=
  nextBody (fun _ b => b.frameDiscard rx crc begun) s

/-! ### TIME: offset and slip (R63, R66, R72) -/

/-- The offset of R63 in 1/16 ns. -/
def Body.timeOffset (b : Body) (c : Clock) (rx : Rx) : Int :=
  let f := rx.frame
  (b.tideAt c rx.sub.toNat : Int) - (16 * f.d1.toNat + fld f.d2 60 4 + fld f.d2 28 32 + b.ingress rx.ringB : Nat)

/-- The phases differ by more than 1 cc (R66); a path delay half way between two cycles goes to the even one (DESIGN CHOICE, assumption 54). -/
def Body.phaseSlips (b : Body) (c : Clock) (rx : Rx) : Bool :=
  let path := roundEven (fld rx.frame.d2 28 32 + b.ingress rx.ringB : Nat) 16
  decide (1 < (sval 32 (wrap 32 ((c.ph : Int) - path - rx.frame.d3.toNat))).natAbs)

/-- What one copy of a TIME or TAKEOVER frame shows (R63, R66). -/
def Body.timeCopy (b : Body) (c : Clock) (rx : Rx) (at_ : Nat) : HeldTime :=
  let f := rx.frame
  ⟨rx.ringB, f.src, f.type, f.seq, f.hops.toNat, b.timeOffset c rx, b.phaseSlips c rx, at_⟩

/-- Use the offset of a TIME or TAKEOVER frame: TIME_OFFSET and SETTLED, the slip of R66, the bound of R72, else the servo's list (R63, R73). -/
def Body.useTime (b : Body) (c : Clock) (h : HeldTime) : Body :=
  let b := b.rset TIME_OFFSET (r32 (wrap 32 (satS 32 h.off)))
  let b := b.rsetBit RING_STATUS 5 (decide (h.off.natAbs ≤ b.rfld SERVO_CFG 12 8))
  let b := if h.slip then (b.ringFlag c 15).tideBreakNow c else b
  if 16000 < h.off.natAbs then (b.ringFlag c 13).tideBreakNow c
  else if b.tideBreak then b
  else { b with ring := { b.ring with offs := b.ring.offs ++ [h.off] } }

/-- The other copy of the frame is held. -/
def HeldTime.twin (h x : HeldTime) : Bool := h.ringB != x.ringB && h.src == x.src && h.type == x.type && h.seq == x.seq

/-- The copy that crossed fewer links; ring A wins a tie (R63). -/
def HeldTime.better (h x : HeldTime) : HeldTime :=
  if h.hops < x.hops ∨ (h.hops = x.hops ∧ h.ringB = false) then h else x

/-- A copy of a TIME or TAKEOVER frame of the Lighthouse at a member. A copy that no other can better is used at once; another is held until its
twin comes or, without one, until a twin would count as a new frame (R56 rule 7, R63). -/
def Body.timeFrame (b : Body) (c : Clock) (a : Accepted) (rx : Rx) : Body :=
  let h := b.timeCopy c rx c.cyc
  if b.actingLh || ! b.fromLh rx.frame then b
  else if a.deliver then
    if h.hops = 0 ∧ h.ringB = false then b.useTime c h
    else { b with ring := { b.ring with timeHeld := b.ring.timeHeld ++ [h] } }
  else
    match b.ring.timeHeld.find? h.twin with
    | some x => ({ b with ring := { b.ring with timeHeld := b.ring.timeHeld.filter (fun y => ! h.twin y) } }).useTime c (h.better x)
    | none => b

/-- A held copy whose twin has not come within 4,096 cc is used (R56 rule 7, R63). -/
def Body.timeAlone (b : Body) (c : Clock) : Body :=
  let due := b.ring.timeHeld.filter (fun h => decide (h.at_ + 4096 < c.cyc))
  let b : Body := { b with ring := { b.ring with timeHeld := b.ring.timeHeld.filter (fun h => ! decide (h.at_ + 4096 < c.cyc)) } }
  if b.actingLh then b else due.foldl (fun b h => b.useTime c h) b

/-- TIME_FRAME (R56, R63, R66, R71). -/
def execTimeFrame (rx : Rx) (s : State) : Host.Outcome State Fault Refusal :=
  nextBody (fun c b =>
    let rx := rx.typed 1
    let a := b.accept c rx false
    if a.deliver || a.first.isSome then a.body.timeFrame c a rx else a.body) s

/-- TAKEOVER_FRAME: TAKEOVER is set, the higher term followed, the time used as of a TIME frame (R63, R71). -/
def execTakeoverFrame (rx : Rx) (s : State) : Host.Outcome State Fault Refusal :=
  nextBody (fun c b =>
    let rx := rx.typed 0xB
    let a := b.accept c rx false
    if a.deliver then (a.body.ringFlag c 10).timeFrame c a rx
    else if a.first.isSome then a.body.timeFrame c a rx else a.body) s

/-! ### Link delay (R60, R61) -/

/-- DELAY_REQ: answered with DELAY_RESP on the other ring (R60). -/
def execDelayReq (rx : Rx) (s : State) : Host.Outcome State Fault Refusal :=
  nextBody (fun c b =>
    let rx := rx.typed 2
    let a := b.accept c rx true
    if a.deliver then
      a.body.sendOne (! rx.ringB) 3 rx.frame.src.toNat false 0 rx.frame.seq.toNat 0 0
        (some (c.stamp rx.sub.toNat))
    else a.body) s

/-- Insert in ascending order. -/
def insertSorted (x : Int) : List Int → List Int
  | [] => [x]
  | y :: t => if x ≤ y then x :: y :: t else y :: insertSorted x t

/-- Median; between two middle values their mean, its half rounded as the free bit says (R60). -/
def median (l : List Int) (up : Bool) : Int :=
  let s := l.foldr insertSorted []
  let n := s.length
  if n % 2 = 1 then s.getD (n / 2) 0 else shrOpenHalf (s.getD (n / 2 - 1) 0 + s.getD (n / 2) 0) up
where
  /-- Half of a number, rounded as the free bit says. -/
  shrOpenHalf (x : Int) (up : Bool) : Int := x / 2 + (if x % 2 ≠ 0 ∧ up then 1 else 0)

/-- The ingress delays follow from the round trips and the asymmetry constants (R61); a move beyond 2 ns from the value
confirmed sets ASYM_SUSPECT (R77). -/
def Body.ingressUpdate (b : Body) : Body :=
  let up := roundEven ((b.rfld LINK_UP_RTT 0 20 : Int) + b.ring.useUp) 2
  let dn := roundEven ((b.rfld LINK_DN_RTT 0 20 : Int) - b.ring.useDn) 2
  let b := (b.rset LINK_A_IN (r32 (wrap 20 up))).rset LINK_B_IN (r32 (wrap 20 dn))
  let far (x : Option Int) (y : Int) : Bool := match x with | some v => decide (32 < (y - v).natAbs) | none => false
  if far b.ring.confA up || far b.ring.confB dn then b.suspect else b

/-- One round trip of a link pair (R60). -/
def Body.roundTrip (b : Body) (up : Bool) (rtt : Int) : Body :=
  let l := (if up then b.ring.rttUp else b.ring.rttDn) ++ [rtt]
  let l := l.drop (l.length - 8)
  let m := median l (bit b.openValue 0)
  let b := b.draw
  let b := if up then
      { b with ring := { b.ring with rttUp := l, newUp := b.ring.newUp + 1 } }.rset LINK_UP_RTT (r32 (wrap 20 m))
    else { b with ring := { b.ring with rttDn := l, newDn := b.ring.newDn + 1 } }.rset LINK_DN_RTT (r32 (wrap 20 m))
  b.ingressUpdate.lockUpdate

/-- DELAY_RESP: the answer to the last request on the other ring (R60). -/
def Body.delayResp (b : Body) (c : Clock) (rx : Rx) : Body :=
  let req := if rx.ringB then b.ring.reqA else b.ring.reqB
  match req with
  | some (sq, some dep) =>
    if sq.toNat = fld rx.frame.d1 0 16 then
      let b := { b with ring := if rx.ringB then { b.ring with reqA := none } else { b.ring with reqB := none } }
      b.roundTrip (! rx.ringB) ((c.stamp rx.sub.toNat : Int) - dep - fld rx.frame.d2 28 32)
    else b
  | _ => b

/-- DELAY_RESP (R60). -/
def execDelayResp (rx : Rx) (s : State) : Host.Outcome State Fault Refusal :=
  nextBody (fun c b =>
    let rx := rx.typed 3
    let a := b.accept c rx true
    if a.deliver then (a.body.delayResp c rx).freeze c else a.body) s

/-- A Slack window the grid is in: the Tide Time it began at. -/
def Body.slackFrom (b : Body) : Option Nat :=
  match b.grid.win with
  | .start => some b.grid.bound
  | .held => some b.grid.bound
  | .slack => some b.grid.shotFin
  | _ => none

/-- Something sent once in each Slack window, or every SYNC_INTERVAL while the grid is stopped, is due (R60). -/
def Body.slackDue (b : Body) (c : Clock) (last : Nat) (stopped : Bool) : Bool :=
  if b.gridRun then (match b.slackFrom with | some t => decide (last < t) | none => false)
  else stopped && decide (last + b.syncNs ≤ c.now)

/-- DELAY_REQ_SEND (R60). The request goes to the neighbour with DST 0: the spec gives a request no DST (DESIGN CHOICE, assumption 54). -/
def Body.delayReqSend (b : Body) (c : Clock) (ringB : Bool) : Body :=
  let last := if ringB then b.ring.lastReqB else b.ring.lastReqA
  if b.slackDue c last true then
    let b := b.sendOne ringB 2 0 false 0 0 0 0 none
    { b with ring := if ringB then { b.ring with lastReqB := c.now } else { b.ring with lastReqA := c.now } }
  else b

/-- DELAY_REQ_SEND (R60). -/
def execDelayReqSend (ringB : Bool) (s : State) : Host.Outcome State Fault Refusal :=
  nextBody (fun c b => b.delayReqSend c ringB) s

/-! ### The loop (R62) -/

/-- A wrap is in place at this device or, as its LINK frames report, at another (R55, R62). -/
def Body.anyWrap (b : Body) : Bool := b.rbit RING_STATUS 3 || b.ring.status.entries.any (fun e => bit (e.2.getD 0) 2)

/-- LOOP_SEND: the Lighthouse of an unwrapped ring sends one LOOP round each ring in each Slack window (R62). -/
def Body.loopSend (b : Body) (c : Clock) : Body :=
  if b.actingLh && ! b.anyWrap && b.slackDue c b.ring.lastLoop false then
    let b := (b.sendOne false 4 b.devId false 0 0 0 0 none).sendOne true 4 b.devId false 1 0 0 0 none
    { b with ring := { b.ring with lastLoop := c.now, loopA := none, loopB := none } }
  else b

/-- LOOP_SEND (R62). -/
def execLoopSend (s : State) : Host.Outcome State Fault Refusal := nextBody (fun c b => b.loopSend c) s

/-- The return of a LOOP frame: Σd and ASYM_SUM of its ring; with both, LOOP_ASYM (R62, R77). -/
def Body.loopReturn (b : Body) (c : Clock) (rx : Rx) : Body :=
  let dep := if rx.ringB then b.ring.loopDepB else b.ring.loopDepA
  match dep with
  | some d =>
    let x : Int × Int := ((c.stamp rx.sub.toNat : Int) - d - fld rx.frame.d2 28 32, sval 32 rx.frame.d3.toNat)
    let b := { b with ring := if rx.ringB then { b.ring with loopB := some x, loopDepB := none }
                              else { b.ring with loopA := some x, loopDepA := none } }
    match b.ring.loopA, b.ring.loopB with
    | some a, some e =>
      let v := a.1 - e.1 - a.2
      let b := b.rset LOOP_ASYM (r32 (wrap 32 v))
      let b := { b with ring := { b.ring with loopA := none, loopB := none } }
      if 32 < v.natAbs then b.suspect else b
    | _, _ => b
  | none => b

/-- LOOP_FRAME (R59, R62). -/
def execLoopFrame (rx : Rx) (s : State) : Host.Outcome State Fault Refusal :=
  nextBody (fun c b =>
    let rx := rx.typed 4
    if b.ringEn && rx.frame.src.toNat == b.devId then b.loopReturn c rx
    else (b.accept c rx false).body) s

/-! ### The grid over the ring (R67 to R70) -/

/-- An ANNOUNCE or VERDICT has left within the last 100 cc, or is due within the next 100 (R41, R57). -/
def Body.nearAnnounce (b : Body) (c : Clock) : Bool :=
  let g := b.grid
  decide (c.cyc ≤ b.ring.lastAnnSent + 100) ||
  (b.gridRun && ((! g.ann && ! g.stopping && b.within c g.next 3100) || (g.ann && g.verdict.isNone && b.within c g.next 1100)))

/-- TIME_SEND: the acting Lighthouse sends TIME every SYNC_INTERVAL, not within 100 cc of an ANNOUNCE or VERDICT (R57, R67). -/
def Body.timeSend (b : Body) (c : Clock) : Body :=
  if b.actingLh && decide (b.ring.lastTimeSent + b.syncNs ≤ c.cyc) && ! b.nearAnnounce c then
    let b := b.sendBoth 1 0 true (if b.anchored then 1 else 0) 0 0 0
    { b with ring := { b.ring with lastTimeSent := c.cyc } }
  else b

/-- TIME_SEND (R67). -/
def execTimeSend (s : State) : Host.Outcome State Fault Refusal := nextBody (fun c b => b.timeSend c) s

/-- Adopt an epoch: the flags of the one before clear, and a change that passes through zero sweeps the fabric (R67, R105, R160). -/
def Body.adoptEpoch (b : Body) (e : Nat) : Body :=
  let wraps := decide (e < b.epoch)
  let b := (b.rsetFld SHOT_EPOCH 0 16 e).clearFlags e
  if wraps then b.sweepFab else b

/-- The member brings its epoch into step with an announcement, or splits (R67). -/
def Body.stepEpoch (b : Body) (c : Clock) (e : Nat) : Body :=
  let d := (e + 2 ^ 16 - 1 - b.epoch) % 2 ^ 16
  if d = 0 then b
  else if d ≤ b.ring.kMissed then b.adoptEpoch ((e + 2 ^ 16 - 1) % 2 ^ 16)
  else (b.ringFlag c 14).tideBreakNow c

/-- A member takes up an announced boundary; its grid runs from the first announcement on (R42, R67). In a break without
BREAK_VOTE it treats the boundary as held (R73). -/
def Body.takeBoundary (b : Body) (c : Clock) (bound e : Nat) : Body :=
  let fresh := ! b.gridRun
  let b := if fresh then b.rsetBit TIDE_STATUS 1 true else b
  let g := b.grid
  let g := if fresh then { g with win := .start, bound := c.now, done := false, stopping := false } else g
  let held := b.tideBreak && ! b.rbit RING_CTL 7
  { b with grid := { g with next := bound, ann := true, annEpoch := e, horizon := false, voted := 0,
                            verdict := if held then some true else none } }

/-- ANNOUNCE at a member (R67). -/
def Body.announce (b : Body) (c : Clock) (f : Frame) : Body :=
  let e := fld f.d2 48 16
  let b := (b.rset GRID_MIRROR_PERIOD (r32 (fld f.d2 16 32))).rset GRID_MIRROR_SHOTLEN (r32 f.d3.toNat)
  let b := { b with ring := { b.ring with lastAnn := some (f.d1.toNat, e) } }
  let b := b.stepEpoch c e
  if b.anchored then b.takeBoundary c f.d1.toNat e else b

/-- ANNOUNCE (R56, R67, R71). -/
def execAnnounce (rx : Rx) (s : State) : Host.Outcome State Fault Refusal :=
  nextBody (fun c b =>
    let rx := rx.typed 5
    let a := b.accept c rx false
    if a.deliver then
      let b := a.body
      if b.fromLh rx.frame && ! b.actingLh then b.announce c rx.frame else b
    else a.body) s

/-- A HOLD_VOTE at the Lighthouse: counted for the boundary in settlement, late after its verdict (R69). -/
def Body.holdVote (b : Body) (c : Clock) (f : Frame) : Body :=
  let g := b.grid
  if g.ann && g.verdict.isNone && decide (f.d1.toNat = g.next) then
    { b with grid := { g with voteMask := g.voteMask ||| fld f.d2 32 16, voteReasons := g.voteReasons ||| fld f.d2 28 4 } }
  else b.ringFlag c 16

/-- HOLD_VOTE (R56, R69). -/
def execHoldVote (rx : Rx) (s : State) : Host.Outcome State Fault Refusal :=
  nextBody (fun c b =>
    let rx := rx.typed 6
    let a := b.accept c rx false
    let b := a.body
    if a.deliver && b.actingLh then b.holdVote c rx.frame else b) s

/-- A VERDICT at a member: start or hold; a start after an own vote is treated as a hold (R69). -/
def Body.verdictFrame (b : Body) (c : Clock) (f : Frame) : Body :=
  let g := b.grid
  let b := if bit f.arg 1 then { b with grid := { b.grid with stopping := true } } else b
  if g.ann && g.verdict.isNone && decide (f.d1.toNat = g.next) then
    if bit f.arg 0 then
      { (b.rset HOLD_LAST (r32 (fld f.d2 32 16))) with grid := { b.grid with verdict := some true } }
    else if g.voted ≠ 0 then ({ b with grid := { b.grid with verdict := some true } }.ringFlag c 17).missOne
    else { b with grid := { b.grid with verdict := some false } }
  else b

/-- VERDICT (R56, R69, R71). -/
def execVerdict (rx : Rx) (s : State) : Host.Outcome State Fault Refusal :=
  nextBody (fun c b =>
    let rx := rx.typed 7
    let a := b.accept c rx false
    if a.deliver then
      let b := a.body
      if b.fromLh rx.frame && ! b.actingLh then b.verdictFrame c rx.frame else b
    else a.body) s

/-- LH_SILENT: a standby that hears nothing for SILENCE_TIMEOUT takes over if it is anchored and not in a break (R70). -/
def Body.lhSilent (b : Body) (c : Clock) : Body :=
  if b.ringEn && b.role == 2 && ! b.actingLh && decide (b.ring.lastLh + b.rfld SYNC_CFG 8 7 * 1000 ≤ c.cyc) then
    let b := b.ringFlag c 9
    if b.anchored && ! b.tideBreak then
      let b := b.rsetFld RING_STATUS 24 8 (b.rfld RING_STATUS 24 8 + 1)
      let b := b.sendBoth 0xB 0 true 1 0 0 0
      let b := (b.rsetBit RING_STATUS 4 true).ringFlag c 10
      let b := b.rsetFld RING_STATUS 20 4 b.devId
      let g := b.grid
      let g := if b.gridRun && ! g.ann then
          { g with next := gridPointFrom g.next (max 1 (b.rnat GRID_MIRROR_PERIOD)) (b.aheadBy c 3000) } else g
      { b with ring := { b.ring with lhKnown := true, useMirror := b.ring.lastAnn.isSome, lastLh := c.cyc }, grid := g }
    else b
  else b

/-- LH_SILENT (R70). -/
def execLhSilent (s : State) : Host.Outcome State Fault Refusal := nextBody (fun c b => b.lhSilent c) s

/-! ### The servo (R64) -/

/-- The increment the servo computes from the sum of `n` offsets in 1/16 ns and the period (R64); a tie of its rounding goes to the even value
(DESIGN CHOICE, assumption 54). -/
def servoInc (sum : Int) (n period slew deadband : Nat) : Int :=
  if sum.natAbs ≤ deadband * n then 2 ^ 24
  else
    let d := 16 * n * period
    if d * slew < sum.natAbs * 1000000 then
      roundEven (2 ^ 24 * (if 0 < sum then 1000000 - slew else 1000000 + slew)) 1000000
    else roundEven (2 ^ 24 * ((d : Int) - sum)) d

/-- The servo stages once before each commit point and, while the grid is stopped, every SYNC_INTERVAL (R64). -/
def Body.servoPace (b : Body) (c : Clock) : Bool :=
  if b.gridRun then b.ring.servoMark != some b.host.commitMark else decide (b.ring.servoAt + b.syncNs ≤ c.cyc)

/-- SERVO_STAGE (R64). -/
def Body.servoStage (b : Body) (c : Clock) : Body :=
  if b.rbit TIDE_CTL 0 && ! b.actingLh && ! b.rbit RING_STATUS 6 && ! b.tideBreak && b.servoPace c && ! b.ring.offs.isEmpty then
    let p := if b.gridRun then b.gridPeriod else b.syncNs
    let inc := servoInc b.ring.offs.sum b.ring.offs.length p (b.rfld SERVO_CFG 0 12) (b.rfld SERVO_CFG 12 8)
    let b := { b with ring := { b.ring with offs := [], servoMark := some b.host.commitMark, servoAt := c.cyc } }
    b.stageInc c (r32 inc.toNat)
  else b

/-- SERVO_STAGE (R64). -/
def execServoStage (s : State) : Host.Outcome State Fault Refusal := nextBody (fun c b => b.servoStage c) s

/-! ### Decisions and events (R79, R81, R330) -/

/-- A device is in the group once a LINK frame of it has been heard (R79). -/
def Body.inGroup (b : Body) (d : Nat) : Bool := b.ring.status.entries.any (fun e => e.1 = d)

/-- The updates of a DECISION frame (R55, R79). -/
def decisionUpds (f : Frame) : List Nat :=
  ([fld f.d2 44 20, fld f.d2 24 20, fld f.d2 4 20, fld f.d3 12 20]).take (fld f.arg 0 3)

/-- DECISION_FRAME (R79, R167). -/
def execDecisionFrame (rx : Rx) (s : State) : Host.Outcome State Fault Refusal :=
  nextBody (fun c b =>
    let rx := rx.typed 8
    let a := b.accept c rx false
    if a.deliver then
      let b := a.body
      let f := rx.frame
      if b.inGroup f.src.toNat then
        (decisionUpds f).foldl (fun b u =>
          b.importUpd ⟨rx.ringB, f.src.toNat, bitsAt u 10 10, bitsAt u 2 8, fld f.d1 48 16, fld f.d1 12 36⟩) b
      else b
    else a.body) s

/-- EVENT_FRAME (R81, R330). -/
def execEventFrame (rx : Rx) (s : State) : Host.Outcome State Fault Refusal :=
  nextBody (fun c b =>
    let rx := rx.typed 9
    let a := b.accept c rx false
    if a.deliver then
      let b := a.body
      let ch := fld rx.frame.d2 58 6
      if (if ch < 32 then b.rbit EV_IMPORT_LO ch else b.rbit EV_IMPORT_HI (ch - 32)) then
        b.publish c ch rx.frame.d1 0 true
      else b
    else a.body) s

/-! ### Anchoring over the ring (R83) -/

/-- ANCHOR at a member: the reference edge nearest to arrival + COUNTDOWN − CORR − ingress delay (R83). -/
def Body.anchorFrame (b : Body) (c : Clock) (rx : Rx) : Body :=
  let f := rx.frame
  let t : Int := (c.stamp rx.sub.toNat : Int) + 16 * fld f.d2 4 24 - fld f.d2 28 32 - b.ingress rx.ringB
  { b with grid := { b.grid with anchorAt := some (b.edgeNear c t),
                                 anchorSet := some (BitVec.ofNat 96 (f.d1.toNat * 2 ^ 32 + f.d3.toNat)) } }

/-- ANCHOR_FRAME (R56, R83). -/
def execAnchorFrame (rx : Rx) (s : State) : Host.Outcome State Fault Refusal :=
  nextBody (fun c b =>
    let rx := rx.typed 0xA
    let a := b.accept c rx false
    if a.deliver then
      let b := a.body
      if b.fromLh rx.frame && ! b.actingLh then b.anchorFrame c rx else b
    else a.body) s

/-! ### LINK (R61, R77, R78, R82) -/

/-- The neighbours' asymmetry constants, from every LINK copy that crossed one link (R61). -/
def Body.linkNeighbour (b : Body) (rx : Rx) : Body :=
  let f := rx.frame
  if f.hops = 0 then
    let r := if rx.ringB then { b.ring with nbDn := some (fld f.d1 32 16) } else { b.ring with nbUp := some (fld f.d1 16 16) }
    let b : Body := { b with ring := r }
    b.rsetBit RING_STATUS 18 b.asymMismatch
  else b

/-- A delivered LINK frame: STATUS of a member (R82). -/
def Body.linkFrame (b : Body) (c : Clock) (rx : Rx) : Body :=
  let f := rx.frame
  let r := { b.ring with status := b.ring.status.put none f.src.toNat (some (BitVec.ofNat 5 (fld f.d1 48 5))) }
  (({ b with ring := r } : Body).lockUpdate).freeze c

/-- LINK_FRAME; a HELLO with the own ID and another nonce sets DUP_ID (R82). -/
def execLinkFrame (rx : Rx) (s : State) : Host.Outcome State Fault Refusal :=
  nextBody (fun c b =>
    let rx := rx.typed 0xC
    let f := rx.frame
    if b.ringEn && f.src.toNat == b.devId && bit f.arg 0 && fld f.d1 0 16 != b.ring.nonce.toNat then
      (b.rsetBit RING_STATUS 12 true).lockUpdate
    else
      let a := b.accept c rx false
      if a.deliver then (a.body.linkNeighbour rx).linkFrame c rx
      else if a.first.isSome then a.body.linkNeighbour rx else a.body) s

/-! ### Lock, break, wrap (R74 to R78, R82) -/

/-- With WRAP_EN a device beside a break whose other input is in lock wraps: frames for the dead output turn onto the live one (R75, R77). -/
def Body.wrapCheck (b : Body) : Body :=
  let wraps := (b.ring.brokenA && b.rbit RING_STATUS 1) || (b.ring.brokenB && b.rbit RING_STATUS 0)
  if b.rbit RING_CTL 8 && wraps && ! b.rbit RING_STATUS 3 then
    (((b.rsetBit RING_STATUS 3 true).suspect).turnOutput false).turnOutput true
  else b

/-- LINK_UP: a ring input gains block lock; LINK with HELLO goes out, and the link is measured anew (R53, R82). -/
def Body.linkUp (b : Body) (c : Clock) (ringB : Bool) : Body :=
  if ! b.ringEn then b
  else
    let was := if ringB then b.ring.brokenB else b.ring.brokenA
    let keep := b.rbit RING_STATUS 3
    let r := b.ring
    let r := if ringB then { r with lockSinceB := c.cyc, brokenB := was && keep, rttDn := [], newDn := 0 }
      else { r with lockSinceA := c.cyc, brokenA := was && keep, rttUp := [], newUp := 0 }
    let b := { b with ring := r }.rsetBit RING_STATUS (if ringB then 1 else 0) true
    let b := (if was then b.suspect else b).wrapCheck
    ((b.sendLink true).lockUpdate).freeze c

/-- LINK_UP (R82). -/
def execLinkUp (ringB : Bool) (s : State) : Host.Outcome State Fault Refusal := nextBody (fun c b => b.linkUp c ringB) s

/-- RING_BREAK: an input has had no lock for 1,000 cc; with WRAP_EN and the other input in lock the device wraps (R74, R75);
one fault record (R415). -/
def Body.ringBreak (b : Body) (c : Clock) (ringB : Bool) : Body :=
  if ! b.ringEn then b
  else
    let r := { b.ring with unwrapStaged := false }
    let r := if ringB then { r with brokenB := true, rttDn := [], newDn := 0 } else { r with brokenA := true, rttUp := [], newUp := 0 }
    let b := { b with ring := r }.rsetBit RING_STATUS (if ringB then 1 else 0) false
    let b := b.wrapCheck
    let d := (if ringB then 2 ^ 9 else 2 ^ 8) + (if b.rbit RING_STATUS 3 then 2 ^ 10 else 0)
    ((b.fault c 0x0B d 0).lockUpdate).freeze c

/-- RING_BREAK (R75). -/
def execRingBreak (ringB : Bool) (s : State) : Host.Outcome State Fault Refusal :=
  nextBody (fun c b => b.ringBreak c ringB) s

/-- The unwrap itself (R76, R77). -/
def Body.unwrapNow (b : Body) : Body :=
  let b := { b with ring := { b.ring with brokenA := false, brokenB := false, unwrapStaged := false } }
  ((b.rsetBit RING_STATUS 3 false).suspect).lockUpdate

/-- UNWRAP: both ends of every failed pair have held lock for 1,000,000 cc, the near one by this device's own count, the far one by that of
the device there; the unwrap comes at the next Slack commit point, or at once while the grid is stopped (R76). -/
def Body.unwrap (b : Body) (c : Clock) : Body :=
  let held (ringB : Bool) (i since : Nat) : Bool := b.rbit RING_STATUS i && decide (since + 1000000 ≤ c.cyc) && Config.farLock ringB c.cyc
  let okA := ! b.ring.brokenA || held false 0 b.ring.lockSinceA
  let okB := ! b.ring.brokenB || held true 1 b.ring.lockSinceB
  if b.rbit RING_STATUS 3 && okA && okB then
    if b.gridRun then { b with ring := { b.ring with unwrapStaged := true } } else b.unwrapNow.freeze c
  else b

/-- UNWRAP (R76). -/
def execUnwrap (s : State) : Host.Outcome State Fault Refusal := nextBody (fun c b => b.unwrap c) s

/-- ASYM_CONFIRM: the constants written come into use; refused while ASYM_MISMATCH is set or before 8 new round trips exist
(R61, R78). -/
def Body.asymConfirm (b : Body) (c : Clock) (v : Reg32) : Body :=
  if ! bit v 0 then b
  else
    let tripsUp := ! b.rbit RING_STATUS 0 || decide (8 ≤ b.ring.newUp)
    let tripsDn := ! b.rbit RING_STATUS 1 || decide (8 ≤ b.ring.newDn)
    if b.asymMismatch || ! tripsUp || ! tripsDn then b.ringReject c
    else
      let b := { b with ring := { b.ring with useUp := sval 16 (b.rnat ASYM_UP), useDn := sval 16 (b.rnat ASYM_DN),
                                              confA := none, confB := none } }
      let b := b.ingressUpdate
      let b := { b with ring := { b.ring with confA := some (b.rfld LINK_A_IN 0 20 : Int),
                                              confB := some (b.rfld LINK_B_IN 0 20 : Int) } }
      b.rsetBit RING_STATUS 7 false

/-- ASYM_CONFIRM (R78). -/
def execAsymConfirm (v : Reg32) (s : State) : Host.Outcome State Fault Refusal :=
  nextBody (fun c b => b.asymConfirm c v) s

/-! ### Control (R51, R85) -/

/-- RING_EN opens the by-passes: a device with ROLE Lighthouse acts as one; its nonce is an open value (R51, R82). A standby that has heard no
Lighthouse counts SILENCE_TIMEOUT from here (DESIGN CHOICE, assumption 54). -/
def Body.ringOpen (b : Body) (c : Clock) : Body :=
  let lh := b.rfld RING_CTL 4 2 == 1
  let b1 := { b with ring := { b.ring with nonce := BitVec.ofNat 16 b.openValue.toNat, lastLh := c.cyc, lhKnown := lh,
                                           roleStaged := none } }.draw
  if lh then (b1.rsetBit RING_STATUS 4 true).rsetFld RING_STATUS 20 4 b1.devId else b1

/-- RING_EN cleared: the by-passes close and only the registers stay (R51, R85). Of RING_STATUS bits [6:0] and DUP_ID clear, and MEMBER_LOCK;
ASYM_SUSPECT, ASYM_MISMATCH, LH_ID, TERM and the W1C bits stay (DESIGN CHOICE, assumption 54). -/
def Body.ringClose (b : Body) : Body :=
  let r := b.ring
  let b := { b with ring := { RingSt.reset with useUp := r.useUp, useDn := r.useDn, confA := r.confA, confB := r.confB,
                                                exportAct := r.exportAct } }
  let b := (b.rsetFld RING_STATUS 0 7 0).rsetBit RING_STATUS 12 false
  b.rset MEMBER_LOCK 0

/-- RING_CTL is refused for ROLE 3, a change to or from Lighthouse while the ring is open, and a change of DEV_ID then (R85). -/
def Body.ringCtlOk (b : Body) (v : Reg32) : Bool :=
  let old := b.rget RING_CTL
  fld v 4 2 != 3 &&
  ! (b.ringEn && (fld v 0 4 != fld old 0 4 || (fld v 4 2 != fld old 4 2 && (fld v 4 2 == 1 || fld old 4 2 == 1))))

/-- REMEASURE: the stored round trips are discarded (R60, R85). -/
def Body.remeasure (b : Body) : Body :=
  ({ b with ring := { b.ring with rttUp := [], rttDn := [], newUp := 0, newDn := 0 } }).lockUpdate

/-- A write of RING_CTL, judged whole (R51, R60, R85). -/
def Body.writeRingCtl (b : Body) (c : Clock) (v : Reg32) : Body :=
  if b.ringCtlOk v then
    let was := b.ringEn
    let role := b.role
    let b := b.rset RING_CTL (v &&& 0x1FF)
    let b := if was && b.gridRun && fld v 4 2 != role then { b with ring := { b.ring with roleStaged := some role } }
      else { b with ring := { b.ring with roleStaged := none } }
    let b := if bit v 9 then b.remeasure else b
    if bit v 6 && ! was then b.ringOpen c else if ! bit v 6 && was then b.ringClose else if was then (b.wrapCheck).freeze c else b
  else b.ringReject c

/-- RING_EN: a write of RING_CTL (R51). -/
def execRingEn (v : Reg32) (s : State) : Host.Outcome State Fault Refusal := nextBody (fun c b => b.writeRingCtl c v) s
/-- REMEASURE: a write of RING_CTL with REMEASURE (R60). -/
def execRemeasure (v : Reg32) (s : State) : Host.Outcome State Fault Refusal := nextBody (fun c b => b.writeRingCtl c v) s

/-- SYNC_CFG is refused out of range or with a timeout below 4 intervals (R85). -/
def Body.writeSyncCfg (b : Body) (c : Clock) (v : Reg32) : Body :=
  let i := fld v 0 4
  let t := fld v 8 7
  if i < 1 ∨ 10 < i ∨ t < 20 ∨ 90 < t ∨ t < 4 * i then b.ringReject c else b.rset SYNC_CFG (v &&& 0x7F0F)

/-- SERVO_CFG: SLEW_MAX runs from 1 to 3,906 ppm (R85); a value outside is refused with CFG_REJECT, as SYNC_CFG is (DESIGN CHOICE, assumption
54). -/
def Body.writeServoCfg (b : Body) (c : Clock) (v : Reg32) : Body :=
  if fld v 0 12 < 1 ∨ 3906 < fld v 0 12 then b.ringReject c else b.rset SERVO_CFG (v &&& 0xFFFFF)

/-- ASYM_UP and ASYM_DN (R61, R85). -/
def Body.writeAsym (b : Body) (k : Nat) (v : Reg32) : Body :=
  let b := b.rset k (v &&& 0xFFFF)
  b.rsetBit RING_STATUS 18 b.asymMismatch

/-- The exported slots in force follow the EXPORT registers (R85). -/
def Body.exportApply (b : Body) : Body :=
  { b with ring := { b.ring with
      exportAct := (List.range 32).foldl (fun (m : SMap Reg32) n => m.put 0 n (b.rget (EXPORT n))) .empty } }

/-- What waits for a Slack commit point in the RING block: role, exports, unwrap, and the servo's release once no member
reports ASYM_SUSPECT (R76, R78, R85). -/
def Body.ringCommit (b : Body) (c : Clock) : Body :=
  let b := b.exportApply
  let b := { b with ring := { b.ring with roleStaged := none } }
  let b := if b.ring.unwrapStaged then b.unwrapNow.freeze c else b
  if b.anySuspect then b else b.rsetBit RING_STATUS 6 false

end Sys2Proof.Machine
end

