-- ==== Sys2Proof/Machine/RegWrite.lean ====
section
/-! DEFINITION. A write of a setup register (R9 to R11, R455): the block's register map, its idle rule and its rules on values, then
what the write does; and a read of one, with the registers that show the present (R426 to R435). -/

namespace Sys2Proof.Machine

/-! ### The page select of the shared range (R429) -/

/-- The register an offset of BAR0 reaches. FB_PAGE as it stood when the cycle began decides between F16-F31 and B0-B15. -/
def Body.regKey (b : Body) (off : Nat) : Nat :=
  let page := b.log.fbOld.getD (b.rget FB_PAGE)
  if decide (0x270000 ≤ off) && decide (off < 0x280000) && bit page 0 then off + 0x1000000 else off

/-- A write of FB_PAGE governs accesses from the next cycle on (R429). -/
def Body.writePage (b : Body) (v : Reg32) : Body :=
  let old := b.log.fbOld.getD (b.rget FB_PAGE)
  { b.rset FB_PAGE (v &&& 1) with log := { b.log with fbOld := some old } }

/-! ### Writes of one register and of a pair -/

/-- A write judged whole: refused if an SL field would change while the block is not idle, or if the value breaks a rule; else W1C bits
clear and the RW and SL fields take the value (R10, R455). -/
def Body.plainWrite (b : Body) (k : Nat) (idle ok : Bool) (refuse : Body → Body) (v : Reg32) : Body :=
  match regInfo k with
  | none => b
  | some r =>
    if (! idle && slChanged (b.rget k) v r.sl) || ! ok then refuse b
    else
      let b := b.w1c k r.w1c v
      b.rset k (b.rget k &&& ~~~(r.rw ||| r.sl) ||| v &&& (r.rw ||| r.sl))

/-- The writable bits of a register. -/
def writable (k : Nat) : Reg32 :=
  match regInfo k with
  | some r => r.rw ||| r.sl
  | none => 0

/-- The value a write of a _HI half would commit (R11). -/
def Body.pairValue (b : Body) (lo hi : Nat) (v : Reg32) : Nat := b.pairNew lo (writable hi) v

/-- A write of a _HI half: refused while the block is not idle if the pair would change, or if the value breaks its rule; a refusal discards
the staged _LO (R11, R455). -/
def Body.pairWrite (b : Body) (lo hi : Nat) (idle ok : Bool) (refuse : Body → Body) (v : Reg32) : Body :=
  if b.pairBusy idle lo hi (writable hi) v || ! ok then refuse (b.unstage lo)
  else b.commitPair lo hi (v &&& writable hi)

/-- A write of a _LO half is staged (R11). -/
def Body.stageLo (b : Body) (lo : Nat) (v : Reg32) : Body := b.stage lo (v &&& writable lo)

/-- Clear counters, each keeping what it counts in this cycle. -/
def Body.clearCounts (b : Body) (ks : List Nat) : Body := ks.foldl (fun b k => b.clearCount k) b

/-! ### GLB and PERF (R425, R431) -/

/-- The SL registers of the mailbox are idle (R431). -/
def Body.mailboxIdle (b : Body) : Bool :=
  let st := b.bootStatus
  st == 1 || (decide (0x82 ≤ st) && decide (st ≤ 0x85))

/-- A write in GLB but for GLB_RESET (R425, R431, R433). -/
def Body.writeGlb (b : Body) (c : Clock) (k : Nat) (v : Reg32) : Body :=
  let no := fun (b : Body) => b.reject GLB_STATUS
  if k = BOOT_ADDR_LO then b.stageLo k v
  else if k = BOOT_ADDR_HI then b.pairWrite BOOT_ADDR_LO k b.mailboxIdle true no v
  else if k = BOOT_CMD then b.writeBootCmd v
  else if k = GLB_NUDGE then b.nudge
  else if k = PERF_CTL then b.writePerfCtl v
  else if 0x1100 ≤ k ∧ k < 0x1300 then
    let n := (k - 0x1100) / 16
    match (k - 0x1100) % 16 with
    | 0 => b.writePcntSel n v
    | 4 => b.stageLo k v
    | 8 => b.writePcntHi n v
    | _ => b
  else if 0x1800 ≤ k ∧ k < 0x1900 then
    match (k - 0x1800) % 32 with
    | 0 => b.writeBwCfg c ((k - 0x1800) / 32) v
    | 4 => b.writeBwWin ((k - 0x1800) / 32) v
    | _ => b
  else b.plainWrite k b.mailboxIdle true no v

/-! ### HST (R261, R297) -/

/-- The SL registers of HST are idle (R297). -/
def Body.hstIdle (b : Body) : Bool := ! b.rbit HST_CTL 0 && b.inflightTotal == 0

/-- A base has bits [11:0] clear (R297). -/
def baseOk (x : Nat) : Bool := x % 4096 == 0

/-- DQ_LOG2 and CQ_LOG2 of RING_CFG lie in range (R297). -/
def ringCfgOk (v : Reg32) : Bool :=
  decide (4 ≤ fld v 0 5) && decide (fld v 0 5 ≤ 16) && decide (4 ≤ fld v 8 5) && decide (fld v 8 5 ≤ 16)

/-- A write among the registers of a ring (R275, R297). -/
def Body.writeRingReg (b : Body) (c : Clock) (r o : Nat) (v : Reg32) : Body :=
  let no := fun (b : Body) => b.reject (HRING_STATUS r)
  let k := DQ_BASE_LO r + o
  match o with
  | 0x00 => b.stageLo k v
  | 0x04 => b.pairWrite (DQ_BASE_LO r) k (b.ringIdle r) (baseOk (b.pairValue (DQ_BASE_LO r) k v)) no v
  | 0x08 => b.stageLo k v
  | 0x0C => b.pairWrite (CQ_BASE_LO r) k (b.ringIdle r) (baseOk (b.pairValue (CQ_BASE_LO r) k v)) no v
  | 0x10 => b.plainWrite k (b.ringIdle r) (ringCfgOk v) no v
  | 0x14 => b.plainWrite k true (fld v 0 8 != 0) no v
  | 0x18 => b.writeRingCmd c r v
  | _ => b.plainWrite k true true no v

/-- A write in HST (R266, R271, R295, R297). A window's base is staged whole, so that its bits [11:0] are judged. -/
def Body.writeHst (b : Body) (c : Clock) (k : Nat) (v : Reg32) : Body :=
  let no := fun (b : Body) => b.reject HST_STATUS
  if k = HST_CTL then b.writeHstCtl c v
  else if k = DB_BASE_LO then b.stageLo k v
  else if k = DB_BASE_HI then b.pairWrite DB_BASE_LO k b.hstIdle (baseOk (b.pairValue DB_BASE_LO k v)) no v
  else if k = POLL_INTERVAL then b.plainWrite k true (decide (250 ≤ fld v 0 20) && decide (fld v 0 20 ≤ 1000000)) no v
  else if 0x10100 ≤ k ∧ k < 0x10200 then
    let w := (k - 0x10100) / 32
    match (k - 0x10100) % 32 with
    | 0x0 => b.stage k v
    | 0x4 => b.pairWrite (WIN_BASE_LO w) k true (baseOk (b.pairValue (WIN_BASE_LO w) k v)) no v
    | 0x8 => b.stageLo k v
    | 0xC => b.pairWrite (WIN_LIMIT_LO w) k true true no v
    | _ => b.plainWrite k true true no v
  else if 0x11000 ≤ k ∧ k < 0x15000 then b.writeRingReg c ((k - 0x11000) / 64) ((k - 0x11000) % 64) v
  else if 0x18000 ≤ k ∧ k < 0x18400 ∧ k % 16 = 12 then b.writeMsixCtl ((k - 0x18000) / 16) v
  else b.plainWrite k true true no v

/-! ### TIDE (R35, R43, R46, R49) -/

/-- A write in TIDE (R49). -/
def Body.writeTide (b : Body) (c : Clock) (k : Nat) (v : Reg32) : Body :=
  let no := fun (b : Body) => b.reject TIDE_STATUS
  if k = TIDE_CTL then b.writeTideCtl c v
  else if k = TIDE_INC then b.writeInc c v
  else if k = TIDE_SET_LO then b.stageLo k v
  else if k = TIDE_SET_HI then b.pairWrite TIDE_SET_LO k true true no v
  else if k = GRID_ORIGIN_LO then b.stageLo k v
  else if k = GRID_ORIGIN_HI then b.pairWrite GRID_ORIGIN_LO k (! b.gridRun) true no v
  else if k = GRID_PERIOD then
    b.plainWrite k (! b.gridRun) (decide (4000 ≤ v.toNat) && decide (b.rnat SHOT_LEN + 4000 ≤ v.toNat)) no v
  else if k = SHOT_LEN then b.plainWrite k (! b.gridRun) (decide (v.toNat + 4000 ≤ b.rnat GRID_PERIOD)) no v
  else if k = GRID_CMD then b.writeGridCmd c v
  else if 0x20100 ≤ k ∧ k < 0x20300 then
    let n := (k - 0x20100) / 16
    match (k - 0x20100) % 16 with
    | 0x0 => b.stageLo k v
    | 0x4 => b.writeTarget c n v
    | 0xC => b.writeAlarmCtl n v
    | _ => b.plainWrite k true true no v
  else if 0x20400 ≤ k ∧ k < 0x20600 then
    if k % 32 = 0 then b.writeCapCtl c ((k - 0x20400) / 32) v else b.plainWrite k true true no v
  else b.plainWrite k true true no v

/-! ### RING (R85) -/

/-- A write in RING (R85). Exports of a stopped grid come into force in the next cycle, so they wait for the tick. -/
def Body.writeRing (b : Body) (c : Clock) (k : Nat) (v : Reg32) : Body :=
  let no := fun (b : Body) => b.ringReject c
  if k = RING_CTL then b.writeRingCtl c v
  else if k = SYNC_CFG then b.writeSyncCfg c v
  else if k = SERVO_CFG then b.writeServoCfg c v
  else if k = ASYM_UP ∨ k = ASYM_DN then b.writeAsym k v
  else if k = ASYM_CONFIRM then b.asymConfirm c v
  else if k = EV_EXPORT_LO ∨ k = EV_IMPORT_LO then b.stageLo k v
  else if k = EV_EXPORT_HI then b.pairWrite EV_EXPORT_LO k true true no v
  else if k = EV_IMPORT_HI then b.pairWrite EV_IMPORT_LO k true true no v
  else b.plainWrite k (! b.ringEn) true no v

/-! ### EVT (R338) -/

/-- A write in EVT (R329, R332 to R338). -/
def Body.writeEvt (b : Body) (c : Clock) (k : Nat) (v : Reg32) : Body :=
  let no := fun (b : Body) => b.reject EV_STATUS
  if k = EV_CTL then (if bit v 0 then b.evtClear else b)
  else if k = EV_FIRE0 then b.evFire c false v
  else if k = EV_FIRE1 then b.evFire c true v
  else if 0x40040 ≤ k ∧ k < 0x40080 then b.writeRepub ((k - 0x40040) / 4) v
  else if 0x40200 ≤ k ∧ k < 0x40220 then b.writeTrgCfg ((k - 0x40200) / 4) v
  else if 0x40220 ≤ k ∧ k < 0x40240 then b.writeLegCfg c ((k - 0x40220) / 4) v
  else if 0x41000 ≤ k ∧ k < 0x42800 then
    let o := (k - 0x41000) % 32
    if o = 24 then b.writeTiStat ((k - 0x41000) / 32) v
    else if o < 24 ∧ o % 8 = 0 then b.stageLo k v
    else if o < 24 ∧ o % 8 = 4 then b.pairWrite (k - 4) k true true no v
    else b
  else b.plainWrite k true true no v

/-! ### MEM (R324) -/

/-- A descriptor that reads or writes device memory: a load or an image from it, a load of local words in Guarded mode, a COPY (R281 to
R283, R288). The buffers of bindings and of the Scope have conditions of their own (R324). -/
def Body.usesDev (b : Body) (d : Desc) : Bool :=
  match d.kind with
  | 1 => d.srcDev || (d.dest.testBit 4 && b.guarded (d.dest % 16))
  | 2 => d.srcDev
  | 3 => d.srcDev
  | 4 => d.srcDev
  | 5 => bit d.raw (8 * 22)
  | 6 => true
  | 0xB => bit d.raw (8 * 17)
  | _ => false

/-- The block is idle for a change of the interleave (R324). -/
def Body.memIdle (b : Body) : Bool :=
  b.fifos.entries.all (fun e => e.2.bind.isNone) &&
  (List.range 16).all (fun u => ! b.uLive u) &&
  b.host.rings.entries.all (fun e => e.2.descs.all (fun d => ! b.usesDev d)) &&
  b.coves.entries.all (fun e => e.2.loading.isNone && ! e.2.build)

/-- CNT_CLR of MEM: the MEM, MCk and FIFO counters (R324). -/
def Body.clearMem (b : Body) : Body :=
  let b := b.clearCounts ([SCRUB_PASS, ECC_CORR_COUNT, ECC_UNCORR_COUNT, CREDIT_HOLD_COUNT] ++ (List.range 4).map MC_CORR_COUNT)
  (List.range 256).foldl (fun b i =>
    b.clearCounts [FIFO_OVERSIZE_COUNT (i / 16) (i % 16), FIFO_CUT_COUNT (i / 16) (i % 16), FIFO_DROP_COUNT (i / 16) (i % 16)]) b

/-- A write in MEM (R306, R313, R319, R324). -/
def Body.writeMem (b : Body) (c : Clock) (k : Nat) (v : Reg32) : Body :=
  let no := fun (b : Body) => b.reject MEM_STATUS
  if k = MEM_CTL then
    if ! b.memIdle && slChanged (b.rget MEM_CTL) v 2 then no b
    else
      let b := b.rset MEM_CTL (v &&& 3)
      if bit v 2 then b.clearMem else b
  else if k = SCRUB_CFG then b.plainWrite k true (decide (24 ≤ fld v 0 10) && decide (fld v 0 10 ≤ 720)) no v
  else if 0x51000 ≤ k ∧ k < 0x55000 then
    let n := (k - 0x51000) / 0x400
    let f := (k - 0x51000) % 0x400 / 0x40
    match (k - 0x51000) % 0x40 with
    | 0 => b.writeFifoCtl c n f v
    | 8 => b.writeDecl n f v
    | _ => b
  else b.plainWrite k true true no v

/-! ### THM, FLT, PMC, FUSE, SCOPE (R355, R377, R398, R400, R416) -/

/-- CNT_CLR of THM: the counters and POWER_PEAK (R398). -/
def Body.clearThm (b : Body) : Body := b.clearCounts [THROTTLE_COUNT, SHED_HOLD_COUNT, POWER_PEAK]

/-- A write in THM (R396, R398). -/
def Body.writeThm (b : Body) (k : Nat) (v : Reg32) : Body :=
  let no := fun (b : Body) => b.reject THM_STATUS
  if k = THM_CTL then
    let b1 := b.plainWrite k true (fld v 0 4 != 0 && fld v 4 6 != 0 && decide (fld v 4 6 ≤ 40)) no v
    if bit v 17 && b1.log.refused == b.log.refused then b1.clearThm else b1
  else if k = GOV_CTL then
    let b1 := b.plainWrite k true (decide (fld v 0 5 ≤ 16)) no v
    b1.fixStep b1.throttleStep
  else b.plainWrite k true true no v

/-- A write in FLT: FLT_CTL is idle while the grid is stopped; a switch-over takes no time in the model (R416). -/
def Body.writeFlt (b : Body) (k : Nat) (v : Reg32) : Body := b.plainWrite k (! b.gridRun) true (fun b => b.reject FLT_STATUS) v

/-- A write in PMC (R387, R400). -/
def Body.writePmc (b : Body) (c : Clock) (k : Nat) (v : Reg32) : Body :=
  if k = PMC_CTL then b.writePmcCtl c v else b.plainWrite k true true (fun b => b.reject PMC_STATUS) v

/-- A write in FUSE (R363, R377). -/
def Body.writeFuse (b : Body) (k : Nat) (v : Reg32) : Body :=
  if k = FUSE_CTL then (if bit v 0 then b.clearCounts [CAL_DONE_COUNT, CAL_FAIL_COUNT, DRIFT_COUNT] else b)
  else if k = FUSE_RD_ADDR then b.writeFuseAddr v
  else if k = CAL_SEL then b.writeCalSel v
  else b.plainWrite k true true (fun b => b.reject FUSE_STATUS) v

/-- A refusal at a capture unit sets CFG_REJECT of the unit and of the block (R355). -/
def Body.unitReject (b : Body) (u : Nat) : Body := (b.reject (U_STATUS u)).reject SCOPE_STATUS

/-- A write among the registers of capture unit `u` but for U_CMD (R355). -/
def Body.writeUnit (b : Body) (u o : Nat) (v : Reg32) : Body :=
  let no := fun (b : Body) => b.unitReject u
  let idle := ! b.uLive u
  let k := U_CTL u + o
  match o with
  | 0x00 => b.plainWrite k idle (decide (fld v 13 4 ≤ 12)) no v
  | 0x0C => b.stageLo k v
  | 0x10 => b.pairWrite (k - 4) k idle true no v
  | 0x18 => b.plainWrite k idle (fld v 0 16 != 0) no v
  | 0x1C => b.plainWrite k idle (fld v 0 16 != 0) no v
  | 0x20 => b.stageLo k v
  | 0x24 => b.pairWrite (k - 4) k idle true no v
  | 0x30 => b.stageLo k v
  | 0x34 => b.pairWrite (k - 4) k idle true no v
  | 0x3C => b.stageLo k v
  | 0x40 => b.pairWrite (k - 4) k idle true no v
  | 0x48 => b.plainWrite k idle (fld v 0 17 != 0 && decide (fld v 0 17 ≤ 65536)) no v
  | _ => b.plainWrite k idle true no v

/-- A write in SCOPE (R349, R355). -/
def writeScope (k : Nat) (v : Reg32) (s : State) : State :=
  if k = SCOPE_CTL then
    (if bit v 0 then { s with body := s.body.clearCounts [SCOPE_OVERRUN_COUNT, MASK_FAIL_COUNT] } else s)
  else if 0xA0100 ≤ k ∧ k < 0xA0900 then
    let u := (k - 0xA0100) / 0x80
    let o := (k - 0xA0100) % 0x80
    if o = 8 then writeUnitCmd u v s else { s with body := s.body.writeUnit u o v }
  else { s with body := s.body.plainWrite k true true (fun b => b.reject SCOPE_STATUS) v }

/-! ### COVE (R208) -/

/-- A write in COVE `n` (R203, R208). -/
def writeCove (n k : Nat) (v : Reg32) (s : State) : State :=
  let o := (k - 0x100000) % 0x10000
  if o = 0 then writeCoveCtl s n v
  else if o = 0x1C then writeReloadBase s n v
  else { s with body :=
    (let b := s.body
     if o = 0x18 then b.stageLo k v
     else if 0x100 ≤ o ∧ o < 0x280 then
       let g := 12 * n + (o - 0x100) / 32
       match (o - 0x100) % 32 with
       | 0x00 => b.writeEngCtl g v
       | 0x04 => b.writeEngStatus g v
       | 0x08 => b.writeEntry g v
       | 0x10 => b.writeEngCmd g v
       | 0x0C | 0x14 => if b.oddTwin g then (b.refuseEng g).1 else b
       | _ => b
     else b.plainWrite k true true (fun b => b.reject (COVE_STATUS n)) v) }

/-! ### DRV, PRB, RCV, FLX, BIAS, DEC, TILE (R107, R121, R131, R157, R178, R434) -/

/-- A write among the registers of drive or probe port `p` (R87, R107). -/
def Body.writePort (b : Body) (c : Clock) (p o k : Nat) (v : Reg32) : Body :=
  let no := fun (b : Body) => b.reject (PORT_STATUS p)
  let idle := b.portIdle c p
  match o with
  | 0x00 => b.writePortCtl c p v
  | 0x08 => b.stageLo k v
  | 0x0C => b.writeCarrier c p v
  | 0x10 => b.plainWrite k idle (! bit v 17) no v
  | _ =>
    if 0x100 ≤ o ∧ o % 16 = 0 then b.stageLo k v
    else if 0x100 ≤ o ∧ o % 16 = 4 then b.writeSlotFreq c p ((o - 0x100) / 16) v
    else b.plainWrite k idle true no v

/-- A write among the registers of read-out input `n` (R133, R155, R157). -/
def Body.writeRcv (b : Body) (c : Clock) (n o k : Nat) (v : Reg32) : Body :=
  let no := fun (b : Body) => b.reject (RCV_STATUS n)
  if o = 0 then b.writeRcvCtl c n v
  else if k = AVG_N n then b.writeAvgN c n v
  else if 0x100 ≤ o then
    let t := (o - 0x100) / 0x80
    match (o - 0x100) % 0x80 with
    | 0x00 => b.writeToneCfg c n t v
    | 0x04 => b.stageLo k v
    | 0x08 => b.writeToneFreq c n t v
    | 0x2C => b.writeMapCfg c n t v
    | _ => b.plainWrite k (b.rcvIdle c n) true no v
  else b.plainWrite k (b.rcvIdle c n) true no v

/-- A write among the registers of flux port `f` (R118, R121); FB_PAGE lies in the page of F0 (R429). -/
def Body.writeFlx (b : Body) (c : Clock) (f o k : Nat) (v : Reg32) : Body :=
  if k = FB_PAGE then b.writePage v
  else if o = 0 then b.writeFlxCtl c f v
  else if o = 8 then b.writeLevel c f v
  else if 0x100 ≤ o then b.writeCoef f k v (writable k)
  else b.plainWrite k (b.portIdle c (80 + f)) true (fun b => b.reject (FLX_STATUS f)) v

/-- A write among the registers of bias output `n` (R125, R131). -/
def Body.writeBias (b : Body) (n o : Nat) (v : Reg32) : Body :=
  match o with
  | 0x00 => b.writeBiasCtl n v
  | 0x04 => b.writeBiasStatus n v
  | 0x08 => b.writeBiasCode n v
  | 0x10 => b.writeBiasDg n v
  | _ => b

/-- A write in DEC (R169, R178). -/
def Body.writeDec (b : Body) (k : Nat) (v : Reg32) : Body :=
  let no := fun (b : Body) => b.reject DEC_STATUS
  if k = DEC_CTL then (if bit v 0 then b.decClear else b)
  else if 0x281000 ≤ k then
    let t := (k - 0x281000) / 0x100
    if (k - 0x281000) % 0x100 = 0 then b.writeDtCfg t v else b.plainWrite k (! b.rbit (DT_CFG t) 0) true no v
  else b.plainWrite k true true no v

/-- A write in the TILE block of tile `t` (R434). -/
def Body.writeTile (b : Body) (t o : Nat) (v : Reg32) : Body :=
  if o = 0x30 ∧ bit v 0 then b.clearCount (TILE_LINK_ERR t) else b

/-! ### A write of any register -/

/-- A 32-bit write of the register with key `k`; without a register there it is ignored (R9, R455). -/
def regPut (k : Nat) (v : Reg32) (s : State) : State :=
  let c := s.clock
  let onB (f : Body → Body) : State := { s with body := f s.body }
  if (regInfo k).isNone then s
  else
    match locate k with
    | none => s
    | some (.glb, _, _) => if k = GLB_RESET then writeGlbReset v s else onB (·.writeGlb c k v)
    | some (.hst, _, _) => onB (·.writeHst c k v)
    | some (.tide, _, _) => onB (·.writeTide c k v)
    | some (.ring, _, _) => onB (·.writeRing c k v)
    | some (.evt, _, _) => onB (·.writeEvt c k v)
    | some (.mem, _, _) => onB (·.writeMem c k v)
    | some (.thm, _, _) => onB (·.writeThm k v)
    | some (.flt, _, _) => onB (·.writeFlt k v)
    | some (.pmc, _, _) => onB (·.writePmc c k v)
    | some (.fuse, _, _) => onB (·.writeFuse k v)
    | some (.scope, _, _) => writeScope k v s
    | some (.cove, n, _) => writeCove n k v s
    | some (.port, p, o) => onB (·.writePort c p o k v)
    | some (.rcv, n, o) => onB (·.writeRcv c n o k v)
    | some (.flx, f, o) => onB (·.writeFlx c f o k v)
    | some (.bias, n, o) => onB (·.writeBias n o v)
    | some (.dec, _, _) => onB (·.writeDec k v)
    | some (.tile, t, o) => onB (·.writeTile t o v)

/-- A write at an offset of BAR0, through the page select; beyond the 16 MiB of BAR0 nothing lies (R429, R426). -/
def regWrite (off : Nat) (v : Reg32) (s : State) : State := if off < 2 ^ 24 then regPut (s.body.regKey off) v s else s

/-- The range in which no other access lands during a group (R430). -/
def inShared2 (off : Nat) : Bool := decide (0x260000 ≤ off) && decide (off < 0x280000)

/-- A DW access of a BAR0 write; one into the flux and bias range waits for the end of a group (R430). -/
def barDw (off : Nat) (v : Reg32) (s : State) : State :=
  if inShared2 off ∧ ! s.body.host.landings.isEmpty then
    { s with body := { s.body with host := { s.body.host with heldWrites := s.body.host.heldWrites ++ [(off, 4, v)] } } }
  else regWrite off v s

/-- A BAR0 write of `bytes` bytes, `v` little-endian: the DWs it covers whole are written in ascending order, all in one cycle (assumption 58); a DW
it covers in part is a write narrower than 32 bits, which is ignored (R9, R261). -/
def barWrite (off bytes v : Nat) (s : State) : State :=
  (List.range ((off + bytes + 3) / 4 - off / 4)).foldl (fun s i =>
    let a := 4 * (off / 4 + i)
    if off ≤ a ∧ a + 4 ≤ off + bytes then barDw a (r32 (v / 2 ^ (8 * (a - off)))) s else s) s

/-- REGISTER_WRITE: a BAR0 write of `bytes` bytes at offset `off` (R9, R261, R455). -/
def execRegisterWrite (off : Nat) (bytes : Nat) (v : Nat) (s : State) : Host.Outcome State Fault Refusal :=
  .next (barWrite off bytes v s)

/-- CNT_CLR: a write of the register that holds the CNT_CLR bit of a block (R49, R107, R121, R157, R178, R208, R338). -/
def execCntClr (off : Nat) (v : Reg32) (s : State) : Host.Outcome State Fault Refusal := .next (barDw off v s)

end Sys2Proof.Machine
end

