-- ==== Sys2Proof/Machine/RegRead.lean ====
section
/-! DEFINITION. A read of a setup register (R9, R10, R427, R428): the registers that show the present state, the reads that take
a snapshot, and the descriptors that reach setup registers, TIME_CONTROL and QUERY (R286, R290, R430). -/

namespace Sys2Proof.Machine

/-! ### Registers that show the present -/

/-- A register with one bit set to a live value. -/
def showBit (v : Reg32) (i : Nat) (on : Bool) : Reg32 := setBit v i on

/-- Live bits of a drive, probe or flux port (R107, R121). -/
def Body.showPort (b : Body) (c : Clock) (q o : Nat) (v : Reg32) : Reg32 :=
  let fill := fun (p : PulseCmd → Bool) => r32 ((b.comp q).queue.filter p).length
  match o with
  | 0x04 => showBit v 2 (b.portIdle c q)
  | 0x18 => fill (fun _ => true)
  | _ => if q < 80 ∧ 0x100 ≤ o ∧ o % 16 = 0xC then fill (fun p => p.slot == (o - 0x100) / 16) else v

/-- Live registers of a read-out input (R154, R155, R157). -/
def Body.showRcv (b : Body) (c : Clock) (n k : Nat) (v : Reg32) : Reg32 :=
  if k = RCV_STATUS n then showBit v 2 (b.rcvIdle c n)
  else if k = RCV_QUEUE_FILL n then r32 (b.recv n).fill
  else if k = RESQ_FILL n then r32 (b.recv n).resq.length
  else
    match (List.range 16).find? (fun t => TONE_AVG_COUNT n t == k) with
    | some t => r32 ((b.recv n).avg.get .empty t).count
    | none => v

/-- Live registers of a cove; an odd twin shows its pair's (R201, R208). -/
def Body.showCove (b : Body) (n o : Nat) (v : Reg32) : Reg32 :=
  if o = 4 then showBit v 0 (b.coveIdle n)
  else if 0x100 ≤ o ∧ o < 0x280 then
    let g := b.leader (12 * n + (o - 0x100) / 32)
    let x := b.eng g
    let w := b.rget (ENG_CTL g + (o - 0x100) % 32)
    match (o - 0x100) % 32 with
    | 0x04 => showBit (showBit w 3 (bit x.flags 4)) 4 (bit x.flags 5)
    | 0x0C => x.pc.setWidth 32
    | 0x10 => 0
    | _ => w
  else v

/-- Live registers of HST (R275, R276, R297). -/
def Body.showHst (b : Body) (k : Nat) (v : Reg32) : Reg32 :=
  if k = HST_STATUS then showBit v 1 (decide (b.inflightTotal = 131072))
  else if k = INFLIGHT_TOTAL then r32 b.inflightTotal
  else if 0x11000 ≤ k ∧ k < 0x15000 then
    let r := (k - 0x11000) / 64
    match (k - 0x11000) % 64 with
    | 0x1C => showBit v 1 (b.ringIdle r)
    | 0x28 => r32 (b.inflight r)
    | _ => v
  else v

/-- Live registers of a FIFO (R308, R314). -/
def Body.showFifo (b : Body) (n f o : Nat) (v : Reg32) : Reg32 :=
  let x := b.fifo n f
  match o with
  | 0x00 => setFld v 24 3 (match x.bind with
    | some y => 1 + (if y.host then 2 else 0) + (if y.lost then 4 else 0)
    | none => 0)
  | 0x04 => r32 (x.held + min 0xFFFF x.done.length * 2 ^ 16)
  | _ => v

/-- Live registers of FUSE, with the fuse words (R374, R377). -/
def Body.showFuse (b : Body) (m : Mem) (k : Nat) (v : Reg32) : Reg32 :=
  if k = FUSE_STATUS then showBit (showBit v 0 b.fuseWr.isSome) 1 b.envOk
  else if k = FUSE_GEN_STATE then r32 m.genStates
  else if k = FUSE_KEYS then r32 m.keyStates
  else if k = CAL_STATUS then r32 b.calStatusReg
  else if k = CAL_DATA then b.calData
  else v

/-- Live registers of a converter tile (R434, R435). -/
def Body.showTile (b : Body) (t o : Nat) (v : Reg32) : Reg32 :=
  match o with
  | 0x00 => b.tileStatus t
  | 0x08 => b.rget (TEMP (16 + 2 * t))
  | 0x0C => b.rget (TEMP (17 + 2 * t))
  | 0x10 => b.rget (RISE_TILE t)
  | 0x20 => r32 (fld (b.corr 0x40 5 t 0) 0 16)
  | 0x24 => r32 (fld (b.corr 0x40 5 t 1) 0 16)
  | 0x28 => r32 (fld (b.corr 0x40 5 t 2) 0 16)
  | _ => v

/-- What a read of the register with key `k` returns, snapshots aside: the live value where the register shows the present, else what it
holds. A WO field reads as zero (R10). -/
def regShow (s : State) (k : Nat) : Reg32 :=
  let b := s.body
  let c := s.clock
  let v := b.rget k
  match locate k with
  | none => 0
  | some (.hst, _, _) => b.showHst k v
  | some (.evt, _, _) =>
    if 0x41000 ≤ k ∧ k < 0x42800 ∧ (k - 0x41000) % 32 = 24 then
      let g := (k - 0x41000) / 32
      (List.range 4).foldl (fun v t => showBit v t (b.tiPending (4 * g + t)).isSome) v
    else v
  | some (.mem, _, _) =>
    if 0x51000 ≤ k ∧ k < 0x55000 then b.showFifo ((k - 0x51000) / 0x400) ((k - 0x51000) % 0x400 / 0x40) ((k - 0x51000) % 0x40) v else v
  | some (.flt, _, _) => if k = FLT_STATUS then b.fltStatus else if k = FLT_COND then b.fltCond c else v
  | some (.pmc, _, _) => if k = PMC_STATUS then showBit v 0 b.neapOk else if k = RAIL_OK then b.pwr.rails.setWidth 32 else v
  | some (.fuse, _, _) => b.showFuse s.mem k v
  | some (.cove, n, o) => b.showCove n o v
  | some (.port, p, o) => b.showPort c p o v
  | some (.rcv, n, _) => b.showRcv c n k v
  | some (.flx, f, o) => b.showPort c (80 + f) o v
  | some (.dec, _, _) => if k = DEC_STATUS then showBit v 0 (! b.fab.buffer.isEmpty) else v
  | some (.tile, t, o) => b.showTile t o v
  | some _ => v

/-! ### Reads with side effects (R428) -/

/-- What a read of the register with key `k` does before it returns its value, its own report of the value left out. -/
def regTouch (s : State) (k : Nat) : State :=
  let b := s.body
  let c := s.clock
  let quietly (b' : Body) : State := { s with body := { b' with out := b.out } }
  if k = TIDE_NOW_LO then quietly (b.readTide c)
  else if k = SLOT_PEEK then quietly b.slotPeek
  else if k = FUSE_RD_LO then { (fuseRead s) with body := { (fuseRead s).body with out := b.out } }
  else if k = TILE_ERR_TT_LO then quietly b.readErrTt
  else if k = FLT_COND then { s with body := b.draw }
  else if 0x281000 ≤ k ∧ k < 0x281800 ∧ k % 0x100 = 8 then quietly (b.dtResultRead ((k - 0x281000) / 0x100))
  else if 0x1100 ≤ k ∧ k < 0x1300 ∧ k % 16 = 4 then quietly (b.pcntRead ((k - 0x1100) / 16))
  else s

/-- A counter's low half is its own (R420). -/
def regValue (s : State) (k : Nat) : Reg32 :=
  if 0x1100 ≤ k ∧ k < 0x1300 ∧ k % 16 = 4 then r32 (s.body.pcntStart ((k - 0x1100) / 16)) else regShow s k

/-- A read at an offset of BAR0: zero where no register lies (R9). -/
def regRead (s : State) (off : Nat) : Reg32 × State :=
  let k := s.body.regKey off
  if 2 ^ 24 ≤ off ∨ off % 4 ≠ 0 ∨ (regInfo k).isNone then (0, s)
  else
    let t := regTouch s k
    (regValue (if k = FLT_COND then s else t) k, t)

/-- A BAR0 read of `bytes` bytes at an offset: every register it touches is read whole, in ascending order, and the addressed bytes are returned
(R9, R261). -/
def barRead (off bytes : Nat) (s : State) : List Byte × State :=
  let t := (List.range ((off + bytes + 3) / 4 - off / 4)).foldl (fun (t : List Byte × State) i =>
    let r := regRead t.2 (4 * (off / 4 + i))
    (t.1 ++ leBytes 4 r.1.toNat, r.2)) ([], s)
  ((t.1.drop (off % 4)).take bytes, t.2)

/-! ### Groups of accesses (R286, R290, R430) -/

/-- The offset and value of entry `i` of a TIME_CONTROL, and the offset of entry `i` of a QUERY. -/
def Desc.wOff (d : Desc) (i : Nat) : Nat := d.fld (24 + 8 * i) 32
def Desc.wVal (d : Desc) (i : Nat) : Reg32 := r32 (d.fld (28 + 8 * i) 32)
def Desc.qOff (d : Desc) (i : Nat) : Nat := d.fld (20 + 4 * i) 32

/-- Entries of a group. -/
def Desc.entries (d : Desc) : Nat := if d.kind = 0xD then d.fld 16 8 else d.fld 10 8

/-- Does a group reach the flux and bias range? -/
def Desc.inFb (d : Desc) : Bool :=
  (List.range d.entries).any (fun i => inShared2 (if d.kind = 0xD then d.qOff i else d.wOff i))

/-- The descriptor with its place in the fetch order, if it acts. -/
def Body.activeAt (b : Body) (r order : Nat) : Option Desc :=
  (b.hring r).descs.find? (fun d => d.order == order && d.st == .active)

/-- Replace a group in progress, or end it. -/
def Body.setLanding (b : Body) (l : Landing) (new : Option Landing) : Body :=
  let ls := b.host.landings.filterMap (fun x => if x.order = l.order then new else some x)
  { b with host := { b.host with landings := ls } }

/-- The end of a TIME_CONTROL: CFG_REJECT with the mask of the refused writes, or OK (R286). -/
def writesDone (l : Landing) (d : Desc) (s : State) : State :=
  finish l.ring d (if d.mask = 0 then 0 else 0x0A) d.mask 0 { s with body := s.body.setLanding l none }

/-- The end of a QUERY: the values go to the host in one write, then the completion (R290). -/
def queryDone (l : Landing) (d : Desc) (s : State) : State :=
  let bytes := (l.vals.map (fun v => leBytes 4 v.toNat)).flatten
  let b := s.body.setLanding l none
  if b.winOk d.srcAddr bytes.length true then
    finish l.ring d 0 0 0 { s with body := b.hostWrite d.srcAddr bytes true }
  else finish l.ring d 6 0 0 { s with body := b }

/-- The next access of a group lands (R286, R290). -/
def landNext (l : Landing) (s : State) : State :=
  match s.body.activeAt l.ring l.order with
  | none => { s with body := s.body.setLanding l none }
  | some d =>
    if l.query then
      let r := regRead s (d.qOff l.idx)
      let l1 := { l with idx := l.idx + 1, vals := l.vals ++ [r.1] }
      let t : State := { r.2 with body := r.2.body.setLanding l (some l1) }
      if l1.idx < d.entries then t else queryDone l1 d t
    else
      let n := s.body.log.refused
      let t := regWrite (d.wOff l.idx) (d.wVal l.idx) s
      let d1 := if n < t.body.log.refused then { d with mask := d.mask + 2 ^ l.idx } else d
      let l1 := { l with idx := l.idx + 1 }
      let t : State := { t with body := (t.body.setDesc l.ring d1).setLanding l (some l1) }
      if l1.idx < d.entries then t else writesDone l1 d1 t

/-- A group may begin: one that reaches the flux and bias range only alone (R430). -/
def Body.groupFree (b : Body) (d : Desc) : Bool := ! d.inFb || b.host.landings.isEmpty

/-- The group of a descriptor before its first access. -/
def Desc.landing (d : Desc) (r : Nat) : Landing := ⟨r, d.seq, d.order, 0, [], d.kind == 0xD⟩

/-- A group joins those in progress. -/
def Body.addLanding (b : Body) (r : Nat) (d : Desc) : Body :=
  { b with host := { b.host with landings := b.host.landings ++ [d.landing r] } }

/-- A group begins: its first access lands in this cycle. -/
def startGroup (r : Nat) (d : Desc) (s : State) : State := landNext (d.landing r) { s with body := s.body.addLanding r d }

/-! ### TIME_CONTROL and QUERY (R286, R290) -/

/-- Offsets that TIME_CONTROL may not write: GLB, HST with the MSI-X table, FUSE, and beyond BAR0 (R286). -/
def offBarred (off : Nat) : Bool :=
  decide (off < 0x20000) || (decide (0x90000 ≤ off) && decide (off < 0xA0000)) || decide (0x1000000 ≤ off)

/-- WRITES starts: BAD_FIELD for a reserved OP, for COUNT, WHEN or an unaligned offset, BAD_TARGET for an offset it may not write, CFG_REJECT for WHEN 2
while not anchored; else it waits for its time (R286). -/
def writesStart (r : Nat) (s : State) (d : Desc) : State :=
  let offs := (List.range d.entries).map d.wOff
  if 1 < d.op ∨ d.entries < 1 ∨ 5 < d.entries ∨ 2 < d.fld 9 8 ∨ offs.any (fun o => o % 4 != 0) then finish r d 2 0 0 s
  else if offs.any offBarred then finish r d 4 0 0 s
  else if d.fld 9 8 = 2 ∧ ! s.body.anchored then finish r d 0x0A 0 0 s
  else { s with body := s.body.setDesc r { d with aux := s.body.whenMark } }

/-- WRITES (R286). -/
def execWrites (r : Fin 256) (seq : Reg32) (s : State) : Host.Outcome State Fault Refusal :=
  .next (startKind r seq.toNat (fun d => d.kind == 9 && d.op != 1) (writesStart r) s)

/-- TIME_CONTROLs that wait for their time, over all rings. -/
def Body.waitingWrites (b : Body) : List (Nat × Desc) :=
  (b.host.rings.entries.map (fun e => (e.2.descs.filter (fun d => d.kind == 9 && d.op == 0 && d.st == .active &&
    ! b.host.landings.any (fun l => l.order == d.order))).map (fun d => (e.1, d)))).flatten

/-- Insert by the order of fetch. -/
def insertDesc (x : Nat × Desc) : List (Nat × Desc) → List (Nat × Desc)
  | [] => [x]
  | y :: t => if x.2.order < y.2.order then x :: y :: t else y :: insertDesc x t

/-- TIME_CONTROLs whose time has come, in the order of fetch. -/
def State.writesReady (s : State) : List (Nat × Desc) :=
  (s.body.waitingWrites.filter (fun e => s.body.whenHolds s.clock e.2)).foldl (fun l e => insertDesc e l) []

/-- TIME_CONTROL_DUE: the writes of every TIME_CONTROL whose time has come begin, in the order of fetch; behind a group fetched later they begin with
the next cycle (R277, R286). -/
def writesDue (s : State) : State :=
  s.writesReady.foldl (fun s e =>
    if s.body.groupFree e.2 && s.body.host.landings.all (fun l => decide (l.order < e.2.order)) then startGroup e.1 e.2 s else s) s

/-- TIME_CONTROL_DUE (R286). -/
def execTimeControlDue (s : State) : Host.Outcome State Fault Refusal := .next (writesDue s)

/-- Insert a group by the order of fetch. -/
def insertLanding (x : Landing) : List Landing → List Landing
  | [] => [x]
  | y :: t => if x.order < y.order then x :: y :: t else y :: insertLanding x t

/-- BAR0 writes that waited for the end of a group land once no group is in progress (R430). -/
def landHeld (s : State) : State :=
  if s.body.host.landings.isEmpty then
    s.body.host.heldWrites.foldl (fun s w => regWrite w.1 w.2.2 s) { s with body := { s.body with host := { s.body.host with heldWrites := [] } } }
  else s

/-- At the start of a cycle: held BAR0 writes, then every TIME_CONTROL whose time has come joins the groups in progress, and every group makes its next
access, in the order of fetch (R277, R286, R430). -/
def landTick (s : State) : State :=
  let s := landHeld s
  let s := s.writesReady.foldl (fun s e =>
    if s.body.groupFree e.2 then { s with body := s.body.addLanding e.1 e.2 } else s) s
  (s.body.host.landings.foldl (fun l x => insertLanding x l) []).foldl (fun s l => landNext l s) s

/-- ANCHOR of TIME_CONTROL starts: BAD_FIELD for WHEN, CFG_REJECT for WHEN 2 while not anchored; else it waits for its time (R286). -/
def anchorStart (r : Nat) (s : State) (d : Desc) : State :=
  if 2 < d.whenCode then finish r d 2 0 0 s
  else if d.whenCode = 2 ∧ ! s.body.anchored then finish r d 0x0A 0 0 s
  else { s with body := s.body.setDesc r { d with aux := s.body.whenMark } }

/-- Its time has come: a write of ANCHOR to TIDE_CTL; a refusal completes with CFG_REJECT, acceptance waits for the anchor, `mask` 1
(R286). -/
def anchorWrite (r : Nat) (s : State) (d : Desc) : State :=
  let n := s.body.log.refused
  let t : State := { s with body := s.body.writeTideCtl s.clock (s.body.rget TIDE_CTL ||| 2) }
  if n < t.body.log.refused then finish r d 0x0A 0 0 t
  else { t with body := t.body.setDesc r { d with mask := 1 } }

/-- An ANCHOR that waits for its time makes its request once it has come; one that was accepted completes OK once the device is anchored and no
anchoring is pending (R286). -/
def anchorLook (r : Nat) (s : State) (d : Desc) : State :=
  if d.mask = 0 then (if s.body.whenHolds s.clock d then anchorWrite r s d else s)
  else if s.body.anchored && s.body.grid.anchorAt.isNone then finish r d 0 0 0 s else s

/-- TIME_CONTROL_ANCHOR (R286). -/
def execTimeControlAnchor (r : Fin 256) (seq : Reg32) (s : State) : Host.Outcome State Fault Refusal :=
  .next (startOrLook r seq.toNat (fun d => d.kind == 9 && d.op == 1) (anchorStart r) (anchorLook r) s)

/-- QUERY: BAD_FIELD for COUNT, an unaligned address or offset, or an entry beyond COUNT; else its reads begin, or wait for another
group (R290, R430). -/
def queryStart (r : Nat) (s : State) (d : Desc) : State :=
  let n := d.entries
  let beyond := (List.range 10).any (fun i => decide (n ≤ i) && d.qOff i != 0)
  if n < 1 ∨ 10 < n ∨ d.srcAddr % 64 ≠ 0 ∨ beyond ∨ (List.range n).any (fun i => d.qOff i % 4 != 0) then finish r d 2 0 0 s
  else if s.body.groupFree d then startGroup r d s
  else s

/-- A QUERY that has waited for another group begins. -/
def queryLook (r : Nat) (s : State) (d : Desc) : State :=
  if d.entries < 1 ∨ 10 < d.entries ∨ s.body.host.landings.any (fun l => l.order == d.order) ∨ ! s.body.groupFree d then s
  else startGroup r d s

/-- QUERY (R290). -/
def execQuery (r : Fin 256) (seq : Reg32) (s : State) : Host.Outcome State Fault Refusal :=
  .next (startOrLook r seq.toNat (fun d => d.kind == 0xD) (queryStart r) (queryLook r) s)

end Sys2Proof.Machine
end

