-- ==== Sys2Proof/Machine/Shot.lean ====
section
/-! DEFINITION. Shots: the Slack horizon, the start of a shot, Slack commit points and the final one (R38, R40 to R42, R68, R73). -/

namespace Sys2Proof.Machine

/-! ### The Slack horizon (R41, R68) -/

/-- The governor holds new shots (R397). -/
def Body.govHolds (b : Body) : Bool := decide (5 ≤ b.shedLevel)

/-- The reasons for a hold vote, and the credit check and the governor's count they come with (R68, R320, R397). -/
def Body.holdReasons (b : Body) : Body × Nat :=
  let r := b.creditHorizon
  let b := if r.1.govHolds then r.1.count SHED_HOLD_COUNT 1 else r.1
  (b, (if r.2 then 1 else 0) + (if b.tideBreak && b.rbit RING_CTL 7 then 2 else 0) + (if b.govHolds then 4 else 0))

/-- Cast a hold vote: the Lighthouse counts its own, a member sends HOLD_VOTE on both rings (R41, R67, R68). -/
def Body.castVote (b : Body) (reasons : Nat) : Body :=
  let g := b.grid
  let mask := 2 ^ b.devId
  if b.isLighthouse then
    { b with grid := { g with voteMask := g.voteMask ||| mask, voteReasons := g.voteReasons ||| reasons } }
  else b.sendBoth 6 (b.rfld RING_STATUS 20 4) false 0 g.next (g.annEpoch * 2 ^ 48 + mask * 2 ^ 32 + reasons * 2 ^ 28) 0

/-- SLACK_HORIZON: at B − 2,000 the device checks its credits and votes hold for any reason (R41). -/
def Body.slackHorizon (b : Body) (c : Clock) : Body :=
  if b.gridRun && b.grid.ann && ! b.grid.horizon && b.within c b.grid.next 2000 then
    let r := b.holdReasons
    let b : Body := { r.1 with grid := { r.1.grid with horizon := true, voted := r.2 } }
    if r.2 = 0 then b else b.castVote r.2
  else b

/-- SLACK_HORIZON (R41). -/
def execSlackHorizon (s : State) : Host.Outcome State Fault Refusal := nextBody (fun c b => b.slackHorizon c) s

/-! ### The start of a shot (R38) -/

/-- A shot starts at the boundary in settlement: its verdict is start, the boundary is reached, the device is in no Tide break (R38, R73). -/
def Body.shotDue (b : Body) (c : Clock) : Bool :=
  let g := b.grid
  b.gridRun && g.ann && decide (g.verdict = some false) && decide (g.next ≤ c.now) && decide (g.win ≠ .shot) && ! b.tideBreak

/-- Every enabled table looks up in the first cycle of the epoch in which it is complete (R171). -/
def Body.armTables (b : Body) : Body :=
  (List.range 8).foldl (fun b t => b.setTable t { b.table t with trig := (b.table t).en }) b

/-- A new epoch begins: the fabric sweeps when it is zero (R38, R160). -/
def Body.newEpoch (b : Body) : Body :=
  let e := (b.epoch + 1) % 2 ^ 16
  let b := (b.rsetFld SHOT_EPOCH 0 16 e).clearFlags e
  let b := if e = 0 then b.sweepFab else b
  b.armTables

/-- SHOT_START: SHOT_EPOCH counts, IN_SHOT is set, the shot event is published, credits are reserved and the engines released (R38, R199,
R320). -/
def Body.shotStart (b : Body) (c : Clock) : Body :=
  if b.shotDue c then
    let g := b.grid
    let b := (b.newEpoch.rsetBit TIDE_STATUS 2 true).perf 0x02 0 1
    let b : Body := { b with
      grid := { g with win := .shot, bound := g.next, next := g.next + b.gridPeriod, ann := false, horizon := false, voted := 0,
                       verdict := none, done := false, started := g.next, shotFin := g.next + b.shotLen }
      ring := { b.ring with kMissed := 0 } }
    let b := if b.rbit TIDE_CTL 8 then b.publish c (b.rfld TIDE_CTL 2 6) 0 0 false else b
    b.creditShot.release c
  else b

/-- SHOT_START (R38). -/
def execShotStart (s : State) : Host.Outcome State Fault Refusal := nextBody (fun c b => b.shotStart c) s

/-! ### Commit points (R40, R42) -/

/-- Every change that waits for Slack applies in one step (R40): increment, cores, tables, coefficients, bias outputs, ring, a
snapshot, declarations, reloads, calibration results, shedding, a switch back to the preferred reference. -/
def Body.commitPoint (b : Body) (c : Clock) : Body :=
  let b := (b.incCommit c).coresCommit.tablesCommit.coefsCommit.biasCommit.ringCommit c
  let b := if b.rbit PERF_CTL 10 then b.snapshot else b
  let b := (b.declCommit.reloadCommit.calCommit.shedCommit c).revertCommit c
  { b with host := { b.host with commitMark := b.host.commitMark + 1 }, grid := { b.grid with lastCommit := some c.cyc, done := true } }

/-- The Slack commit point comes: in a Slack window or the window a start opens, in the first quiet cycle that is not past B′ − 3,000; in
a held interval at its boundary. While a stop waits, its final commit point takes its place (R40, R42). -/
def Body.commitDue (b : Body) (c : Clock) : Bool :=
  let g := b.grid
  b.gridRun && ! g.done && ! g.stopping &&
  (decide (g.win = .held) ||
    ((decide (g.win = .slack) || decide (g.win = .start)) && b.quiet c && ! b.within c g.next 2999))

/-- SLACK_COMMIT (R40). -/
def Body.slackCommit (b : Body) (c : Clock) : Body := if b.commitDue c then b.commitPoint c else b

/-- SLACK_COMMIT (R40). -/
def execSlackCommit (s : State) : Host.Outcome State Fault Refusal := nextBody (fun c b => b.slackCommit c) s

/-- The final commit point of a stop: no boundary announced, no shot window open, the device quiet (R42). -/
def Body.finalDue (b : Body) (c : Clock) : Bool :=
  b.gridRun && b.grid.stopping && ! b.grid.ann && decide (b.grid.win ≠ .shot) && b.quiet c

/-- FINAL_COMMIT: every waiting change applies and GRID_RUN clears (R42). -/
def Body.finalCommit (b : Body) (c : Clock) : Body :=
  if b.finalDue c then
    let b := (b.commitPoint c).rsetBit TIDE_STATUS 1 false
    { b with grid := { b.grid with win := .stopped, stopping := false } }
  else b

/-- FINAL_COMMIT (R42). -/
def execFinalCommit (s : State) : Host.Outcome State Fault Refusal := nextBody (fun c b => b.finalCommit c) s

end Sys2Proof.Machine
end

