-- ==== Sys2Proof/Machine/Dispatch.lean ====
section
/-! DEFINITION. The meaning of each command: one arm per constructor, each a direct call of that command's own meaning. -/

namespace Sys2Proof.Machine

def exec (i : Instr) (s : State) : Host.Outcome State Fault Refusal :=
  match i with
  | .registerWrite off bytes v => Sys2Proof.Machine.execRegisterWrite off bytes v s
  | .tideNowLoRead => Sys2Proof.Machine.execTideNowLoRead s
  | .slotPeekRead => Sys2Proof.Machine.execSlotPeekRead s
  | .dtResultLoRead t => Sys2Proof.Machine.execDtResultLoRead t s
  | .fuseRdLoRead => Sys2Proof.Machine.execFuseRdLoRead s
  | .tileErrTtLoRead => Sys2Proof.Machine.execTileErrTtLoRead s
  | .pcntLoRead n => Sys2Proof.Machine.execPcntLoRead n s
  | .pcntHiWrite n v => Sys2Proof.Machine.execPcntHiWrite n v s
  | .tideIncWrite v => Sys2Proof.Machine.execTideIncWrite v s
  | .anchor v => Sys2Proof.Machine.execAnchor v s
  | .anchorInstant => Sys2Proof.Machine.execAnchorInstant s
  | .gridCmdStart v => Sys2Proof.Machine.execGridCmdStart v s
  | .gridCmdStop v => Sys2Proof.Machine.execGridCmdStop v s
  | .finalCommit => Sys2Proof.Machine.execFinalCommit s
  | .announceSend => Sys2Proof.Machine.execAnnounceSend s
  | .slackHorizon => Sys2Proof.Machine.execSlackHorizon s
  | .verdictSend => Sys2Proof.Machine.execVerdictSend s
  | .verdictMiss => Sys2Proof.Machine.execVerdictMiss s
  | .shotStart => Sys2Proof.Machine.execShotStart s
  | .slackStart => Sys2Proof.Machine.execSlackStart s
  | .slackCommit => Sys2Proof.Machine.execSlackCommit s
  | .slackOverrun => Sys2Proof.Machine.execSlackOverrun s
  | .almTargetHiWrite n v => Sys2Proof.Machine.execAlmTargetHiWrite n v s
  | .alarmFire n => Sys2Proof.Machine.execAlarmFire n s
  | .capture n src => Sys2Proof.Machine.execCapture n src s
  | .ack n v => Sys2Proof.Machine.execAck n v s
  | .coreEn p v => Sys2Proof.Machine.execCoreEn p v s
  | .coreReady p => Sys2Proof.Machine.execCoreReady p s
  | .cntClr off v => Sys2Proof.Machine.execCntClr off v s
  | .timeSend => Sys2Proof.Machine.execTimeSend s
  | .delayReqSend ringB => Sys2Proof.Machine.execDelayReqSend ringB s
  | .loopSend => Sys2Proof.Machine.execLoopSend s
  | .timeFrame rx => Sys2Proof.Machine.execTimeFrame rx s
  | .delayReq rx => Sys2Proof.Machine.execDelayReq rx s
  | .delayResp rx => Sys2Proof.Machine.execDelayResp rx s
  | .loopFrame rx => Sys2Proof.Machine.execLoopFrame rx s
  | .announce rx => Sys2Proof.Machine.execAnnounce rx s
  | .holdVote rx => Sys2Proof.Machine.execHoldVote rx s
  | .verdict rx => Sys2Proof.Machine.execVerdict rx s
  | .decisionFrame rx => Sys2Proof.Machine.execDecisionFrame rx s
  | .eventFrame rx => Sys2Proof.Machine.execEventFrame rx s
  | .anchorFrame rx => Sys2Proof.Machine.execAnchorFrame rx s
  | .takeoverFrame rx => Sys2Proof.Machine.execTakeoverFrame rx s
  | .linkFrame rx => Sys2Proof.Machine.execLinkFrame rx s
  | .linkUp ringB => Sys2Proof.Machine.execLinkUp ringB s
  | .servoStage => Sys2Proof.Machine.execServoStage s
  | .lhSilent => Sys2Proof.Machine.execLhSilent s
  | .ringBreak ringB => Sys2Proof.Machine.execRingBreak ringB s
  | .unwrap => Sys2Proof.Machine.execUnwrap s
  | .asymConfirm v => Sys2Proof.Machine.execAsymConfirm v s
  | .remeasure v => Sys2Proof.Machine.execRemeasure v s
  | .ringEn v => Sys2Proof.Machine.execRingEn v s
  | .carrierHiWrite p v => Sys2Proof.Machine.execCarrierHiWrite p v s
  | .pulse c w0 w1 w2 w3 => Sys2Proof.Machine.execPulse c w0 w1 w2 w3 s
  | .forkArm c w0 w1 w2 w3 => Sys2Proof.Machine.execForkArm c w0 w1 w2 w3 s
  | .const c w0 w1 w2 w3 => Sys2Proof.Machine.execConst c w0 w1 w2 w3 s
  | .setFreq c w0 w1 w2 w3 => Sys2Proof.Machine.execSetFreq c w0 w1 w2 w3 s
  | .setFrame c w0 w1 w2 w3 => Sys2Proof.Machine.execSetFrame c w0 w1 w2 w3 s
  | .shiftFrame c w0 w1 w2 w3 => Sys2Proof.Machine.execShiftFrame c w0 w1 w2 w3 s
  | .forkShift c w0 w1 w2 w3 => Sys2Proof.Machine.execForkShift c w0 w1 w2 w3 s
  | .fluxPulse c w0 w1 w2 w3 => Sys2Proof.Machine.execFluxPulse c w0 w1 w2 w3 s
  | .fluxForkArm c w0 w1 w2 w3 => Sys2Proof.Machine.execFluxForkArm c w0 w1 w2 w3 s
  | .ramp c w0 w1 w2 w3 => Sys2Proof.Machine.execRamp c w0 w1 w2 w3 s
  | .setLevel c w0 w1 w2 w3 => Sys2Proof.Machine.execSetLevel c w0 w1 w2 w3 s
  | .shiftLevel c w0 w1 w2 w3 => Sys2Proof.Machine.execShiftLevel c w0 w1 w2 w3 s
  | .fluxForkShift c w0 w1 w2 w3 => Sys2Proof.Machine.execFluxForkShift c w0 w1 w2 w3 s
  | .pulseStart q k => Sys2Proof.Machine.execPulseStart q k s
  | .slotUpdate q k => Sys2Proof.Machine.execSlotUpdate q k s
  | .levelUpdate f => Sys2Proof.Machine.execLevelUpdate f s
  | .forkSelect q k => Sys2Proof.Machine.execForkSelect q k s
  | .commandRetire q => Sys2Proof.Machine.execCommandRetire q s
  | .coefCommit f v => Sys2Proof.Machine.execCoefCommit f v s
  | .biasCodeWrite n v => Sys2Proof.Machine.execBiasCodeWrite n v s
  | .biasEn n v => Sys2Proof.Machine.execBiasEn n v s
  | .rangeChange n => Sys2Proof.Machine.execRangeChange n s
  | .pwmFrame n => Sys2Proof.Machine.execPwmFrame n s
  | .biasStateEnd n => Sys2Proof.Machine.execBiasStateEnd n s
  | .dgHoldEnd n => Sys2Proof.Machine.execDgHoldEnd n s
  | .biasSense n volt amp => Sys2Proof.Machine.execBiasSense n volt amp s
  | .measure c w0 w1 w2 w3 => Sys2Proof.Machine.execMeasure c w0 w1 w2 w3 s
  | .windowSetFreq c w0 w1 w2 w3 => Sys2Proof.Machine.execWindowSetFreq c w0 w1 w2 w3 s
  | .windowSetFrame c w0 w1 w2 w3 => Sys2Proof.Machine.execWindowSetFrame c w0 w1 w2 w3 s
  | .windowShiftFrame c w0 w1 w2 w3 => Sys2Proof.Machine.execWindowShiftFrame c w0 w1 w2 w3 s
  | .windowOpen n => Sys2Proof.Machine.execWindowOpen n s
  | .demodUpdate n => Sys2Proof.Machine.execDemodUpdate n s
  | .windowClose n fin tones => Sys2Proof.Machine.execWindowClose n fin tones s
  | .avgClr n v => Sys2Proof.Machine.execAvgClr n v s
  | .avgNWrite n v => Sys2Proof.Machine.execAvgNWrite n v s
  | .resultWord n => Sys2Proof.Machine.execResultWord n s
  | .mergePass => Sys2Proof.Machine.execMergePass s
  | .tableLookup t => Sys2Proof.Machine.execTableLookup t s
  | .tableResultLand t => Sys2Proof.Machine.execTableResultLand t s
  | .tableEn t v => Sys2Proof.Machine.execTableEn t v s
  | .arm e => Sys2Proof.Machine.execArm e s
  | .start e => Sys2Proof.Machine.execStart e s
  | .stop e => Sys2Proof.Machine.execStop e s
  | .engineStopAct e => Sys2Proof.Machine.execEngineStopAct e s
  | .clearFault e => Sys2Proof.Machine.execClearFault e s
  | .guardedWrite n v => Sys2Proof.Machine.execGuardedWrite n v s
  | .imageBuildDone n => Sys2Proof.Machine.execImageBuildDone n s
  | .reloadBaseHiWrite n v => Sys2Proof.Machine.execReloadBaseHiWrite n v s
  | .twinMismatch e => Sys2Proof.Machine.execTwinMismatch e s
  | .reloadDone n => Sys2Proof.Machine.execReloadDone n s
  | .controlStoreRewrite n p disp u => Sys2Proof.Machine.execControlStoreRewrite n p disp u s
  | .eventEntry e => Sys2Proof.Machine.execEventEntry e s
  | .nop e f => Sys2Proof.Machine.execNop e f s
  | .halt e f => Sys2Proof.Machine.execHalt e f s
  | .add e f => Sys2Proof.Machine.execAdd e f s
  | .sub e f => Sys2Proof.Machine.execSub e f s
  | .and e f => Sys2Proof.Machine.execAnd e f s
  | .or e f => Sys2Proof.Machine.execOr e f s
  | .xor e f => Sys2Proof.Machine.execXor e f s
  | .shl e f => Sys2Proof.Machine.execShl e f s
  | .shr e f => Sys2Proof.Machine.execShr e f s
  | .sra e f => Sys2Proof.Machine.execSra e f s
  | .min e f => Sys2Proof.Machine.execMin e f s
  | .max e f => Sys2Proof.Machine.execMax e f s
  | .adds e f => Sys2Proof.Machine.execAdds e f s
  | .cmp e f => Sys2Proof.Machine.execCmp e f s
  | .tst e f => Sys2Proof.Machine.execTst e f s
  | .ext e f => Sys2Proof.Machine.execExt e f s
  | .ins e f => Sys2Proof.Machine.execIns e f s
  | .cadd e f => Sys2Proof.Machine.execCadd e f s
  | .addi e f => Sys2Proof.Machine.execAddi e f s
  | .andi e f => Sys2Proof.Machine.execAndi e f s
  | .ori e f => Sys2Proof.Machine.execOri e f s
  | .xori e f => Sys2Proof.Machine.execXori e f s
  | .shli e f => Sys2Proof.Machine.execShli e f s
  | .shri e f => Sys2Proof.Machine.execShri e f s
  | .srai e f => Sys2Proof.Machine.execSrai e f s
  | .cmpi e f => Sys2Proof.Machine.execCmpi e f s
  | .tsti e f => Sys2Proof.Machine.execTsti e f s
  | .li e f => Sys2Proof.Machine.execLi e f s
  | .lih e f => Sys2Proof.Machine.execLih e f s
  | .movs e f => Sys2Proof.Machine.execMovs e f s
  | .movsw e f => Sys2Proof.Machine.execMovsw e f s
  | .mac e f => Sys2Proof.Machine.execMac e f s
  | .msu e f => Sys2Proof.Machine.execMsu e f s
  | .cmac e f => Sys2Proof.Machine.execCmac e f s
  | .cmacj e f => Sys2Proof.Machine.execCmacj e f s
  | .cmsu e f => Sys2Proof.Machine.execCmsu e f s
  | .cmsuj e f => Sys2Proof.Machine.execCmsuj e f s
  | .macm e f => Sys2Proof.Machine.execMacm e f s
  | .cmacm e f => Sys2Proof.Machine.execCmacm e f s
  | .nrw e f => Sys2Proof.Machine.execNrw e f s
  | .cnrw e f => Sys2Proof.Machine.execCnrw e f s
  | .clra e f => Sys2Proof.Machine.execClra e f s
  | .rda e f => Sys2Proof.Machine.execRda e f s
  | .wra e f => Sys2Proof.Machine.execWra e f s
  | .wrah e f => Sys2Proof.Machine.execWrah e f s
  | .ld e f => Sys2Proof.Machine.execLd e f s
  | .st e f => Sys2Proof.Machine.execSt e f s
  | .ld2 e f => Sys2Proof.Machine.execLd2 e f s
  | .st2 e f => Sys2Proof.Machine.execSt2 e f s
  | .ldo e f => Sys2Proof.Machine.execLdo e f s
  | .sto e f => Sys2Proof.Machine.execSto e f s
  | .seta e f => Sys2Proof.Machine.execSeta e f s
  | .setp e f => Sys2Proof.Machine.execSetp e f s
  | .geta e f => Sys2Proof.Machine.execGeta e f s
  | .bdot e f upto => Sys2Proof.Machine.execBdot e f upto s
  | .bscale e f upto => Sys2Proof.Machine.execBscale e f upto s
  | .bacc e f upto => Sys2Proof.Machine.execBacc e f upto s
  | .bcopy e f upto => Sys2Proof.Machine.execBcopy e f upto s
  | .bhist e f upto => Sys2Proof.Machine.execBhist e f upto s
  | .bfly e f upto => Sys2Proof.Machine.execBfly e f upto s
  | .bemit e f upto => Sys2Proof.Machine.execBemit e f upto s
  | .pissue e f => Sys2Proof.Machine.execPissue e f s
  | .wissue e f => Sys2Proof.Machine.execWissue e f s
  | .pissuem e f => Sys2Proof.Machine.execPissuem e f s
  | .wissuem e f => Sys2Proof.Machine.execWissuem e f s
  | .publish e f => Sys2Proof.Machine.execPublish e f s
  | .await e f => Sys2Proof.Machine.execAwait e f s
  | .awaitComplete e => Sys2Proof.Machine.execAwaitComplete e s
  | .awaitDeadline e => Sys2Proof.Machine.execAwaitDeadline e s
  | .signal e f => Sys2Proof.Machine.execSignal e f s
  | .waitev e f => Sys2Proof.Machine.execWaitev e f s
  | .waitevComplete e => Sys2Proof.Machine.execWaitevComplete e s
  | .waitevDeadline e => Sys2Proof.Machine.execWaitevDeadline e s
  | .rete e f => Sys2Proof.Machine.execRete e f s
  | .emit e f => Sys2Proof.Machine.execEmit e f s
  | .commit e f => Sys2Proof.Machine.execCommit e f s
  | .abort e f => Sys2Proof.Machine.execAbort e f s
  | .br e f => Sys2Proof.Machine.execBr e f s
  | .brr e f => Sys2Proof.Machine.execBrr e f s
  | .call e f => Sys2Proof.Machine.execCall e f s
  | .ret e f => Sys2Proof.Machine.execRet e f s
  | .dbnz e f => Sys2Proof.Machine.execDbnz e f s
  | .patchedOpcode e w upto => Sys2Proof.Machine.execPatchedOpcode e w upto s
  | .illegalOp e op => Sys2Proof.Machine.execIllegalOp e op s
  | .pollTick => Sys2Proof.Machine.execPollTick s
  | .summaryReturn d => Sys2Proof.Machine.execSummaryReturn d s
  | .pollEnd ws => Sys2Proof.Machine.execPollEnd ws s
  | .glbNudge v => Sys2Proof.Machine.execGlbNudge v s
  | .reEn v => Sys2Proof.Machine.execReEn v s
  | .ringEnable r v => Sys2Proof.Machine.execRingEnable r v s
  | .ringAbort r v => Sys2Proof.Machine.execRingAbort r v s
  | .descriptorFetch data => Sys2Proof.Machine.execDescriptorFetch data s
  | .nopDescriptor r seq => Sys2Proof.Machine.execNopDescriptor r seq s
  | .loadProgram r seq src => Sys2Proof.Machine.execLoadProgram r seq src s
  | .loadEnvelope r seq src => Sys2Proof.Machine.execLoadEnvelope r seq src s
  | .loadKernel r seq src => Sys2Proof.Machine.execLoadKernel r seq src s
  | .loadTable r seq src => Sys2Proof.Machine.execLoadTable r seq src s
  | .loadMicrocode r seq src => Sys2Proof.Machine.execLoadMicrocode r seq src s
  | .mcLoadEnd r seq bad => Sys2Proof.Machine.execMcLoadEnd r seq bad s
  | .copy r seq src => Sys2Proof.Machine.execCopy r seq src s
  | .resultBind r seq => Sys2Proof.Machine.execResultBind r seq s
  | .bindKeepStaged r seq => Sys2Proof.Machine.execBindKeepStaged r seq s
  | .unbind r seq => Sys2Proof.Machine.execUnbind r seq s
  | .engine r seq => Sys2Proof.Machine.execEngine r seq s
  | .gridStart r seq => Sys2Proof.Machine.execGridStart r seq s
  | .gridStop r seq => Sys2Proof.Machine.execGridStop r seq s
  | .waitStopped r seq => Sys2Proof.Machine.execWaitStopped r seq s
  | .descTimeout r seq => Sys2Proof.Machine.execDescTimeout r seq s
  | .writes r seq => Sys2Proof.Machine.execWrites r seq s
  | .timeControlDue => Sys2Proof.Machine.execTimeControlDue s
  | .timeControlAnchor r seq => Sys2Proof.Machine.execTimeControlAnchor r seq s
  | .calibrate r seq => Sys2Proof.Machine.execCalibrate r seq s
  | .calStart src => Sys2Proof.Machine.execCalStart src s
  | .calEnd k words limit rms line crest overFlag => Sys2Proof.Machine.execCalEnd k words limit rms line crest overFlag s
  | .fuseCommit r seq src => Sys2Proof.Machine.execFuseCommit r seq src s
  | .fuseCommitKey r seq src => Sys2Proof.Machine.execFuseCommitKey r seq src s
  | .fuseWordWritten miss => Sys2Proof.Machine.execFuseWordWritten miss s
  | .scopeArm r seq => Sys2Proof.Machine.execScopeArm r seq s
  | .scopeDisarm r seq => Sys2Proof.Machine.execScopeDisarm r seq s
  | .scopeForce r seq => Sys2Proof.Machine.execScopeForce r seq s
  | .query r seq => Sys2Proof.Machine.execQuery r seq s
  | .fence r seq => Sys2Proof.Machine.execFence r seq s
  | .fenceDone r seq => Sys2Proof.Machine.execFenceDone r seq s
  | .completionWrite r => Sys2Proof.Machine.execCompletionWrite r s
  | .irqModTime r => Sys2Proof.Machine.execIrqModTime r s
  | .msixUnmask v x => Sys2Proof.Machine.execMsixUnmask v x s
  | .hostReset => Sys2Proof.Machine.execHostReset s
  | .bar2Access write o n bytes => Sys2Proof.Machine.execBar2Access write o n bytes s
  | .flush n f v => Sys2Proof.Machine.execFlush n f v s
  | .packPacket n => Sys2Proof.Machine.execPackPacket n s
  | .drainPacket n f => Sys2Proof.Machine.execDrainPacket n f s
  | .memTrainingDone pop density speed => Sys2Proof.Machine.execMemTrainingDone pop density speed s
  | .driftTrack => Sys2Proof.Machine.execDriftTrack s
  | .scrubRead k off last => Sys2Proof.Machine.execScrubRead k off last s
  | .interfaceFail k monitor parity => Sys2Proof.Machine.execInterfaceFail k monitor parity s
  | .eventDelivery => Sys2Proof.Machine.execEventDelivery s
  | .evFire hi v => Sys2Proof.Machine.execEvFire hi v s
  | .tiClr n v => Sys2Proof.Machine.execTiClr n v s
  | .trgEdge p rising => Sys2Proof.Machine.execTrgEdge p rising s
  | .markerEnd p => Sys2Proof.Machine.execMarkerEnd p s
  | .legacyRise k ilk => Sys2Proof.Machine.execLegacyRise k ilk s
  | .legacyFall k ilk => Sys2Proof.Machine.execLegacyFall k ilk s
  | .unitArm u v => Sys2Proof.Machine.execUnitArm u v s
  | .unitDisarm u v => Sys2Proof.Machine.execUnitDisarm u v s
  | .unitForce u v => Sys2Proof.Machine.execUnitForce u v s
  | .scopeLine u record line => Sys2Proof.Machine.execScopeLine u record line s
  | .scopeRecordEnd u => Sys2Proof.Machine.execScopeRecordEnd u s
  | .deviceReset v => Sys2Proof.Machine.execDeviceReset v s
  | .powerOn => Sys2Proof.Machine.execPowerOn s
  | .coldStart => Sys2Proof.Machine.execColdStart s
  | .perstAssert => Sys2Proof.Machine.execPerstAssert s
  | .perstDeassert aged => Sys2Proof.Machine.execPerstDeassert aged s
  | .railFault r link frame clk errTt errs => Sys2Proof.Machine.execRailFault r link frame clk errTt errs s
  | .boot refA refB aligned romOk serial date order straps temps => Sys2Proof.Machine.execBoot refA refB aligned romOk serial date order straps temps s
  | .go v => Sys2Proof.Machine.execGo v s
  | .fwCheckDone img off => Sys2Proof.Machine.execFwCheckDone img off s
  | .fwReady => Sys2Proof.Machine.execFwReady s
  | .neapReq v => Sys2Proof.Machine.execNeapReq v s
  | .readState => Sys2Proof.Machine.execReadState s
  | .readTemp => Sys2Proof.Machine.execReadTemp s
  | .wake aged => Sys2Proof.Machine.execWake aged s
  | .neap => Sys2Proof.Machine.execNeap s
  | .reset => Sys2Proof.Machine.execReset s
  | .readRails => Sys2Proof.Machine.execReadRails s
  | .readLeg => Sys2Proof.Machine.execReadLeg s
  | .writeLegSw v => Sys2Proof.Machine.execWriteLegSw v s
  | .tempSample n t => Sys2Proof.Machine.execTempSample n t s
  | .housekeeping temps rails => Sys2Proof.Machine.execHousekeeping temps rails s
  | .fallback => Sys2Proof.Machine.execFallback s
  | .dwellEnd n => Sys2Proof.Machine.execDwellEnd n s
  | .riseEval k => Sys2Proof.Machine.execRiseEval k s
  | .throttleStep => Sys2Proof.Machine.execThrottleStep s
  | .powerSample p => Sys2Proof.Machine.execPowerSample p s
  | .park t => Sys2Proof.Machine.execPark t s
  | .harbourFail => Sys2Proof.Machine.execHarbourFail s
  | .refLoss b lockOnly => Sys2Proof.Machine.execRefLoss b lockOnly s
  | .refRevert => Sys2Proof.Machine.execRefRevert s
  | .tileFail k link frame clk rail errTt errs => Sys2Proof.Machine.execTileFail k link frame clk rail errTt errs s
  | .snap v => Sys2Proof.Machine.execSnap v s
  | .clrAll v => Sys2Proof.Machine.execClrAll v s
  | .bwEn m v => Sys2Proof.Machine.execBwEn m v s
  | .bwWindow m => Sys2Proof.Machine.execBwWindow m s
  | .lossOfVaux => Sys2Proof.Machine.execLossOfVaux s
  | .referenceReturn b aligned => Sys2Proof.Machine.execReferenceReturn b aligned s
  | .frameDiscard rx crc begun => Sys2Proof.Machine.execFrameDiscard rx crc begun s
  | .badKind r seq => Sys2Proof.Machine.execBadKind r seq s
  | .reservedCommand window c w0 w1 w2 w3 => Sys2Proof.Machine.execReservedCommand window c w0 w1 w2 w3 s
  | .neapExit => Sys2Proof.Machine.execNeapExit s

end Sys2Proof.Machine
end

