-- ==== Sys2Proof/Machine/Tick.lean ====
section
/-! DEFINITION. One core cycle: what happens at its end whatever is commanded, the advance of the clocks (R24, R25), and what
happens at the start of the next (a step on an empty queue; assumption 1). -/

namespace Sys2Proof.Machine

/-! ### The end of a cycle -/

/-- Every waiting engine looks a last time at what it waits for: a value of this cycle goes before the deadline (R228, R230). -/
def Body.waitsEnd (b : Body) (c : Clock) : Body := (List.range 192).foldl (fun b g => b.pollWait c g true) b

/-- What the rules give the end of a cycle: fork pairs read their conditions, samples leave the ports, samples and windows of the inputs, results
of engines that land, outcomes of this cycle, waits, events held back, performance counters and monitors, scope samples, the writing of control stores, parking, Neap entry. -/
def cycleEnd (s : State) : State :=
  let s := emitCycle (onBody (fun c b => b.selectForks c) s)
  let s := onBody (fun c b => (List.range 16).foldl (fun b n => b.receiverTick c n) b) s
  let s := onBody (fun c b => (((((b.landResults c).outcomesEnd c).waitsEnd c).tiEnd).pcntTick).bwTick c) s
  neapTick (onBody (fun c b => b.parkTick c) (mcTick (scopeTick s)))

/-! ### The clocks -/

/-- Phase Count counts every cycle, Tide Time adds TIDE_INC_ACT (R24, R25). -/
def Clock.advance (c : Clock) (inc : Nat) : Clock :=
  { c with phase := c.phase + 1, tt := c.tt + BitVec.ofNat 96 (inc * 2 ^ 8), cyc := c.cyc + 1 }

/-- What the present cycle has done is forgotten. -/
def Body.freshCycle (b : Body) : Body := { b with log := .empty, out := [] }

/-! ### The start of a cycle -/

/-- A store or a signal of an engine lands (R185, R194). -/
def landOut (s : State) (o : EngOut) : State :=
  match o.what with
  | .store a w => storeWord s a w
  | .signal ch lin => onBody (fun c b => b.publish c ch lin 0 false) s
  | _ => s

/-- Every store and signal of an engine whose cycle has come lands. -/
def landOuts (s : State) : State :=
  let now (o : EngOut) : Bool := ! o.result && decide (o.due ≤ s.clock.cyc)
  (s.body.outs.filter now).foldl landOut { s with body := { s.body with outs := s.body.outs.filter (fun o => ! now o) } }

/-- A flag reaches S_SHOTF, and the sticky flags of the cove for its last five; one of a shot that has ended, sent on as its number plus 32,
sets the sticky flag alone (R196, R208). -/
def Body.gatherOne (b : Body) (n i : Nat) : Body :=
  let b := if i < 32 then b.rsetBit (COVE_SHOT_FLAGS n) i true else b
  if 20 ≤ i % 32 then b.stick (COVE_STATUS n) (i % 32 - 4) else b

/-- Flags raised two cycles ago reach S_SHOTF (R196). -/
def Body.gatherDue (b : Body) (c : Clock) : Body :=
  let due := b.gather.filter (fun e => decide (e.2.2 ≤ c.cyc))
  due.foldl (fun b e => b.gatherOne e.1 e.2.1) { b with gather := b.gather.filter (fun e => ! decide (e.2.2 ≤ c.cyc)) }

/-- While the grid is stopped a staged increment, committed coefficients and exports apply in the cycle after the write (R29, R85, R118). -/
def Body.stoppedApply (b : Body) (c : Clock) : Body := if b.gridRun then b else (b.incCommit c).coefsCommit.exportApply

/-- What the rules give the start of a cycle: mismatches that act, the composers' next samples, updates that reach the slot store, the views and the mirror, table reads, outputs
that land, commands of engines that enter their queues, flags, a held boundary, changes of a stopped grid, the ring outputs, the accesses of TIME_CONTROL and QUERY. -/
def cycleStart (s : State) : State :=
  let s := onBody (fun c b => ((((b.twinsDue c).composersAdvance c).fabricDue c).importDue false).importDue true) s
  let s := (List.range 8).foldl tableRead s
  let s := landOuts s
  let s := onBody (fun c b => ((((((b.issuesDue c).gatherDue c).heldBoundary c).stoppedApply c).reportStatus).timeAlone c).ringTick c) s
  landTick s

/-! ### A core cycle -/

/-- The clocks go on by one cycle. -/
def nextCycle (s : State) : State :=
  { s with clock := s.clock.advance (s.body.rnat TIDE_INC_ACT), body := s.body.freshCycle }

/-- A step on an empty queue: one core cycle; while the core clock stands still, only the record of the cycle is emptied. -/
def tick (s : State) : State :=
  if s.clock.on then
    let t := cycleEnd s
    if t.clock.on then cycleStart (nextCycle t) else { t with body := t.body.freshCycle }
  else { s with body := s.body.freshCycle }

end Sys2Proof.Machine
end

