-- ==== Sys2Proof/Machine/Step.lean ====
section
/-! DEFINITION. The step: the command at the front of the queue runs; on an empty queue a core cycle passes. -/

namespace Sys2Proof.Machine

/-- Take the command at the front of the queue and run it on the state with the rest; with no command waiting, one core cycle passes
(DESIGN CHOICE, assumption 1). -/
def step (s : State) : Host.Outcome State Fault Refusal :=
  match s.pending with
  | [] => .next (tick s)
  | i :: rest => exec i { s with pending := rest }

/-- The state with the command that a word spells at the front of its queue; no row of the opcode table gives bits, so no word spells
one (assumption 4). -/
def State.withFetchWord (s : State) (nbits w : Nat) : State :=
  match Sys2Proof.decodeTableWord nbits w with
  | some i => { s with pending := i :: s.pending }
  | none => s

end Sys2Proof.Machine
end

