-- ==== Sys2Proof/WellFormed.lean ====
section
/-! DEFINITION. Well-formed commands: every operand lies in the range its field has in the spec. The widths of most operands
are in their types; the checks here are the rest. A meaning is total on ill-formed terms too. -/

namespace Sys2Proof

/-- D0-D63 and P0-P15 are ports 0-79, then F0-F31 and M0-M15 (R1). -/
def PortRef.wf : PortRef → Bool
  | .dp p => decide (p < 80)
  | .fx f => decide (f < 32)
  | .rx n => decide (n < 16)

/-- A port, or a cove 0-15 (R397). -/
def ParkRef.wf : ParkRef → Bool
  | .port p => p.wf
  | .cove n => decide (n < 16)

/-- A channel 0-63 or a trigger pin 0-7 (R45). -/
def CapSrc.wf : CapSrc → Bool
  | .chan ch => decide (ch < 64)
  | .pin p _ _ => decide (p < 8)

/-- The operands of a command lie in the ranges of their fields. -/
def Instr.wf : Instr → Bool
  | .registerWrite off bytes v => decide (1 ≤ bytes) && decide (bytes ≤ 4096) && decide (off + bytes ≤ 2 ^ 24) && decide (v < 2 ^ (8 * bytes))
  | .tideNowLoRead | .slotPeekRead | .dtResultLoRead .. | .fuseRdLoRead | .tileErrTtLoRead | .pcntLoRead ..
  | .pcntHiWrite .. | .tideIncWrite .. | .anchor .. | .anchorInstant | .gridCmdStart .. | .gridCmdStop ..
  | .finalCommit | .announceSend | .slackHorizon | .verdictSend | .verdictMiss | .shotStart | .slackStart
  | .slackCommit | .slackOverrun | .almTargetHiWrite .. | .alarmFire .. => true
  | .capture _ src => src.wf
  | .ack .. => true
  | .coreEn p _ => p.wf
  | .coreReady p => p.wf
  | .cntClr off _ => decide (off < 2 ^ 24) && decide (off % 4 = 0)
  | .timeSend | .delayReqSend .. | .loopSend | .timeFrame .. | .delayReq .. | .delayResp .. | .loopFrame ..
  | .announce .. | .holdVote .. | .verdict .. | .decisionFrame .. | .eventFrame .. | .anchorFrame ..
  | .takeoverFrame .. | .linkFrame .. | .linkUp .. | .servoStage | .lhSilent | .ringBreak .. | .unwrap
  | .asymConfirm .. | .remeasure .. | .ringEn .. | .carrierHiWrite .. | .pulse .. | .forkArm .. | .const ..
  | .setFreq .. | .setFrame .. | .shiftFrame .. | .forkShift .. | .fluxPulse .. | .fluxForkArm .. | .ramp ..
  | .setLevel .. | .shiftLevel .. | .fluxForkShift .. | .pulseStart .. | .slotUpdate .. | .levelUpdate ..
  | .forkSelect .. | .commandRetire .. | .coefCommit .. | .biasCodeWrite .. | .biasEn .. | .rangeChange ..
  | .pwmFrame .. | .biasStateEnd .. | .dgHoldEnd .. | .biasSense .. | .measure .. | .windowSetFreq ..
  | .windowSetFrame .. | .windowShiftFrame .. | .windowOpen .. | .demodUpdate .. | .windowClose ..
  | .avgClr .. | .avgNWrite .. | .resultWord .. | .mergePass | .tableLookup .. | .tableResultLand .. | .tableEn ..
  | .arm .. | .start .. | .stop .. | .engineStopAct .. | .clearFault .. | .guardedWrite .. | .imageBuildDone ..
  | .reloadBaseHiWrite .. | .twinMismatch .. | .reloadDone .. => true
  | .controlStoreRewrite _ _ disp u => decide (u < if disp then 256 else 4096)
  | .eventEntry .. | .nop .. | .halt .. | .add .. | .sub .. | .and .. | .or .. | .xor .. | .shl .. | .shr ..
  | .sra .. | .min .. | .max .. | .adds .. | .cmp .. | .tst .. | .ext .. | .ins .. | .cadd .. | .addi .. | .andi ..
  | .ori .. | .xori .. | .shli .. | .shri .. | .srai .. | .cmpi .. | .tsti .. | .li .. | .lih .. | .movs ..
  | .movsw .. | .mac .. | .msu .. | .cmac .. | .cmacj .. | .cmsu .. | .cmsuj .. | .macm .. | .cmacm .. | .nrw ..
  | .cnrw .. | .clra .. | .rda .. | .wra .. | .wrah .. | .ld .. | .st .. | .ld2 .. | .st2 .. | .ldo .. | .sto ..
  | .seta .. | .setp .. | .geta .. => true
  | .bdot _ _ upto => decide (upto ≤ 65536)
  | .bscale _ _ upto => decide (upto ≤ 65536)
  | .bacc _ _ upto => decide (upto ≤ 65536)
  | .bcopy _ _ upto => decide (upto ≤ 65536)
  | .bhist _ _ upto => decide (upto ≤ 65536)
  | .bfly _ _ upto => decide (upto ≤ 65536)
  | .bemit _ _ upto => decide (upto ≤ 65536)
  | .pissue .. | .wissue .. | .pissuem .. | .wissuem .. | .publish .. | .await .. | .awaitComplete ..
  | .awaitDeadline .. | .signal .. | .waitev .. | .waitevComplete .. | .waitevDeadline .. | .rete .. | .emit ..
  | .commit .. | .abort .. | .br .. | .brr .. | .call .. | .ret .. | .dbnz .. => true
  | .patchedOpcode _ _ upto => decide (upto ≤ 65536)
  | .illegalOp .. | .pollTick | .summaryReturn .. => true
  | .pollEnd ws => ws.all (fun l => decide (l.length ≤ 256))
  | .glbNudge .. | .reEn .. | .ringEnable .. | .ringAbort .. | .descriptorFetch .. | .nopDescriptor ..
  | .loadProgram .. | .loadEnvelope .. | .loadKernel .. | .loadTable .. | .loadMicrocode .. | .mcLoadEnd ..
  | .copy .. | .resultBind .. | .bindKeepStaged .. | .unbind .. | .engine .. | .gridStart .. | .gridStop ..
  | .waitStopped .. | .descTimeout .. | .writes .. | .timeControlDue | .timeControlAnchor .. | .calibrate ..
  | .calStart .. => true
  | .calEnd _ words _ _ _ _ _ => decide (words.length ≤ 1024)
  | .fuseCommit .. | .fuseCommitKey .. | .fuseWordWritten .. | .scopeArm .. | .scopeDisarm .. | .scopeForce ..
  | .query .. | .fence .. | .fenceDone .. | .completionWrite .. | .irqModTime .. | .msixUnmask .. | .hostReset => true
  | .bar2Access write _ n bytes => decide (1 ≤ n) && decide (n ≤ 4096) && (! write || decide (bytes.length = n))
  | .flush .. | .packPacket .. | .drainPacket .. | .memTrainingDone .. | .driftTrack => true
  | .scrubRead .. | .interfaceFail .. | .eventDelivery | .evFire .. | .tiClr .. | .trgEdge .. | .markerEnd .. | .legacyRise ..
  | .legacyFall .. | .unitArm .. | .unitDisarm .. | .unitForce .. | .scopeLine .. | .scopeRecordEnd ..
  | .deviceReset .. | .powerOn | .coldStart | .perstAssert | .perstDeassert .. | .railFault .. => true
  | .boot _ _ _ _ _ _ _ _ temps => decide (temps.length = 24)
  | .go .. | .fwCheckDone .. | .fwReady | .neapReq .. | .readState | .readTemp | .wake .. | .neap | .reset
  | .readRails | .readLeg | .writeLegSw .. | .tempSample .. => true
  | .housekeeping temps _ => decide (temps.length = 24)
  | .fallback | .dwellEnd .. | .riseEval .. | .throttleStep | .powerSample .. => true
  | .park t => t.wf
  | .harbourFail | .refLoss .. | .refRevert | .tileFail .. | .snap .. | .clrAll .. | .bwEn .. | .bwWindow ..
  | .lossOfVaux | .referenceReturn .. | .frameDiscard .. | .badKind .. | .reservedCommand .. | .neapExit => true

end Sys2Proof
end

