-- ==== Sys2Proof/Safety.lean ====
section
/-! DEFINITION. The vocabulary of the claims: what it is for a command to run to its effect, what parts of the machine an effect leaves
alone, and what counts as a sound state. -/

namespace Sys2Proof.Machine

/-! ### Running a command -/

/-- The command runs: `exec` answers a next state, and that state has the property. -/
def runsTo (i : Instr) (s : State) (Q : State → Prop) : Prop := ∃ t, exec i s = .next t ∧ Q t

/-! ### What stays as it was -/

/-- Every setup register but those listed holds what it held. -/
def regsBut (ks : List Nat) (s t : State) : Prop := ∀ k, k ∉ ks → t.body.rget k = s.body.rget k

/-- The two states differ in setup registers and in the record of the present cycle alone. -/
def onlyRegs (s t : State) : Prop := t = { s with body := { s.body with regs := t.body.regs, log := t.body.log } }

/-- The command runs to a state in which the listed setup registers hold the listed values and every other piece of state, but the record
of the present cycle, is as it was. -/
def sets (i : Instr) (s : State) (ws : List (Nat × Reg32)) : Prop :=
  ∃ t, exec i s = .next t ∧ onlyRegs s t ∧ regsBut (ws.map (·.1)) s t ∧ ∀ w ∈ ws, t.body.rget w.1 = w.2

/-- The command is refused: CFG_REJECT of the block's status register `k`, and nothing else (R455). -/
def refusedAt (i : Instr) (s : State) (k : Nat) : Prop := sets i s [(k, s.body.rget k ||| 0x100)]

/-- The command is a read: the value `v` of the register at `off` leaves the device, the listed snapshot registers hold the listed values, and
nothing else changes (R428). -/
def readsOut (i : Instr) (s : State) (off : Nat) (v : Reg32) (ws : List (Nat × Reg32)) : Prop :=
  ∃ t, exec i s = .next t ∧ t = { s with body := { s.body with regs := t.body.regs, out := s.body.out ++ [.regValue off v] } } ∧
    regsBut (off :: ws.map (·.1)) s t ∧ ∀ w ∈ ws, t.body.rget w.1 = w.2

/-- The queue of commands, the clocks and every memory are as they were. -/
def onlyBody (s t : State) : Prop := t = { s with body := t.body }

/-! ### Descriptors -/

/-- The record that ends a descriptor (R292). -/
def recordOf (c : Clock) (d : Desc) (status : Nat) (d0 : Reg32) (d1 : BitVec 64) : Rec :=
  ⟨d.fld 0 8, status, d.raw.extractLsb' 32 32, BitVec.ofNat 32 d.seq, d0, d1, c.tt.extractLsb' 32 64, d.raw.getLsbD 10, some d.seq, none⟩

/-- Descriptor `d` of ring `r` has ended: its record stands last among those that wait, none when it succeeds with NO_COMPL, and no other
ring and no other descriptor has changed (R276, R280, R292). -/
def endsDesc (b b' : Body) (c : Clock) (r : Nat) (d : Desc) (status : Nat) (d0 : Reg32) (d1 : BitVec 64) : Prop :=
  (∀ q, q ≠ r → b'.hring q = b.hring q) ∧
  b'.hring r = { b.hring r with descs := (b'.hring r).descs, recs := (b'.hring r).recs } ∧
  (b'.hring r).recs = (if status = 0 ∧ d.raw.getLsbD 9 = true then (b.hring r).recs else (b.hring r).recs ++ [recordOf c d status d0 d1]) ∧
  (∀ x ∈ (b'.hring r).descs, x.order = d.order → x.st = .ended) ∧
  ∀ x ∈ (b.hring r).descs, x.order ≠ d.order → x.seq ≠ d.seq → x ∈ (b'.hring r).descs

/-- The body with other host rings. -/
def Body.withRings (b b' : Body) : Body := { b with host := { b.host with rings := b'.host.rings } }

/-- The command ends descriptor `d` of ring `r`, and that is all it does. -/
def endsWith (i : Instr) (s : State) (r : Nat) (d : Desc) (status : Nat) (d0 : Reg32) (d1 : BitVec 64) : Prop :=
  ∃ t, exec i s = .next t ∧ t = { s with body := s.body.withRings t.body } ∧ endsDesc s.body t.body s.clock r d status d0 d1

/-- Descriptor `seq` of ring `r` may start, is of kind `k`, has no reserved bit set (R277, R280), and is the only one in flight on its ring with
that sequence number. -/
def readyDesc (b : Body) (r seq k : Nat) (d : Desc) : Prop :=
  b.startable r seq = some d ∧ d.fld 0 8 = k ∧ d.reserved = false ∧ ∀ x ∈ (b.hring r).descs, x.seq = seq → x = d

/-! ### Sound states -/

/-- Every memory is in its canonical form: keys strictly rising, nothing listed that an unlisted key reads as. -/
abbrev Mem.wf (m : Mem) : Prop :=
  m.onDie.wf dieDefault ∧ m.dev.wf devDefault ∧ m.err.wf 0 ∧ m.fuse.wf 0

/-- No fuse bit of the first memory is missing in the second (R368). -/
def Mem.fusesKept (m n : Mem) : Prop := ∀ w i, bit (m.fuseWord w) i = true → bit (n.fuseWord w) i = true

/-- A run is safe while it answers next states whose memories are in canonical form. -/
def safeRun : Nat → State → Prop
  | 0, s => s.mem.wf
  | n + 1, s => s.mem.wf ∧ ∃ t, step s = .next t ∧ safeRun n t

/-! ### Instructions of engines -/

/-- The major opcode of the instruction a command runs. -/
def opcodeOf (i : Instr) : Nat :=
  match yosumParts i with
  | some p => p.1
  | none => 0

/-- Engine `g` issues the instruction of `i` in state `s`: it runs, no patch has changed the opcode, and fetch, dispatch and the microwords meet
no fault and leave state `u`, which differs from `s` in the fetch buffer and where a corrected error stood. -/
def issues (i : Instr) (g : Nat) (s u : State) : Prop :=
  s.body.runs g = true ∧ s.body.patched (g / 12) (opcodeOf i) = false ∧ inHand s g (opcodeOf i) = (u, none)

/-- The engine, changed, at the next instruction in sequence. -/
def ended (u : State) (g : Nat) (x : Engine) : State :=
  u.setEng g { x with pc := x.pc + 1, resume := none, stall := none, fresh := false, cont := none }

/-- The six flags in the layout of S_FLAGS (R180). -/
def flagBits (z n c v sat acc : Bool) : BitVec 6 :=
  BitVec.ofBool acc ++ BitVec.ofBool sat ++ BitVec.ofBool v ++ BitVec.ofBool c ++ BitVec.ofBool n ++ BitVec.ofBool z

/-- The instruction wrote `r` into register `rd` and set the flags it names; SAT is set or kept, ACC_SAT kept (R213). -/
def wrote (u : State) (g rd : Nat) (r : Word) (c v sat : Bool) : State :=
  let x := u.eng g
  ended u g { x.setReg rd r with flags := flagBits (r == 0) r.msb c v (sat || x.flags.getLsbD 4) (x.flags.getLsbD 5) }

/-- The instruction changed flags alone. -/
def tested (u : State) (g : Nat) (r : Word) (c v : Bool) : State :=
  let x := u.eng g
  ended u g { x with flags := flagBits (r == 0) r.msb c v (x.flags.getLsbD 4) (x.flags.getLsbD 5) }

/-- Signed overflow of a sum: the operands agree in sign and the sum does not. -/
def addOvf (a b : Word) : Bool := a.msb == b.msb && (a + b).msb != a.msb
/-- Signed overflow of a difference. -/
def subOvf (a b : Word) : Bool := a.msb != b.msb && (a - b).msb != a.msb

/-- The sum of two numbers of `w` bits, saturated to `w` bits: sat_w of R191. -/
def satSum {w : Nat} (a b : BitVec w) : BitVec w :=
  if a.msb == b.msb && (a + b).msb != a.msb then (if a.msb then BitVec.intMin w else BitVec.intMax w) else a + b
/-- Does that sum saturate? -/
def sumClamps {w : Nat} (a b : BitVec w) : Bool := a.msb == b.msb && (a + b).msb != a.msb

/-- Fields of an instruction's bits [27:0] by their places (R209). -/
def opRd (f : BitVec 28) : Nat := (f.extractLsb' 23 5).toNat
def opRa (f : BitVec 28) : Nat := (f.extractLsb' 18 5).toNat
def opRb (f : BitVec 28) : Nat := (f.extractLsb' 13 5).toNat
def opAcc (f : BitVec 28) : Nat := (f.extractLsb' 6 2).toNat
def opImm (f : BitVec 28) : BitVec 18 := f.extractLsb' 0 18
/-- IMM sign-extended and zero-extended to a word (R210). -/
def immSigned (f : BitVec 28) : Word := (opImm f).signExtend 36
def immPlain (f : BitVec 28) : Word := (opImm f).setWidth 36

/-- A number clamped to 80 bits: what an accumulation stores (R192). -/
def sat80 (x : Int) : Int := if x < -2 ^ 79 then -2 ^ 79 else if 2 ^ 79 - 1 < x then 2 ^ 79 - 1 else x
/-- An accumulator holds a value, ACC_SAT noted (R189, R192). -/
def accumulated (x : Engine) (k : Nat) (v : Int) : Engine :=
  { x.setAcc k (sat80 v) with flags := if sat80 v = v then x.flags else x.flags ||| 0x20 }

/-- The engine, changed, at another address. -/
def jumped (u : State) (g : Nat) (x : Engine) (a : BitVec 24) : State :=
  u.setEng g { x with pc := a, resume := none, stall := none, fresh := false, cont := none }

/-- An address in cove shared memory (R181). -/
def sharedRange (a : BitVec 24) : Prop := 0x100000#24 ≤ a ∧ a ≤ 0x1FFFFF#24

/-- The address register an M-format instruction names, and the register after one access: kept with NU, stepped without (R187, R209). -/
def opAn (f : BitVec 28) : Nat := (f.extractLsb' 20 3).toNat
def stepped (f : BitVec 28) (r : AddrReg) : AddrReg := if f.getLsbD 19 then r else r.next
/-- The address registers of format K (R209). -/
def opAa (f : BitVec 28) : Nat := (f.extractLsb' 15 3).toNat
def opAb (f : BitVec 28) : Nat := (f.extractLsb' 12 3).toNat
def opAd (f : BitVec 28) : Nat := (f.extractLsb' 9 3).toNat

/-- A block instruction of `n` elements after element `i`: ended, or to go on from the next element (R220, R222). -/
def afterElement (t : State) (g n i : Nat) : State :=
  if i + 1 = n then ended t g (t.eng g) else t.setEng g { t.eng g with resume := some (i + 1), stall := none, fresh := false }

/-- The engine's address registers `ks` stepped once each, after element changes `x`. -/
def elementEnd (t : State) (g : Nat) (x : Engine) (ks : List Nat) (n i : Nat) : State :=
  afterElement (t.setEng g (x.stepPtrs ks)) g n i

end Sys2Proof.Machine
end

