-- ==== Sys2Proof/Certificates/Slice0/Obligations.lean ====
section
/-! DEFINITION. The statements for the provers. Most formalise a numbered rule of the spec, which their docstrings name. -/

open Sys2Proof Sys2Proof.Machine

/-! ### The whole machine -/

/-- A step runs the command at the front of the queue and nothing else; the queue is the block's interface to its senders. -/
def Obligations.StepRunsFrontCommand : Prop :=
  ∀ (i : Instr) (rest : List Instr) (s : State), step { s with pending := i :: rest } = exec i { s with pending := rest }

/-- A core cycle (R24, R25, R27); that a step on an empty queue is one is DESIGN CHOICE (log entry 1). -/
def Obligations.EmptyQueuePassesACycle : Prop :=
  ∀ s : State, s.pending = [] →
    (s.clock.on = false → step s = .next { s with body := { s.body with log := .empty, out := [] } }) ∧
    (s.clock.on = true → s.body.pwr.mode ≠ .entry → s.body.host.landings = [] → s.body.host.heldWrites = [] →
      s.body.waitingWrites = [] →
      ∃ t, step s = .next t ∧ t.pending = [] ∧ t.mem.fuse = s.mem.fuse ∧
        t.clock.phase = s.clock.phase + 1 ∧ t.clock.cyc = s.clock.cyc + 1 ∧ t.clock.on = true ∧
        t.clock.tt = s.clock.tt + BitVec.ofNat 96 ((s.body.rget TIDE_INC_ACT).toNat * 2 ^ 8))

/-- No command stops the block: what the rules refuse, they refuse with a flag. -/
def Obligations.EveryCommandRuns : Prop :=
  ∀ (i : Instr) (s : State), ∃ t, exec i s = .next t ∧ t.pending = s.pending

/-- The canonical form of the memories is kept by every step, so that equal memories are equal data. -/
def Obligations.StepKeepsMemoryCanonical : Prop :=
  ∀ s t : State, s.mem.wf → step s = .next t → t.mem.wf

/-- "A fuse bit can go from 0 to 1 only" (R368). -/
def Obligations.FuseBitsNeverClear : Prop :=
  ∀ s t : State, step s = .next t → s.mem.fusesKept t.mem

/-- "No register write, descriptor, servo or fault handling changes it. Only the start of the core clock and anchoring set it" (R24). -/
def Obligations.OnlyAnchoringMovesTime : Prop :=
  ∀ (i : Instr) (s t : State), i ≠ .anchorInstant → exec i s = .next t →
    t.clock = s.clock ∨ (t.clock.phase = 0 ∧ t.clock.tt = 0 ∧ t.clock.cyc = 0)

/-- What reset leaves (R24, R25, R27, R271).  That the memories list nothing, and so read 0, is the
model's choice (log entry 5). -/
def Obligations.StateAfterReset : Prop :=
  State.reset.pending = [] ∧ State.reset.mem = Mem.reset ∧ State.reset.mem.wf ∧
  State.reset.clock.phase = 0 ∧ State.reset.clock.tt = 0 ∧ (∀ k, State.reset.body.rget k = resetVal k) ∧
  State.reset.body.rget TIDE_INC = 0x01000000#32 ∧ State.reset.body.rget TIDE_INC_ACT = 0x01000000#32 ∧
  State.reset.body.rget POLL_INTERVAL = 1000#32 ∧ State.reset.body.anchored = false ∧ State.reset.body.gridRun = false ∧
  (∀ g, (State.reset.body.eng g).bexp = 35)

/-- Decode of encode is the command, for every row that runs an instruction word (R209, R210). -/
def Obligations.EngineWordsDecodeToThemselves : Prop :=
  ∀ (i : Instr) (w : Word), encodeYosum i = some w →
    ∃ e, yosumEngine i = some e ∧ decodeYosum e (yosumUpto i) w = some i

/-! ### Setup registers -/

/-- Writes that reach no register (R9, R426), and access codes (R10, R11, R455), each shown on a register of the tide block. -/
def Obligations.RegisterWritesAndAccessCodes : Prop :=
  (∀ (off bytes v : Nat) (s : State),
    ((∀ a, a % 4 = 0 → off ≤ a → off + bytes < a + 4) → exec (.registerWrite off bytes v) s = .next s) ∧
    (2 ^ 24 ≤ off → exec (.registerWrite off bytes v) s = .next s) ∧
    (off % 4 = 0 → (off < 0x260000 ∨ 0x280000 ≤ off) → regInfo off = none → exec (.registerWrite off 4 v) s = .next s) ∧
    (regInfo (s.body.regKey off) = none → regRead s off = (0, s)) ∧
    (1 ≤ bytes → off % 4 + bytes ≤ 4 →
      let whole := regRead s (4 * (off / 4))
      barRead off bytes s = (((leBytes 4 whole.1.toNat).drop (off % 4)).take bytes, whole.2))) ∧
  (∀ (off n v w : Nat) (s t : State), off % 4 = 0 → v < 2 ^ 32 → exec (.registerWrite off 4 v) s = .next t →
    exec (.registerWrite off (4 * n + 4) (v + 2 ^ 32 * w)) s = exec (.registerWrite (off + 4) (4 * n) w) t) ∧
  (∀ (v w : Reg32) (s : State),
    let fits := 4000 ≤ v.toNat ∧ (s.body.rget SHOT_LEN).toNat + 4000 ≤ v.toNat ∧ (s.body.gridRun = false ∨ v = s.body.rget GRID_PERIOD)
    (fits → sets (.registerWrite GRID_PERIOD 4 v.toNat) s [(GRID_PERIOD, v)]) ∧
    (¬ fits → refusedAt (.registerWrite GRID_PERIOD 4 v.toNat) s TIDE_STATUS) ∧
    sets (.registerWrite TIDE_SET_FRAC 4 v.toNat) s [(TIDE_SET_FRAC, v)] ∧
    sets (.registerWrite TIDE_STATUS 4 v.toNat) s
      [(TIDE_STATUS, s.body.rget TIDE_STATUS &&& ~~~(0xF00 &&& v &&& ~~~(s.body.log.sets.get 0 TIDE_STATUS)))] ∧
    (∃ t, exec (.registerWrite TIDE_SET_LO 4 v.toNat) s = .next t ∧ t = { s with body := { s.body with staged := t.body.staged } } ∧
      ∃ u, exec (.registerWrite TIDE_SET_HI 4 w.toNat) t = .next u ∧
        u = { t with body := { t.body with regs := u.body.regs, staged := u.body.staged } } ∧
        u.body.rget TIDE_SET_LO = v ∧ u.body.rget TIDE_SET_HI = w ∧ regsBut [TIDE_SET_LO, TIDE_SET_HI] s u ∧
        u.body.staged.get none TIDE_SET_LO = none))

/-- R271. -/
def Obligations.PollIntervalJudged : Prop :=
  (∀ (v : Reg32) (s : State),
    let x := (v.extractLsb' 0 20).toNat
    (250 ≤ x ∧ x ≤ 1000000 → sets (.registerWrite POLL_INTERVAL 4 v.toNat) s [(POLL_INTERVAL, (v.extractLsb' 0 20).setWidth 32)]) ∧
    (x < 250 ∨ 1000000 < x → refusedAt (.registerWrite POLL_INTERVAL 4 v.toNat) s HST_STATUS)) ∧
  resetVal POLL_INTERVAL = 1000#32 ∧
  (∀ (s : State) (n : Nat), s.body.host.nextTick = some n → s.body.rbit HST_CTL 0 = true → n ≤ s.clock.cyc →
    ∃ t, exec .pollTick s = .next t ∧ t.body.host.nextTick = some (n + ((s.body.rget POLL_INTERVAL).extractLsb' 0 20).toNat))

/-- CNT_CLR (R107, R178, R338), and the performance unit (R417 to R425). -/
def Obligations.CounterClearsAndMonitors : Prop :=
  (∀ (v : Reg32) (s : State), v.getLsbD 0 = true →
    let kept := fun (ks : List Nat) => ks.map (fun k => (k, r32 (s.body.log.incs.get 0 k)))
    sets (.cntClr DEC_CTL v) s ((SPRING_PEAK, 0) :: kept ([PUB_COUNT, DROP_COUNT, CLASH_COUNT, STALE_COUNT, IMPORT_COUNT,
      DT_CORR_COUNT, DT_UNCORR_COUNT] ++ (List.range 8).map DT_LOOKUP_COUNT ++ (List.range 8).map DT_INVAL_COUNT)) ∧
    sets (.cntClr EV_CTL v) s (kept ([LOOP_COUNT, COALESCE_COUNT, LOST_COUNT, EXPORT_DROP_COUNT] ++ (List.range 64).map CH_COUNT)) ∧
    sets (.cntClr FUSE_CTL v) s (kept [CAL_DONE_COUNT, CAL_FAIL_COUNT, DRIFT_COUNT])) ∧
  (∀ (s : State) (v : Reg32),
    let b := s.body
    let none0 : BwMon := ⟨0, 0, false, 0, none⟩
    (∀ n : Fin 32, ∃ t, exec (.pcntHiWrite n v) s = .next t ∧
      t = { s with body := { b with pcnt := t.body.pcnt, log := t.body.log, staged := t.body.staged } } ∧
      (∀ k, t.body.pcntOf k = if k = n.val then
        (((b.staged.get none (PCNT_LO n)).getD (BitVec.ofNat 32 (b.pcntOf n))).toNat + (v.extractLsb' 0 16).toNat * 2 ^ 32) else b.pcntOf k)) ∧
    (v.getLsbD 1 = true → v.getLsbD 2 = false → b.log.snapped = false →
      ∃ t, exec (.snap v) s = .next t ∧ onlyRegs s t ∧ t.body.rget PERF_CTL = v &&& 0x7F9 ∧
        (∀ n : Nat, n < 32 → t.body.rget (PSNAP_LO n) = BitVec.ofNat 32 (b.pcntStart n) ∧
          t.body.rget (PSNAP_HI n) = BitVec.ofNat 32 (b.pcntStart n / 2 ^ 32)) ∧
        (t.body.rget PERF_STATUS).extractLsb' 16 16 = (b.rget PERF_STATUS).extractLsb' 16 16 + 1 ∧
        regsBut ([PERF_CTL, PERF_STATUS] ++ (List.range 32).map PSNAP_LO ++ (List.range 32).map PSNAP_HI) s t) ∧
    (v.getLsbD 1 = false → v.getLsbD 2 = true →
      ∃ t, exec (.clrAll v) s = .next t ∧ t = { s with body := { b with regs := t.body.regs, pcnt := t.body.pcnt, log := t.body.log } } ∧
        t.body.rget PERF_CTL = v &&& 0x7F9 ∧ regsBut [PERF_CTL] s t ∧ ∀ n : Nat, n < 32 → t.body.pcntOf n = 0) ∧
    (∀ m : Fin 8, b.rbit (BW_CFG m) 10 = false → (v.extractLsb' 0 4).toNat < 9 → v.getLsbD 10 = true →
      ∃ t, exec (.bwEn m v) s = .next t ∧ t = { s with body := { b with regs := t.body.regs, bw := t.body.bw } } ∧
        regsBut [BW_CFG m, BW_LAST m, BW_PEAK m, BW_MIN m, BW_WINDOWS m] s t ∧ t.body.rget (BW_CFG m) = v &&& 0x7FF ∧
        t.body.rget (BW_LAST m) = 0 ∧ t.body.rget (BW_PEAK m) = 0 ∧ t.body.rget (BW_MIN m) = 0xFFFFFFFF ∧
        t.body.rget (BW_WINDOWS m) = 0 ∧ (∀ k, t.body.bw.get none0 k = if k = m.val then ⟨0, 0, true, s.clock.cyc, none⟩ else b.bw.get none0 k)) ∧
    (∀ m : Fin 8, (v &&& 0x3FF) = (b.rget (BW_CFG m) &&& 0x3FF) → (v.extractLsb' 0 4).toNat < 9 → v.getLsbD 10 = false →
      sets (.bwEn m v) s [(BW_CFG m, v &&& 0x7FF)]) ∧
    (∀ m : Fin 8, (9 ≤ (v.extractLsb' 0 4).toNat ∨ (b.rbit (BW_CFG m) 10 = true ∧ (v &&& 0x3FF) ≠ (b.rget (BW_CFG m) &&& 0x3FF))) →
      refusedAt (.bwEn m v) s PERF_STATUS) ∧
    (∀ m : Fin 8,
      let x := b.bw.get none0 m
      let w := (b.rget (BW_WIN m) &&& 0x3FFFFFFF).toNat
      b.rbit (BW_CFG m) 10 = true → x.from_ < s.clock.cyc → x.ended ≠ some s.clock.cyc → x.short = false → b.anchored = true →
      s.clock.phase.toNat % w = 0 →
      ∃ t, exec (.bwWindow m) s = .next t ∧ t = { s with body := { b with regs := t.body.regs, bw := t.body.bw } } ∧
        regsBut [BW_LAST m, BW_PEAK m, BW_MIN m, BW_WINDOWS m] s t ∧
        t.body.rget (BW_LAST m) = BitVec.ofNat 32 x.count ∧
        t.body.rget (BW_PEAK m) = BitVec.ofNat 32 (max x.count (b.rget (BW_PEAK m)).toNat) ∧
        t.body.rget (BW_MIN m) = BitVec.ofNat 32 (min x.count (b.rget (BW_MIN m)).toNat) ∧
        t.body.rget (BW_WINDOWS m) = BitVec.ofNat 32 (min 0xFFFFFFFF ((b.rget (BW_WINDOWS m)).toNat + 1)) ∧
        t.body.bw.get none0 m = ⟨0, x.rest, false, x.from_, some s.clock.cyc⟩))

/-- Reads with a snapshot (R428): the value that leaves the device, the snapshot registers, and nothing else. -/
def Obligations.SnapshotReads : Prop :=
  ∀ (s : State),
    let b := s.body
    let sel := b.rget SLOT_PEEK_SEL
    let dev := (sel.extractLsb' 0 4).toNat
    let num := (sel.extractLsb' 4 10).toNat
    let x := if dev = b.devId then b.fab.store.get .reset num else b.fab.mirror.get .reset (1024 * dev + num)
    let fuse := s.mem.fuse.get 0 ((b.rget FUSE_RD_ADDR).extractLsb' 0 13).toNat
    let err := b.flt.errTt.headD 0
    readsOut .tideNowLoRead s TIDE_NOW_LO (s.clock.tt.extractLsb' 32 32)
      [(TIDE_NOW_HI, s.clock.tt.extractLsb' 64 32), (TIDE_NOW_FRAC, s.clock.tt.extractLsb' 0 32),
       (PHASE_NOW_LO, s.clock.phase.extractLsb' 0 32), (PHASE_NOW_HI, s.clock.phase.extractLsb' 32 32)] ∧
    readsOut .slotPeekRead s SLOT_PEEK
      (BitVec.ofNat 32 (x.value + (if x.valid then 256 else 0) + (if x.valid && x.epoch == b.epoch then 512 else 0) + 65536 * x.epoch))
      [(SLOT_PEEK_STAMP_LO, BitVec.ofNat 32 x.stamp), (SLOT_PEEK_STAMP_HI, BitVec.ofNat 32 (x.stamp / 2 ^ 32))] ∧
    (∀ t : Fin 8, ∃ st, st.getLsbD 0 = (b.tableResult t).isSome ∧ st.getLsbD 1 = (b.table t).flight.isSome ∧
      readsOut (.dtResultLoRead t) s (DT_RESULT_LO t) ((b.table t).last.extractLsb' 0 32)
        [(DT_RESULT_HI t, ((b.table t).last.extractLsb' 32 4).setWidth 32), (DT_STATUS t, st)]) ∧
    readsOut .fuseRdLoRead s FUSE_RD_LO (fuse.extractLsb' 0 32) [(FUSE_RD_HI, fuse.extractLsb' 32 32)] ∧
    readsOut .tileErrTtLoRead s TILE_ERR_TT_LO (err.extractLsb' 0 32) [(TILE_ERR_TT_HI, (err.extractLsb' 32 4).setWidth 32)] ∧
    (∀ n : Fin 32, readsOut (.pcntLoRead n) s (PCNT_LO n) (BitVec.ofNat 32 (b.pcntStart n))
      [(PCNT_HI n, BitVec.ofNat 32 (b.pcntStart n / 2 ^ 32))])

/-- R28, with what an accepted write does (R29). -/
def Obligations.TideIncrementJudged : Prop :=
  ∀ (v : Reg32) (s : State),
    let ok := 0x00FF0000#32 ≤ v ∧ v ≤ 0x01010000#32 ∧ s.body.rbit TIDE_CTL 0 = false
    (¬ ok → refusedAt (.tideIncWrite v) s TIDE_STATUS) ∧
    (ok → ∃ t, exec (.tideIncWrite v) s = .next t ∧
      t = { s with body := { s.body with regs := t.body.regs, incAt := some s.clock.cyc, incOld := t.body.incOld } } ∧
      regsBut [TIDE_INC, TIDE_STATUS] s t ∧ t.body.rget TIDE_INC = v ∧
      t.body.rget TIDE_STATUS = s.body.rget TIDE_STATUS ||| 0x10)

/-! ### Tide Time, the shot grid, alarms and captures -/

/-- Anchoring (R47, R48). The residue of the edges before the first anchoring is a free value (log entry 20). -/
def Obligations.AnchoringAndItsInstant : Prop :=
  (∀ (v : Reg32) (s : State), v.getLsbD 1 = true →
    let b := s.body
    let per := if b.rbit GLB_STRAPS 0 then 100 else 10
    let res := if b.anchored then 0 else Config.refResidue % per
    let lh := b.rbit RING_STATUS 4 = true ∧ b.rget MEMBER_LOCK &&& b.rget MEMBER_MASK = b.rget MEMBER_MASK
    let taken := fun (t : State) => regsBut [TIDE_CTL] s t ∧ t.body.rget TIDE_CTL = v &&& 0xFFFD ∧
      ∃ a, t.body.grid = { b.grid with anchorAt := some a, anchorSet := none } ∧ s.clock.cyc + 1000000 ≤ a ∧
        a < s.clock.cyc + 1000000 + per ∧ (s.clock.phase.toNat + (a - s.clock.cyc)) % per = res
    let quiet := s.body.gridRun = false ∧ (∀ e ∈ s.body.comps.entries, e.2.queue = []) ∧
      (∀ e ∈ s.body.rcv.entries, ∀ w ∈ e.2.wins, w.openNow s.clock = false) ∧ s.body.grid.anchorAt = none
    (¬ quiet → refusedAt (.anchor v) s TIDE_STATUS) ∧
    (quiet → b.ringEn = false → ∃ t, exec (.anchor v) s = .next t ∧ taken t ∧
      t = { s with body := { b with regs := t.body.regs, grid := t.body.grid } }) ∧
    (quiet → b.ringEn = true → lh → ∃ t, exec (.anchor v) s = .next t ∧ taken t ∧
      t = { s with body := { b with regs := t.body.regs, grid := t.body.grid, ring := t.body.ring, log := t.body.log } }) ∧
    (quiet → b.ringEn = true → ¬ lh → refusedAt (.anchor v) s TIDE_STATUS)) ∧
  (∀ (s : State),
    let per := if s.body.rbit GLB_STRAPS 0 then 100 else 10
    let res := if s.body.anchored then 0 else Config.refResidue % per
    let due := ∃ a, s.body.grid.anchorAt = some a ∧ a ≤ s.clock.cyc ∧ s.clock.phase.toNat % per = res
    (¬ due → exec .anchorInstant s = .next s) ∧
    (due → ∃ t, exec .anchorInstant s = .next t ∧ t = { s with clock := t.clock, body := t.body } ∧
      t.clock.phase = 0 ∧ t.clock.cyc = s.clock.cyc ∧ t.clock.on = s.clock.on ∧
      (s.body.grid.anchorSet = none →
        t.clock.tt = s.body.rget TIDE_SET_HI ++ s.body.rget TIDE_SET_LO ++ s.body.rget TIDE_SET_FRAC) ∧
      (∀ x, s.body.grid.anchorSet = some x → t.clock.tt = x) ∧
      t.body.epoch = 0 ∧ t.body.rget HOLD_COUNT = 0 ∧ t.body.anchored = true ∧ t.body.tideBreak = false ∧
      (∀ n : Nat, n < 32 → t.body.rbit (ALM_CTL n) 24 = false) ∧
      (∀ n : Nat, n < 16 → t.body.rbit (CAP_CTL n) 16 = false ∧ t.body.rbit (CAP_CTL n) 17 = false) ∧
      (∀ n, (t.body.fab.store.get .reset n).valid = false ∧ (t.body.fab.mirror.get .reset n).valid = false) ∧
      (∀ n, t.body.tableResult n = none) ∧ (∀ q, (t.body.comp q).hz = .empty) ∧ (∀ n, (t.body.recv n).hz = .empty) ∧
      t.body.grid.anchorAt = none ∧ t.body.gridRun = s.body.gridRun))

/-- The Shot Grid: start, stop and the settling of boundaries (R35, R41, R42, R67 to R69). -/
def Obligations.GridAndItsBoundaries : Prop :=
  (∀ (v : Reg32) (s : State),
    let b := s.body
    let o := (b.rget GRID_ORIGIN_LO).toNat + 2 ^ 32 * (b.rget GRID_ORIGIN_HI).toNat
    let p := (b.rget GRID_PERIOD).toNat
    let soon := s.clock.tt.toNat / 2 ^ 32 + 4000
    let start := v.getLsbD 0
    let stop := v.getLsbD 1
    (start = true → stop = false → b.anchored = true → b.gridRun = false → 0 < p →
      ∃ t k, exec (.gridCmdStart v) s = .next t ∧
        t = { s with body := { b with regs := t.body.regs, ring := t.body.ring, grid := t.body.grid } } ∧
        regsBut [TIDE_STATUS] s t ∧ t.body.rget TIDE_STATUS = b.rget TIDE_STATUS ||| 2 ∧ t.body.gridRun = true ∧
        t.body.grid.win = .start ∧ t.body.grid.next = o + k * p ∧ soon ≤ t.body.grid.next ∧ (k = 0 ∨ o + (k - 1) * p < soon) ∧
        t.body.grid.ann = false ∧ t.body.grid.stopping = false) ∧
    (start = true → stop = true ∨ b.anchored = false ∨ b.gridRun = true → refusedAt (.gridCmdStart v) s TIDE_STATUS) ∧
    (start = false → stop = true → b.gridRun = true →
      exec (.gridCmdStop v) s = .next { s with body := { b with grid := { b.grid with stopping := true } } }) ∧
    (b.gridRun = true → b.grid.stopping = true → b.grid.ann = false → b.grid.win ≠ .shot → b.quiet s.clock = true →
      ∃ t, exec .finalCommit s = .next t ∧ t.body.gridRun = false ∧ t.body.grid.win = .stopped ∧
        t.body.grid.stopping = false ∧ t.body.grid.lastCommit = some s.clock.cyc ∧ t.mem = s.mem ∧ t.clock = s.clock) ∧
    (b.grid.ann = true ∨ b.grid.win = .shot ∨ b.quiet s.clock = false → exec .finalCommit s = .next s)) ∧
  (∀ (s : State),
    let b := s.body
    let g := b.grid
    let near := fun (n : Nat) => g.next * 2 ^ 32 ≤ s.clock.tt.toNat + n * ((b.rget TIDE_INC_ACT).toNat * 2 ^ 8)
    let member := b.ringEn = true ∧ b.rbit RING_STATUS 4 = false
    let alone := b.ringEn = false ∧ b.gridRun = true
    let e := (b.epoch + 1) % 65536
    let r := b.holdReasons
    let mask := g.voteMask ||| 2 ^ b.devId
    let why := g.voteReasons ||| r.2
    (alone → g.stopping = false → g.ann = false → near 3000 →
      exec .announceSend s = .next { s with body := { b with
        grid := { g with ann := true, annEpoch := e, horizon := false, voted := 0, verdict := none, voteMask := 0, voteReasons := 0 },
        ring := { b.ring with lastAnnSent := s.clock.cyc } } }) ∧
    (¬ near 3000 ∨ g.ann = true ∨ g.stopping = true ∨ b.gridRun = false → exec .announceSend s = .next s) ∧
    (alone → g.ann = true → g.horizon = false → near 2000 →
      (r.2.testBit 1 = (b.tideBreak && b.rbit RING_CTL 7)) ∧ (r.2.testBit 2 = decide (5 ≤ b.shedLevel)) ∧
      ∃ t, exec .slackHorizon s = .next t ∧ t = { s with body := { r.1 with grid := t.body.grid } } ∧
        t.body.grid = (if r.2 = 0 then { g with horizon := true, voted := 0 } else { g with horizon := true, voted := r.2, voteMask := mask, voteReasons := why })) ∧
    (¬ near 2000 ∨ g.ann = false ∨ g.horizon = true ∨ b.gridRun = false → exec .slackHorizon s = .next s) ∧
    (alone → g.ann = true → g.horizon = true → g.verdict = none → near 1000 →
      ∃ t, exec .verdictSend s = .next t ∧
        t = { s with body := { b with regs := t.body.regs, grid := { g with verdict := some (g.voteMask != 0) }, ring := { b.ring with lastAnnSent := s.clock.cyc } } } ∧
        regsBut [HOLD_LAST] s t ∧ t.body.rget HOLD_LAST =
          if g.voteMask = 0 then b.rget HOLD_LAST else BitVec.ofNat 32 (g.voteMask + g.voteReasons * 2 ^ 16)) ∧
    (¬ near 1000 ∨ g.ann = false ∨ g.horizon = false ∨ g.verdict ≠ none → exec .verdictSend s = .next s) ∧
    (b.gridRun = true → g.ann = true ∨ (member ∧ g.stopping = false) → g.verdict = none → near 64 →
      ∃ t, exec .verdictMiss s = .next t ∧
        t = { s with body := { b with regs := t.body.regs, log := t.body.log, grid := { g with verdict := some true }, ring := t.body.ring } } ∧
        regsBut [TIDE_STATUS] s t ∧ t.body.rget TIDE_STATUS = b.rget TIDE_STATUS ||| 0x800) ∧
    (¬ near 64 ∨ b.gridRun = false ∨ (g.ann = false ∧ (¬ member ∨ g.stopping = true)) ∨ g.verdict ≠ none → exec .verdictMiss s = .next s))

/-- R38, R199: what the start of a shot does. -/
def Obligations.ShotStarts : Prop :=
  ∀ (s : State),
    let b := s.body
    let g := b.grid
    let due := b.gridRun = true ∧ g.ann = true ∧ g.verdict = some false ∧ g.next ≤ s.clock.tt.toNat / 2 ^ 32 ∧ g.win ≠ .shot ∧
      b.tideBreak = false
    (¬ due → exec .shotStart s = .next s) ∧
    (due → ∃ t, exec .shotStart s = .next t ∧ onlyBody s t ∧
      t.body.epoch = (b.epoch + 1) % 65536 ∧ t.body.rbit TIDE_STATUS 2 = true ∧ t.body.gridRun = true ∧
      t.body.grid.win = .shot ∧ t.body.grid.bound = g.next ∧ t.body.grid.next = g.next + b.gridPeriod ∧
      t.body.grid.ann = false ∧ t.body.grid.started = g.next ∧ t.body.grid.shotFin = g.next + b.shotLen ∧
      (∀ n : Nat, n < 16 → t.body.rget (COVE_SHOT_FLAGS n) = 0 ∧ t.body.rget (SHOT_FLAGS_EPOCH n) = BitVec.ofNat 32 ((b.epoch + 1) % 65536)) ∧
      (∀ e : Nat, e < 192 → b.oddTwin e = false → b.engState e = 1 → t.body.engState e = 2) ∧
      (∀ e : Nat, e < 192 → b.oddTwin e = false → b.engState e = 0 → t.body.engState e = 0) ∧
      ((∀ n : Nat, n < 16 → b.guarded n = false) → ∀ e : Nat, e < 192 → b.engState e = 1 →
        (t.body.eng e).pc = (b.rget (ENG_ENTRY e)).extractLsb' 0 24 ∧ (t.body.eng e).g = (b.eng e).g))

/-- R38, R40. -/
def Obligations.SlackWindowAndItsCommit : Prop :=
  ∀ (s : State),
    let b := s.body
    let g := b.grid
    let now := s.clock.tt.toNat / 2 ^ 32
    let near := fun (n : Nat) => g.next * 2 ^ 32 ≤ s.clock.tt.toNat + n * ((b.rget TIDE_INC_ACT).toNat * 2 ^ 8)
    (g.win = .shot → g.shotFin ≤ now → b.rbit TIDE_CTL 15 = false →
      ∃ t, exec .slackStart s = .next t ∧
        t = { s with body := { b with regs := t.body.regs, grid := { g with win := .slack } } } ∧ regsBut [TIDE_STATUS] s t ∧
        t.body.rget TIDE_STATUS = b.rget TIDE_STATUS &&& ~~~4) ∧
    (g.win ≠ .shot ∨ now < g.shotFin → exec .slackStart s = .next s) ∧
    (b.gridRun = true → g.done = false → g.stopping = false → g.win = .slack → b.quiet s.clock = true → ¬ near 2999 →
      ∃ t, exec .slackCommit s = .next t ∧ onlyBody s t ∧ t.body.grid.done = true ∧ t.body.grid.lastCommit = some s.clock.cyc ∧
        t.body.grid.win = .slack ∧ t.body.host.commitMark = b.host.commitMark + 1 ∧
        (b.rbit TIDE_STATUS 4 = true → b.incAt ≠ some s.clock.cyc → t.body.rget TIDE_INC_ACT = b.rget TIDE_INC) ∧
        (b.rbit TIDE_STATUS 4 = false → t.body.rget TIDE_INC_ACT = b.rget TIDE_INC_ACT)) ∧
    (g.done = true ∨ g.stopping = true ∨ g.win = .shot ∨ b.gridRun = false ∨ (g.win = .slack ∧ b.quiet s.clock = false) →
      exec .slackCommit s = .next s) ∧
    (b.gridRun = true → g.win = .slack → g.done = false → g.stopping = false → near 3000 →
      ∃ t, exec .slackOverrun s = .next t ∧
        t = { s with body := { b with regs := t.body.regs, log := t.body.log, grid := { g with done := true } } } ∧
        regsBut [TIDE_STATUS] s t ∧ t.body.rget TIDE_STATUS = b.rget TIDE_STATUS ||| 0x200) ∧
    (g.done = true ∨ ¬ near 3000 ∨ g.win = .shot → exec .slackOverrun s = .next s)

/-- R43; ACTION 0 does nothing (R44). -/
def Obligations.AlarmsArmAndFire : Prop :=
  ∀ (n : Fin 32) (v : Reg32) (s : State),
    let b := s.body
    let ctl := b.rget (ALM_CTL n)
    let lo := (b.staged.get none (ALM_TARGET_LO n)).getD (b.rget (ALM_TARGET_LO n))
    let now := s.clock.tt.toNat / 2 ^ 32
    let tgt := (b.rget (ALM_TARGET_LO n)).toNat + 2 ^ 32 * (b.rget (ALM_TARGET_HI n)).toNat
    let p := (b.rget (ALM_PERIOD n)).toNat
    (b.alarmDue s.clock n = false → ∃ t, exec (.almTargetHiWrite n v) s = .next t ∧
      t = { s with body := { b with regs := t.body.regs, log := t.body.log, staged := t.body.staged, grid := t.body.grid } } ∧
      regsBut [ALM_TARGET_LO n, ALM_TARGET_HI n, ALM_CTL n] s t ∧ t.body.rget (ALM_TARGET_LO n) = lo ∧
      t.body.rget (ALM_TARGET_HI n) = v ∧
      t.body.rget (ALM_CTL n) = (if ctl.getLsbD 0 then
        ctl ||| 0x01000000 ||| (if lo.toNat + 2 ^ 32 * v.toNat ≤ now then 0x02000000 else 0) else ctl)) ∧
    (b.alarmDue s.clock n = false → exec (.alarmFire n) s = .next s) ∧
    (b.alarmDue s.clock n = true → ctl.extractLsb' 1 3 = 0 → ctl.getLsbD 10 = false → p = 0 →
      sets (.alarmFire n) s [(ALM_CTL n, ctl &&& ~~~0x01000000)]) ∧
    (b.alarmDue s.clock n = true → ctl.extractLsb' 1 3 = 0 → ctl.getLsbD 10 = false → 0 < p →
      ∃ m, tgt + m * p > now ∧ 1 ≤ m ∧ tgt + (m - 1) * p ≤ now ∧
        sets (.alarmFire n) s [(ALM_TARGET_LO n, BitVec.ofNat 32 (tgt + m * p)),
          (ALM_TARGET_HI n, BitVec.ofNat 32 ((tgt + m * p) / 2 ^ 32)), (ALM_CTL n, ctl ||| (if 1 < m then 0x04000000 else 0))])

/-- R46. -/
def Obligations.CapturesKeepTheFirst : Prop :=
  ∀ (n : Fin 16) (src : CapSrc) (v : Reg32) (s : State),
    let b := s.body
    let ctl := b.rget (CAP_CTL n)
    let sub := match src with
      | .chan _ => 0
      | .pin _ _ x => x.toNat
    let now := s.clock.tt.extractLsb' 32 64
    let held := fun (x : Nat) => [(CAP_SUB n, BitVec.ofNat 32 x), (CAP_TT_LO n, now.extractLsb' 0 32), (CAP_TT_HI n, now.extractLsb' 32 32),
      (CAP_PC_LO n, s.clock.phase.extractLsb' 0 32), (CAP_PC_HI n, s.clock.phase.extractLsb' 32 32)]
    let plain := ((ctl &&& ~~~(0x20000 &&& v &&& ~~~(b.log.sets.get 0 (CAP_CTL n)))) &&& ~~~0x1FF ||| v &&& 0x1FF) &&& ~~~0x10000
    (b.captures n src = false → exec (.capture n src) s = .next s) ∧
    (b.captures n src = true → ctl.getLsbD 16 = false →
      sets (.capture n src) s ((CAP_CTL n, ctl ||| 0x10000) :: held sub)) ∧
    (b.captures n src = true → ctl.getLsbD 16 = true → sets (.capture n src) s [(CAP_CTL n, ctl ||| 0x20000)]) ∧
    (v.getLsbD 31 = true → v.extractLsb' 1 2 ≠ 3 → b.log.capMiss.get none n = none → sets (.ack n v) s [(CAP_CTL n, plain)]) ∧
    (∀ x was more, v.getLsbD 31 = true → v.extractLsb' 1 2 ≠ 3 → b.log.capMiss.get none n = some (x, was, more) →
      sets (.ack n v) s ((CAP_CTL n, plain &&& ~~~0x20000 ||| 0x10000 ||| (if more || (was && ! v.getLsbD 17) then 0x20000 else 0)) :: held x)) ∧
    (v.getLsbD 31 = false → v.extractLsb' 1 2 ≠ 3 → (b.log.sets.get 0 (CAP_CTL n)).getLsbD 17 = true → ctl.getLsbD 17 = true →
      ∃ t, exec (.ack n v) s = .next t ∧ t.body.rbit (CAP_CTL n) 17 = true) ∧
    (v.extractLsb' 1 2 = 3 → refusedAt (.ack n v) s TIDE_STATUS)

/-- R104, on a drive or probe port with unchanged SL fields. -/
def Obligations.ConverterCores : Prop :=
  ∀ (p : Fin 80) (v : Reg32) (s : State),
    let b := s.body
    let ctl := b.rget (PORT_CTL p)
    let st := b.rget (PORT_STATUS p)
    let same := v &&& 0xF2 = ctl &&& 0xF2 ∧ v.getLsbD 8 = false
    let x := b.comp p
    (same → v.getLsbD 0 = true → b.fwReady = true → b.portHeld (.dp p) = false → b.calOn (PortRef.dp p).cls (PortRef.dp p).idx = false →
      x.core = ⟨none, false⟩ → (p.val ∉ b.thm.parked) →
      ∃ t, exec (.coreEn (.dp p) v) s = .next t ∧
        t = { s with body := { b with regs := t.body.regs, comps := t.body.comps, thm := t.body.thm } } ∧
        regsBut [PORT_CTL p, PORT_STATUS p] s t ∧ t.body.rget (PORT_CTL p) = ctl &&& 0xF2 ||| 1 ∧
        t.body.rget (PORT_STATUS p) = st ||| 1 ∧ t.body.comp p = { x with core := ⟨some s.clock.cyc, false⟩ } ∧
        ∀ q, q ≠ p.val → t.body.comp q = b.comp q) ∧
    (same → v.getLsbD 0 = true → b.portHeld (.dp p) = true → refusedAt (.coreEn (.dp p) v) s (PORT_STATUS p)) ∧
    (∀ c0, x.core.start = some c0 → c0 + 20000 ≤ s.clock.cyc → b.calOn (PortRef.dp p).cls (PortRef.dp p).idx = false →
      sets (.coreReady (.dp p)) s [(PORT_STATUS p, st ||| 2)]) ∧
    (∀ c0, x.core.start = some c0 → s.clock.cyc < c0 + 20000 → exec (.coreReady (.dp p)) s = .next s) ∧
    (same → v.getLsbD 0 = false → b.calOn (PortRef.dp p).cls (PortRef.dp p).idx = false → x.core.start ≠ none → b.gridRun = false →
      ∃ t, exec (.coreEn (.dp p) v) s = .next t ∧ t = { s with body := { b with regs := t.body.regs, comps := t.body.comps } } ∧
        regsBut [PORT_CTL p, PORT_STATUS p] s t ∧ t.body.rget (PORT_CTL p) = ctl &&& 0xF2 ∧ t.body.rget (PORT_STATUS p) = st &&& ~~~3 ∧
        t.body.comp p = { x with core := ⟨none, false⟩, run := [], base := 0, line := [] }) ∧
    (same → v.getLsbD 0 = false → b.calOn (PortRef.dp p).cls (PortRef.dp p).idx = false → x.core.start ≠ none → b.gridRun = true →
      ∃ t, exec (.coreEn (.dp p) v) s = .next t ∧ t = { s with body := { b with regs := t.body.regs, comps := t.body.comps } } ∧
        regsBut [PORT_CTL p] s t ∧ t.body.rget (PORT_CTL p) = ctl &&& 0xF2 ∧
        t.body.comp p = { x with core := { x.core with stopping := true } }) ∧
    (∀ r : PortRef, r.ok = true →
      (∀ c0, (b.core r).start = some c0 → c0 + 20000 ≤ s.clock.cyc → (r.cls = 2 ∨ b.calOn r.cls r.idx = false) →
        sets (.coreReady r) s [(r.status, b.rget r.status ||| 2)]) ∧
      (∀ w : Reg32, (∃ i, r = .fx i ∧ w = 1) ∨ (∃ i, r = .rx i ∧ w = b.rget r.ctl &&& 0xF01FE ||| 1) →
        b.fwReady = true → b.portHeld r = false → b.calOn r.cls r.idx = false → b.core r = ⟨none, false⟩ → r.parkKey ∉ b.thm.parked →
        ∃ t, exec (.coreEn r w) s = .next t ∧ onlyBody s t ∧ t.body.core r = ⟨some s.clock.cyc, false⟩ ∧ t.body.rbit r.ctl 0 = true ∧
          t.body.rget r.status = b.rget r.status ||| 1 ∧ regsBut [r.ctl, r.status] s t))

/-! ### The Tide Ring -/

/-- Frames the device originates (R54, R57, R60, R62, R67). -/
def Obligations.RingSends : Prop :=
  ∀ (s : State) (ringB : Bool),
    let b := s.body
    let c := s.clock
    let inSlack := fun (last : Nat) => (b.grid.win = .slack ∧ last < b.grid.shotFin) ∨
      ((b.grid.win = .start ∨ b.grid.win = .held) ∧ last < b.grid.bound)
    let lastReq := if ringB then b.ring.lastReqB else b.ring.lastReqA
    let reqDue := (b.gridRun = true ∧ inSlack lastReq) ∨
      (b.gridRun = false ∧ lastReq + 1000 * ((b.rget SYNC_CFG).extractLsb' 0 4).toNat ≤ c.tt.toNat / 2 ^ 32)
    let lh := b.ringEn = true ∧ b.rbit RING_STATUS 4 = true
    let now := c.tt.toNat / 2 ^ 32
    let near := fun (n : Nat) => b.grid.next * 2 ^ 32 ≤ c.tt.toNat + n * ((b.rget TIDE_INC_ACT).toNat * 2 ^ 8)
    let close := c.cyc ≤ b.ring.lastAnnSent + 100 ∨ (b.gridRun = true ∧
      ((b.grid.ann = false ∧ b.grid.stopping = false ∧ near 3100) ∨ (b.grid.ann = true ∧ b.grid.verdict = none ∧ near 1100)))
    let wrapped := b.rbit RING_STATUS 3 = true ∨ ∃ e ∈ b.ring.status.entries, (e.2.getD 0).getLsbD 2 = true
    let sent := fun (r : RingSt) => if ringB then { r with lastReqB := now } else { r with lastReqA := now }
    (∀ ty dst bc arg d1 d2 d3, b.canSend = true → b.rbit RING_STATUS 3 = false →
      let u := b.sendBoth ty dst bc arg d1 d2 d3
      u.ring.txA = enqueueTx ⟨b.newFrame ty dst bc false arg d1 d2 d3, none, 0⟩ b.ring.txA ∧
      u.ring.txB = enqueueTx ⟨b.newFrame ty dst bc true arg d1 d2 d3, none, 0⟩ b.ring.txB ∧ u.ring.seq = b.ring.seq + 1 ∧ u.regs = b.regs) ∧
    (∀ ty dst bc arg d1 d2 d3, b.canSend = false → b.sendBoth ty dst bc arg d1 d2 d3 = b) ∧
    (∀ (e : TxEntry) (l : List TxEntry), l.Pairwise (fun x y => frameClass x.frame.type.toNat ≤ frameClass y.frame.type.toNat) →
      (enqueueTx e l).Pairwise (fun x y => frameClass x.frame.type.toNat ≤ frameClass y.frame.type.toNat) ∧
      (enqueueTx e l).length = l.length + 1) ∧
    (lh → b.ring.lastTimeSent + 1000 * ((b.rget SYNC_CFG).extractLsb' 0 4).toNat ≤ c.cyc → ¬ close →
      ∃ u, u = b.sendBoth 1 0 true (if b.anchored then 1 else 0) 0 0 0 ∧
        exec .timeSend s = .next { s with body := { u with ring := { u.ring with lastTimeSent := c.cyc } } }) ∧
    (¬ lh ∨ close ∨ c.cyc < b.ring.lastTimeSent + 1000 * ((b.rget SYNC_CFG).extractLsb' 0 4).toNat → exec .timeSend s = .next s) ∧
    (reqDue → ∃ u, u = b.sendOne ringB 2 0 false 0 0 0 0 none ∧ exec (.delayReqSend ringB) s = .next { s with body := { u with ring := sent u.ring } }) ∧
    (¬ reqDue → exec (.delayReqSend ringB) s = .next s) ∧
    (lh → ¬ wrapped → b.gridRun = true → inSlack b.ring.lastLoop →
      ∃ u, u = (b.sendOne false 4 b.devId false 0 0 0 0 none).sendOne true 4 b.devId false 1 0 0 0 none ∧
        exec .loopSend s = .next { s with body := { u with ring := { u.ring with lastLoop := c.tt.toNat / 2 ^ 32, loopA := none, loopB := none } } }) ∧
    (¬ lh ∨ wrapped ∨ b.gridRun = false ∨ ¬ inSlack b.ring.lastLoop → exec .loopSend s = .next s)

/-- Time transfer (R62 to R72) and control of the ring (R70 to R85). -/
def Obligations.RingTimeTransferAndControl : Prop :=
  (∀ (rx : Rx) (s : State),
    let b := s.body
    let c := s.clock
    let f := rx.frame
    let stamp : Int := 16 * c.cyc + rx.sub.toNat
    let term := (b.rget RING_STATUS).extractLsb' 24 8
    let lhId := (b.rget RING_STATUS).extractLsb' 20 4
    let ingress : Nat := ((if rx.ringB then b.rget LINK_B_IN else b.rget LINK_A_IN).extractLsb' 0 20).toNat
    let arrival : Nat := (16 * c.tt.toNat + rx.sub.toNat * (b.rget TIDE_INC_ACT).toNat * 2 ^ 8) / 2 ^ 32
    let paced := if b.gridRun = true then b.ring.servoMark ≠ some b.host.commitMark
      else b.ring.servoAt + 1000 * ((b.rget SYNC_CFG).extractLsb' 0 4).toNat ≤ c.cyc
    let off : Int := arrival - (16 * f.d1.toNat + (f.d2.extractLsb' 60 4).toNat + (f.d2.extractLsb' 28 32).toNat + ingress : Nat)
    let corr : Nat := (f.d2.extractLsb' 28 32).toNat + ingress
    let slip := 1 < ((s.clock.phase.setWidth 32 - BitVec.ofInt 32 (roundEven corr 16) - f.d3).toInt).natAbs
    let foreign := b.ringEn = true ∧ f.src.toNat ≠ b.devId ∧ f.term = term
    let fromLh := foreign ∧ f.bcast = true ∧ f.hops.toNat < 30 ∧ b.rbit RING_STATUS 4 = false ∧ b.ring.lhKnown = true ∧ f.src = lhId
    let new := fromLh ∧ b.seenBefore c (rx.typed 1) = none
    let forwarded := fun (t : State) => b.rbit RING_STATUS 3 = false → rx.ringB = false → t.body.ring.txB = b.ring.txB ∧
      t.body.ring.txA = enqueueTx ⟨{ f with type := 1, hops := f.hops + 1 }, some (16 * c.cyc + rx.sub.toNat), ingress⟩ b.ring.txA
    (new → rx.ringB = false → f.hops = 0 → b.tideBreak = false → ¬ slip → off.natAbs ≤ 16000 →
      ∃ t, exec (.timeFrame rx) s = .next t ∧ onlyBody s t ∧ t.body.rget TIME_OFFSET = BitVec.ofInt 32 off ∧
        t.body.rbit RING_STATUS 5 = decide (off.natAbs ≤ ((b.rget SERVO_CFG).extractLsb' 12 8).toNat) ∧
        t.body.ring.offs = b.ring.offs ++ [off] ∧ t.body.ring.lastLh = c.cyc ∧ forwarded t ∧ regsBut [TIME_OFFSET, RING_STATUS] s t) ∧
    (new → rx.ringB = false → f.hops = 0 → (slip ∨ 16000 < off.natAbs) →
      ∃ t, exec (.timeFrame rx) s = .next t ∧ onlyBody s t ∧ t.body.tideBreak = true ∧ (slip → t.body.rbit RING_STATUS 15 = true) ∧
        (16000 < off.natAbs → t.body.rbit RING_STATUS 13 = true) ∧ t.body.ring.offs = b.ring.offs ∧ forwarded t) ∧
    (new → rx.ringB = true ∨ f.hops ≠ 0 →
      ∃ t h, exec (.timeFrame rx) s = .next t ∧ onlyBody s t ∧ regsBut [] s t ∧ t.body.ring.timeHeld = b.ring.timeHeld ++ [h] ∧
        h.off = off ∧ h.hops = f.hops.toNat ∧ h.ringB = rx.ringB ∧ (h.slip = true ↔ slip) ∧ t.body.ring.offs = b.ring.offs ∧ forwarded t) ∧
    (∀ h, fromLh → b.seenBefore c (rx.typed 1) ≠ none → b.ring.timeHeld = [h] → h.src = f.src → h.type = 1 → h.seq = f.seq → h.ringB ≠ rx.ringB →
      b.tideBreak = false →
      let mine := f.hops.toNat < h.hops ∨ (f.hops.toNat = h.hops ∧ rx.ringB = false)
      let used := if mine then off else h.off
      (if mine then ¬ slip else h.slip = false) → used.natAbs ≤ 16000 →
      ∃ t, exec (.timeFrame rx) s = .next t ∧ onlyBody s t ∧ t.body.ring.timeHeld = [] ∧ t.body.rget TIME_OFFSET = BitVec.ofInt 32 used ∧
        t.body.ring.offs = b.ring.offs ++ [used] ∧ regsBut [TIME_OFFSET, RING_STATUS] s t) ∧
    (foreign → ∃ u, u = b.sendOne (! rx.ringB) 3 f.src.toNat false 0 f.seq.toNat 0 0 (some (16 * c.cyc + rx.sub.toNat)) ∧
      exec (.delayReq rx) s = .next { s with body := u }) ∧
    (∀ dep, foreign → rx.ringB = false → b.ring.reqB = some (f.d1.extractLsb' 0 16, some dep) →
      let rtt := stamp - dep - (f.d2.extractLsb' 28 32).toNat
      ∃ t, exec (.delayResp rx) s = .next t ∧ onlyBody s t ∧ t.body.ring.reqB = none ∧
        t.body.ring.rttUp = (b.ring.rttUp ++ [rtt]).drop (b.ring.rttUp.length + 1 - 8) ∧ t.body.ring.rttDn = b.ring.rttDn) ∧
    (∀ d a, b.ringEn = true → f.src.toNat = b.devId → rx.ringB = true → b.ring.loopDepB = some d → b.ring.loopA = some a →
      ∃ t, exec (.loopFrame rx) s = .next t ∧ onlyBody s t ∧ regsBut [LOOP_ASYM, RING_STATUS] s t ∧
        t.body.rget LOOP_ASYM = BitVec.ofInt 32 (a.1 - (stamp - d - (f.d2.extractLsb' 28 32).toNat) - a.2) ∧
        t.body.ring.loopA = none ∧ t.body.ring.loopB = none) ∧
    (foreign → f.bcast = false → f.dst.toNat ≠ b.devId → f.hops.toNat < 30 →
      exec (.loopFrame rx) s = .next { s with body := b.forward c (rx.typed 4) }) ∧
    (b.rbit TIDE_CTL 0 = true → paced → ¬ (b.ringEn = true ∧ b.rbit RING_STATUS 4 = true) → b.rbit RING_STATUS 6 = false → b.tideBreak = false →
      b.ring.offs ≠ [] → ∃ t inc, exec .servoStage s = .next t ∧ regsBut [TIDE_INC, TIDE_STATUS] s t ∧ t.body.rget TIDE_INC = inc ∧
        t.body.rbit TIDE_STATUS 4 = true ∧ t.body.ring.offs = [] ∧
        (b.ring.offs.sum.natAbs ≤ ((b.rget SERVO_CFG).extractLsb' 12 8).toNat * b.ring.offs.length → inc = 0x01000000)) ∧
    (b.rbit TIDE_CTL 0 = false ∨ b.tideBreak = true ∨ b.ring.offs = [] ∨ ¬ paced → exec .servoStage s = .next s) ∧
    (∀ crc, crc ≠ f.crc → b.ringEn = true → sets (.frameDiscard rx crc false) s
      [(if rx.ringB then CRC_ERR_B else CRC_ERR_A, satInc (b.rget (if rx.ringB then CRC_ERR_B else CRC_ERR_A)) 1)]) ∧
    (f.type = 0 ∨ 13 ≤ f.type.toNat → b.ringEn = true → ∀ begun, sets (.frameDiscard rx f.crc begun) s [(FRAME_DROP, satInc (b.rget FRAME_DROP) 1)])) ∧
  (∀ (ringB : Bool) (v : Reg32) (s : State),
    let b := s.body
    let c := s.clock
    let ctl := b.rget RING_CTL
    let i := if ringB then 1 else 0
    (b.ringEn = true → ∃ t, exec (.linkUp ringB) s = .next t ∧ onlyBody s t ∧ t.body.rbit RING_STATUS i = true ∧
      (if ringB then t.body.ring.rttDn = [] ∧ t.body.ring.lockSinceB = c.cyc ∧ t.body.ring.rttUp = b.ring.rttUp
        else t.body.ring.rttUp = [] ∧ t.body.ring.lockSinceA = c.cyc ∧ t.body.ring.rttDn = b.ring.rttDn)) ∧
    (b.ringEn = true → ∃ t, exec (.ringBreak ringB) s = .next t ∧ onlyBody s t ∧ t.body.rbit RING_STATUS i = false ∧
      (if ringB then t.body.ring.brokenB = true else t.body.ring.brokenA = true) ∧
      t.body.rbit RING_STATUS 3 = (b.rbit RING_STATUS 3 || (ctl.getLsbD 8 && b.rbit RING_STATUS (1 - i)))) ∧
    (b.ringEn = false → exec (.linkUp ringB) s = .next s ∧ exec (.ringBreak ringB) s = .next s) ∧
    (b.rbit RING_STATUS 3 = true → b.ring.brokenA = true → b.ring.brokenB = false → b.rbit RING_STATUS 0 = true →
      b.ring.lockSinceA + 1000000 ≤ c.cyc → Config.farLock false c.cyc = true →
      (b.gridRun = false → ∃ t, exec .unwrap s = .next t ∧ t.body.rbit RING_STATUS 3 = false ∧ t.body.ring.brokenA = false) ∧
      (b.gridRun = true → exec .unwrap s = .next { s with body := { b with ring := { b.ring with unwrapStaged := true } } })) ∧
    (b.rbit RING_STATUS 3 = false ∨ (b.ring.brokenA = true ∧ Config.farLock false c.cyc = false) → exec .unwrap s = .next s) ∧
    (v.getLsbD 0 = true → b.asymMismatch = false → 8 ≤ b.ring.newUp → 8 ≤ b.ring.newDn →
      ∃ t, exec (.asymConfirm v) s = .next t ∧ onlyBody s t ∧ t.body.ring.useUp = ((b.rget ASYM_UP).extractLsb' 0 16).toInt ∧
        t.body.ring.useDn = ((b.rget ASYM_DN).extractLsb' 0 16).toInt ∧ t.body.rbit RING_STATUS 7 = false ∧
        regsBut [LINK_A_IN, LINK_B_IN, RING_STATUS] s t) ∧
    (v.getLsbD 0 = true → b.asymMismatch = true → ∃ t, exec (.asymConfirm v) s = .next t ∧ t.body.rbit RING_STATUS 8 = true ∧
      t.body.ring = b.ring) ∧
    (v.extractLsb' 4 2 = 1 → v.getLsbD 6 = true → v.getLsbD 9 = false → b.ringEn = false →
      ∃ t, exec (.ringEn v) s = .next t ∧ t.body.rget RING_CTL = v &&& 0x1FF ∧ t.body.ringEn = true ∧ t.body.rbit RING_STATUS 4 = true ∧
        (t.body.rget RING_STATUS).extractLsb' 20 4 = v.extractLsb' 0 4 ∧ t.body.free = b.free + 1) ∧
    (v.extractLsb' 4 2 = 3 → ∃ t, exec (.ringEn v) s = .next t ∧ t.body.rbit RING_STATUS 8 = true ∧ t.body.rget RING_CTL = ctl) ∧
    (v &&& 0x1FF = ctl &&& 0x1FF → ctl.extractLsb' 4 2 ≠ 3 → v.getLsbD 9 = true →
      ∃ t, exec (.remeasure v) s = .next t ∧ onlyBody s t ∧ t.body.ring.rttUp = [] ∧ t.body.ring.rttDn = [] ∧
        t.body.ring.newUp = 0 ∧ t.body.ring.newDn = 0 ∧ t.body.rget RING_CTL = v &&& 0x1FF) ∧
    (b.ringEn = true → b.role = 2 → b.rbit RING_STATUS 4 = false → b.ring.lastLh + 1000 * ((b.rget SYNC_CFG).extractLsb' 8 7).toNat ≤ c.cyc → b.anchored = true →
      b.tideBreak = false → ∃ t, exec .lhSilent s = .next t ∧ onlyBody s t ∧ t.body.rbit RING_STATUS 4 = true ∧ t.body.rbit RING_STATUS 9 = true ∧
        (t.body.rget RING_STATUS).extractLsb' 24 8 = (b.rget RING_STATUS).extractLsb' 24 8 + 1 ∧
        (t.body.rget RING_STATUS).extractLsb' 20 4 = ctl.extractLsb' 0 4))

/-- Delivered frames (R56): `acc` is what the acceptance rules leave, the frame's term followed (R71), and `u` the device then. -/
def Obligations.RingProtocolFrames : Prop :=
  ∀ (rx : Rx) (s : State) (ty : BitVec 4),
    let b := s.body
    let c := s.clock
    let f := (rx.typed ty).frame
    let acc := b.accept c (rx.typed ty) false
    let u := acc.body
    let per := if u.rbit GLB_STRAPS 0 then 100 else 10
    let res := if u.anchored then 0 else Config.refResidue % per
    let ingress : Nat := ((if rx.ringB then u.rget LINK_B_IN else u.rget LINK_A_IN).extractLsb' 0 20).toNat
    let instant : Int := 16 * c.cyc + rx.sub.toNat + 16 * (f.d2.extractLsb' 4 24).toNat - (f.d2.extractLsb' 28 32).toNat - ingress
    let member := acc.deliver = true ∧ u.fromLh f = true ∧ u.actingLh = false
    (ty = 5 → member → u.anchored = true → u.gridRun = true → u.tideBreak = false →
      (u.epoch + 1) % 65536 = (f.d2.extractLsb' 48 16).toNat →
      ∃ t, exec (.announce rx) s = .next t ∧ onlyBody s t ∧ t.body.rget GRID_MIRROR_PERIOD = f.d2.extractLsb' 16 32 ∧
        t.body.rget GRID_MIRROR_SHOTLEN = f.d3 ∧ t.body.epoch = u.epoch ∧ t.body.ring.lastAnn = some (f.d1.toNat, (f.d2.extractLsb' 48 16).toNat) ∧
        t.body.grid = { u.grid with next := f.d1.toNat, ann := true, annEpoch := (f.d2.extractLsb' 48 16).toNat, horizon := false, voted := 0, verdict := none }) ∧
    (ty = 6 → acc.deliver = true → acc.body.actingLh = true → acc.body.grid.ann = true → acc.body.grid.verdict = none →
      f.d1.toNat = acc.body.grid.next →
      let mask := acc.body.grid.voteMask ||| (f.d2.extractLsb' 32 16).toNat
      let why := acc.body.grid.voteReasons ||| (f.d2.extractLsb' 28 4).toNat
      exec (.holdVote rx) s = .next { s with body := { acc.body with grid := { acc.body.grid with voteMask := mask, voteReasons := why } } }) ∧
    (ty = 7 → member → u.grid.ann = true → u.grid.verdict = none → f.d1.toNat = u.grid.next → f.arg.getLsbD 1 = false →
      (f.arg.getLsbD 0 = true → ∃ t, exec (.verdict rx) s = .next t ∧ onlyBody s t ∧ t.body.grid = { u.grid with verdict := some true } ∧
        t.body.rget HOLD_LAST = (f.d2.extractLsb' 32 16).setWidth 32) ∧
      (f.arg.getLsbD 0 = false → u.grid.voted = 0 → exec (.verdict rx) s = .next { s with body := { u with grid := { u.grid with verdict := some false } } }) ∧
      (f.arg.getLsbD 0 = false → u.grid.voted ≠ 0 → ∃ t, exec (.verdict rx) s = .next t ∧ t.body.grid = { u.grid with verdict := some true } ∧
        t.body.rbit RING_STATUS 17 = true)) ∧
    (ty = 8 → acc.deliver = true → (∃ e ∈ u.ring.status.entries, e.1 = f.src.toNat) → (f.arg.extractLsb' 0 3).toNat = 1 →
      let x : ImportUpd := ⟨rx.ringB, f.src.toNat, (f.d2.extractLsb' 54 10).toNat, (f.d2.extractLsb' 46 8).toNat,
        (f.d1.extractLsb' 48 16).toNat, (f.d1.extractLsb' 12 36).toNat⟩
      (u.importFree rx.ringB = true → exec (.decisionFrame rx) s = .next { s with body := u.importNow x }) ∧
      (u.importFree rx.ringB = false →
        exec (.decisionFrame rx) s = .next { s with body := { u with fab := { u.fab with imports := u.fab.imports ++ [x] } } })) ∧
    (ty = 9 → acc.deliver = true →
      let ch := (f.d2.extractLsb' 58 6).toNat
      let imported := if ch < 32 then u.rbit EV_IMPORT_LO ch else u.rbit EV_IMPORT_HI (ch - 32)
      exec (.eventFrame rx) s = .next { s with body := if imported then u.publish c ch f.d1 0 true else u }) ∧
    (ty = 0xA → member → 2000 ≤ instant → ∃ at_ : Nat, (16 * (at_ : Int) - instant).natAbs ≤ 8 * per ∧
      ((c.phase.toNat : Int) + (at_ - c.cyc)) % per = res ∧
      exec (.anchorFrame rx) s = .next { s with body := { u with grid := { u.grid with anchorAt := some at_, anchorSet := some (f.d1 ++ f.d3) } } }) ∧
    (ty = 0xB → b.ringEn = true → f.src.toNat ≠ b.devId → f.bcast = true → f.hops.toNat < 30 → b.seenBefore c (rx.typed ty) = none →
      (b.rget RING_STATUS).extractLsb' 24 8 < f.term →
      ∃ t, exec (.takeoverFrame rx) s = .next t ∧ onlyBody s t ∧ t.body.rbit RING_STATUS 10 = true ∧ t.body.rbit RING_STATUS 4 = false ∧
        (t.body.rget RING_STATUS).extractLsb' 24 8 = f.term ∧ (t.body.rget RING_STATUS).extractLsb' 20 4 = f.src) ∧
    (ty = 0xC → f.src.toNat ≠ b.devId → acc.deliver = true →
      ∃ t, exec (.linkFrame rx) s = .next t ∧ onlyBody s t ∧
        t.body.ring.status.get none f.src.toNat = some (f.d1.extractLsb' 48 5)) ∧
    (ty = 0xC → f.src.toNat ≠ b.devId → acc.deliver = false → acc.first ≠ none → f.hops = 0 → rx.ringB = true →
      ∃ t, exec (.linkFrame rx) s = .next t ∧ onlyBody s t ∧ t.body.ring.nbDn = some (f.d1.extractLsb' 32 16).toNat ∧ t.body.ring.status = u.ring.status)

/-! ### Drive, probe, flux and bias outputs -/

/-- Entry of pulse commands (R93 to R96), for each of the rows that carry one. -/
def Obligations.PulseCommandsEnter : Prop :=
  ∀ row ∈ ([.pulse, .forkArm, .const, .setFreq, .setFrame, .shiftFrame, .forkShift, .fluxPulse, .fluxForkArm, .ramp, .setLevel,
      .shiftLevel, .fluxForkShift, .reservedCommand false] : List (Fin 16 → Word → Word → Word → Word → Instr)),
  ∀ (n : Fin 16) (w0 w1 w2 w3 : Word) (q : Nat) (s : State),
    let b := s.body
    let c := s.clock
    let x := b.comp q
    let op := (w1.extractLsb' 32 4).toNat
    let slot := (w1.extractLsb' 24 4).toNat
    let k := (w1.extractLsb' 28 4).toNat
    let now : Int := (c.tt.toNat / 2 ^ 32 : Nat)
    let len := cmdLen (decide (80 ≤ q)) w1 w2
    let room := x.queue.length < 256 ∧ (80 ≤ q ∨ (x.queue.filter (fun p => p.slot == slot)).length < 64)
    let fails := fun (v : Int) => b.firstFail c [q] v w0 w1 w2 w3
    let entered := fun (t : State) => t = { s with body := { b with log := t.body.log, comps := t.body.comps } } ∧
      ∀ p, p ≠ q → t.body.comp p = b.comp p
    (b.sentOn n false w0 w1 w2 w3 = true → exec (row n w0 w1 w2 w3) s = .next s) ∧
    (b.sentOn n false w0 w1 w2 w3 = false →
    ∃ v : Int, now - 2 ^ 35 ≤ v ∧ v < now + 2 ^ 35 ∧ (v - w0.toNat) % 2 ^ 36 = 0 ∧
    (b.targets n (w1.extractLsb' 20 4).toNat = [q] → room →
      (fails v = none → op = 2 ∨ op = 7 → b.waitingArm q slot = none → ∃ t, exec (row n w0 w1 w2 w3) s = .next t ∧ entered t ∧
        t.body.comp q = { x with queue := x.queue ++ [⟨v, k, slot, len, w0, w1, w2, w3, .waiting⟩] }) ∧
      (∀ p, fails v = none → op = 2 ∨ op = 7 → b.waitingArm q slot = some p → ∃ t, exec (row n w0 w1 w2 w3) s = .next t ∧ entered t ∧
        t.body.comp q = { x with hz := (t.body.comp q).hz, queue := swapFirst p (some { p with st := .queued }) x.queue ++
          [⟨v, k, slot, len, w0, w1, w2, w3, .queued⟩] } ∧
        (t.body.comp q).horizon slot = ⟨16 * v + k, if op = 2 then 16 * v + k + 16 * max len p.len else (x.horizon slot).fin⟩) ∧
      (fails v = none → op ≠ 2 → op ≠ 7 → ∃ t, exec (row n w0 w1 w2 w3) s = .next t ∧ entered t ∧
        t.body.comp q = { x with queue := x.queue ++ [⟨v, k, slot, len, w0, w1, w2, w3, .queued⟩], hz := (t.body.comp q).hz } ∧
        (t.body.comp q).horizon slot = ⟨16 * v + k, if op = 1 ∨ op = 3 then 16 * v + k + 16 * len else (x.horizon slot).fin⟩) ∧
      (∀ i, fails v = some i → b.waitingArm q slot = none → ∃ t, exec (row n w0 w1 w2 w3) s = .next t ∧ onlyBody s t ∧
        t.body.comps = b.comps ∧ t.body.rget (portBase q + 0x24) = satInc (b.rget (portBase q + 0x24)) 1 ∧
        t.body.rget (portBase q + 0x20) = satInc (b.rget (portBase q + 0x20)) (if i = 0 then 1 else 0) ∧
        regsBut [portBase q + 4, portBase q + 0x1C, portBase q + 0x20, portBase q + 0x24] s t ∧
        t.body.rbit (portBase q + 0x1C) i = true ∧ t.body.rbit (portBase q + 4) (16 + i) = true) ∧
      (b.anchored = false ∨ op = 0 ∨ 8 ≤ op → fails v = some 5) ∧
      (b.check1 q w1 w2 w3 = true → v < now + 40 → fails v = some 0)) ∧
    (b.targets n (w1.extractLsb' 20 4).toNat = [q] → 256 ≤ x.queue.length → exec (row n w0 w1 w2 w3) s = .next s) ∧
    (b.targets n (w1.extractLsb' 20 4).toNat = [] → ∃ t, exec (row n w0 w1 w2 w3) s = .next t ∧
      t = { s with body := { b with regs := t.body.regs, log := t.body.log, gather := t.body.gather } } ∧
      regsBut [BAD_ISSUE_COUNT n] s t ∧ t.body.rget (BAD_ISSUE_COUNT n) = satInc (b.rget (BAD_ISSUE_COUNT n)) 1))

/-- Firing (R92, R95, R97, R100, R104, R111). -/
def Obligations.QueuedCommandsFire : Prop :=
  ∀ (p : Fin 80) (f : Fin 32) (q : Fin 112) (k : Fin 16) (s : State) (x y : PulseCmd) (rest : List PulseCmd),
    let b := s.body
    let c := s.clock
    let now : Int := (c.tt.toNat / 2 ^ 32 : Nat)
    let ripe := x.ripe = true
    let fired := fun (t : State) (i : Nat) => t.body.comp i = { b.comp i with queue := swapFirst x (some { x with st := .fired }) (b.comp i).queue }
    let th := (b.rget (SLOT_FRAME p x.slot)).extractLsb' 0 18
    (b.unfired p k = x :: rest → ripe → opPulse (opOf x.w1) = false → x.v ≤ now → x.slot < 16 →
      ∃ t, exec (.slotUpdate ⟨p, by omega⟩ k) s = .next t ∧ t = { s with body := { b with regs := t.body.regs, comps := t.body.comps } } ∧
        fired t p ∧ regsBut [SLOT_FREQ_LO p x.slot, SLOT_FREQ_HI p x.slot, SLOT_FRAME p x.slot] s t ∧
        (opOf x.w1 = 5 → t.body.rget (SLOT_FRAME p x.slot) = (x.w3.extractLsb' 0 18).setWidth 32) ∧
        (opOf x.w1 = 6 → t.body.rget (SLOT_FRAME p x.slot) = (th + x.w3.extractLsb' 0 18).setWidth 32) ∧
        (opOf x.w1 = 4 → t.body.slotF p x.slot = (x.w3.extractLsb' 0 16 ++ x.w2).toNat)) ∧
    (b.unfired p k = x :: rest → now < x.v → exec (.slotUpdate ⟨p, by omega⟩ k) s = .next s) ∧
    (b.unfired p k = x :: rest → ripe → opPulse (opOf x.w1) = true → b.fireDue c 16 x.v x.k = true →
      (b.inSlack x.v = false → b.rbit (PORT_STATUS p) 1 = true → x.len = 0 → ∃ t, exec (.pulseStart ⟨p, by omega⟩ k) s = .next t ∧
        t = { s with body := { b with comps := t.body.comps } } ∧ fired t p) ∧
      (b.inSlack x.v = false → b.rbit (PORT_STATUS p) 1 = true → 0 < x.len → b.log.writes = [] → ∃ t e, exec (.pulseStart ⟨p, by omega⟩ k) s = .next t ∧
        t = { s with body := { b with comps := t.body.comps } } ∧ e.slot = x.slot ∧ e.start = c.cyc ∧ e.len = x.len ∧ e.w1 = x.w1 ∧
        e.samp < 16 ∧ fireTide 16 x.v x.k ≤ b.sampleTide c 16 e.samp ∧ (∀ i < e.samp, (b.sampleTide c 16 i : Int) < fireTide 16 x.v x.k) ∧
        e.w2 = x.w2 ∧ e.w3 = x.w3 ∧ t.body.comp p = { b.comp p with queue := swapFirst x (some { x with st := .fired }) (b.comp p).queue, run := (b.comp p).run ++ [e] }) ∧
      (b.inSlack x.v = false → b.rbit (PORT_STATUS p) 1 = false → ∃ t, exec (.pulseStart ⟨p, by omega⟩ k) s = .next t ∧ onlyBody s t ∧
        fired t p ∧ t.body.rbit (SHOT_FLAGS p) 7 = true ∧ regsBut [PORT_STATUS p, SHOT_FLAGS p] s t) ∧
      (b.inSlack x.v = true → ∃ t, exec (.pulseStart ⟨p, by omega⟩ k) s = .next t ∧ onlyBody s t ∧
        t.body.comp p = { b.comp p with queue := swapFirst x none (b.comp p).queue } ∧ t.body.rbit TIDE_STATUS 10 = true ∧
        t.body.rbit (SHOT_FLAGS p) 8 = true)) ∧
    (b.unfired p k = x :: rest → opPulse (opOf x.w1) = true → b.fireDue c 16 x.v x.k = false → exec (.pulseStart ⟨p, by omega⟩ k) s = .next s) ∧
    (b.unfired (80 + f) 0 = x :: rest → ripe → opPulse (opOf x.w1) = false → fireTide 2 x.v x.k ≤ b.sampleTide c 2 0 →
      let val := (x.w3.extractLsb' 18 18).toInt
      let y0 := b.flx f
      let l := if opOf x.w1 = 5 then val else (if y0.at0 then y0.lev0 else y0.lprev) + val
      (-131072 : Int) ≤ l → l ≤ 131071 →
      ∃ t, exec (.levelUpdate f) s = .next t ∧ onlyBody s t ∧ fired t (80 + f) ∧ regsBut [FLX_LEVEL f] s t ∧
        t.body.flx f = { y0 with lev0 := l, lev1 := l, at0 := true, at1 := false, ramp := none } ∧
        t.body.rget (FLX_LEVEL f) = (BitVec.ofInt 18 l).setWidth 32) ∧
    (b.unfired (80 + f) 0 = x :: rest → b.fireDue c 2 x.v x.k = false → exec (.levelUpdate f) s = .next s) ∧
    (b.unfired q k = x :: y :: rest → opFork (opOf x.w1) = true → opFork (opOf y.w1) = true → x.st = .queued → y.st = .queued → x ≠ y →
      x.v ≤ now + 6 → ∃ t, exec (.forkSelect q k) s = .next t ∧ t = { s with body := { b with comps := t.body.comps } } ∧
        t.body.comp q = { b.comp q with queue := swapFirst y (some { y with st := .due }) (swapFirst x (some { x with st := .due }) (b.comp q).queue) }) ∧
    (b.unfired q k = x :: rest → opFork (opOf x.w1) = true → x.st = .waiting → x.v ≤ now + 6 →
      ∃ t, exec (.forkSelect q k) s = .next t ∧ onlyBody s t ∧ t.body.comp q = { b.comp q with queue := swapFirst x none (b.comp q).queue } ∧
        t.body.rbit (portBase q + 0x1C) 4 = true) ∧
    (∀ cond, b.condition (coveOfPort q) (x.w1.getLsbD 17) (x.w1.extractLsb' 0 17).toNat = some cond →
      let u := b.selectPair c q x y
      u = { b with comps := u.comps } ∧ (u.comp q).queue = (if x.w1.getLsbD 19 == cond then
        swapFirst x (some { x with st := .selected }) (swapFirst y none (b.comp q).queue)
        else swapFirst y (some { y with st := .selected }) (swapFirst x none (b.comp q).queue))) ∧
    (b.unfired q k = [] → exec (.forkSelect q k) s = .next s ∧ exec (.pulseStart q k) s = .next s ∧ exec (.slotUpdate q k) s = .next s) ∧
    (∃ t, exec (.commandRetire q) s = .next t ∧ t = { s with body := { b with comps := t.body.comps } } ∧
      t.body.comp q = { b.comp q with queue := (b.comp q).queue.filter (fun z => ! (decide (z.st = .fired) && decide (z.v + z.len ≤ now))) } ∧
      ∀ i, i ≠ q.val → t.body.comp i = b.comp i)

/-- R10, R87, R89, R118. -/
def Obligations.CarrierAndCoefficients : Prop :=
  ∀ (p : Fin 80) (f : Fin 32) (v : Reg32) (s : State),
    let b := s.body
    let lo := (b.staged.get none (CARRIER_LO p)).getD (b.rget (CARRIER_LO p))
    let hi := v &&& 0xFFFFF
    let new := lo.toNat + 2 ^ 32 * hi.toNat
    let slots := if p.val < 64 then 4 else 16
    let band := if b.rbit (PORT_CTL p) 1 then 85 * 2 ^ 48 ≤ 10 * new ∧ 10 * new ≤ 120 * 2 ^ 48 else 2 ^ 48 ≤ 10 * new ∧ 10 * new ≤ 75 * 2 ^ 48
    let old := (b.rget (CARRIER_LO p)).toNat + 2 ^ 32 * (b.rget (CARRIER_HI p)).toNat
    (band → new = old → ∃ t, exec (.carrierHiWrite p v) s = .next t ∧
      t = { s with body := { b with regs := t.body.regs, staged := t.body.staged } } ∧ regsBut [] s t ∧ t.body.staged.get none (CARRIER_LO p) = none) ∧
    (b.portIdle s.clock p = true → band → new ≠ old → ∃ t, exec (.carrierHiWrite p v) s = .next t ∧
      t = { s with body := { b with regs := t.body.regs, staged := t.body.staged } } ∧
      t.body.rget (CARRIER_LO p) = lo ∧ t.body.rget (CARRIER_HI p) = hi ∧
      (∀ k : Nat, k < slots → t.body.rget (SLOT_FREQ_LO p k) = lo ∧ t.body.rget (SLOT_FREQ_HI p k) = hi ∧ t.body.rget (SLOT_FRAME p k) = 0) ∧
      regsBut ([CARRIER_LO p, CARRIER_HI p] ++ (List.range slots).map (SLOT_FREQ_LO p) ++ (List.range slots).map (SLOT_FREQ_HI p) ++
        (List.range slots).map (SLOT_FRAME p)) s t) ∧
    (¬ band ∨ (b.portIdle s.clock p = false ∧ new ≠ old) → ∃ t, exec (.carrierHiWrite p v) s = .next t ∧ t = { s with body := { b with regs := t.body.regs, staged := t.body.staged, log := t.body.log } } ∧
      regsBut [PORT_STATUS p] s t ∧ t.body.rget (PORT_STATUS p) = b.rget (PORT_STATUS p) ||| 0x100 ∧
      t.body.staged.get none (CARRIER_LO p) = none) ∧
    (v = 0x200 → b.rbit (FLX_CTL f) 0 = false → b.core (.fx f) = ⟨none, false⟩ →
      sets (.coefCommit f v) s [(FLX_STATUS f, b.rget (FLX_STATUS f) ||| 8)])

/-- Bias outputs (R123 to R130). -/
def Obligations.BiasOutputs : Prop :=
  ∀ (n : Fin 16) (v : Reg32) (volt : BitVec 16) (amp : BitVec 24) (s : State),
    let b := s.body
    let c := s.clock
    let x := b.biasOf n
    let st := b.rget (BIAS_STATUS n)
    let code := (v.extractLsb' 0 24).toNat
    let here := fun (t : State) => t = { s with body := { b with regs := t.body.regs, log := t.body.log, bias := t.body.bias } }
    (st.getLsbD 11 = false → b.calOn 4 n = false → ∃ t, exec (.biasCodeWrite n v) s = .next t ∧ here t ∧
      regsBut [BIAS_CODE n, BIAS_STATUS n] s t ∧ t.body.rget (BIAS_CODE n) = v &&& 0xFFFFFF ∧
      (b.gridRun = true → t.body.biasOf n = { x with stCode := some code } ∧ t.body.rbit (BIAS_STATUS n) 5 = true) ∧
      (b.gridRun = false → (t.body.biasOf n).apCode = some code ∧ (t.body.biasOf n).stCode = none ∧ t.body.rbit (BIAS_STATUS n) 5 = false)) ∧
    (st.getLsbD 11 = true → refusedAt (.biasCodeWrite n v) s (BIAS_STATUS n)) ∧
    (v.extractLsb' 1 2 = (b.rget (BIAS_CTL n)).extractLsb' 1 2 → v.extractLsb' 1 2 ≠ 3 → b.tileHeld (n / 4) = false → b.fwReady = true →
      b.calOn 4 n = false → v.getLsbD 0 ≠ b.rbit (BIAS_CTL n) 0 → b.gridRun = true →
      ∃ t, exec (.biasEn n v) s = .next t ∧ here t ∧ t.body.rget (BIAS_CTL n) = v &&& 0xF ∧
        t.body.biasOf n = { x with stEn := some (v.getLsbD 0) } ∧ regsBut [BIAS_CTL n, BIAS_STATUS n] s t) ∧
    (c.phase.toNat % 65536 = 0 → x.begun ≠ some c.cyc → x.mode = .on → x.apEn = none → x.zero = false → x.apRange = none →
      x.rangeFrom = none → st.getLsbD 11 = false → ∀ w : Nat, w < 2 ^ 24 → x.apCode = some w →
      ∃ t, exec (.pwmFrame n) s = .next t ∧ here t ∧ t.body.biasCode n = w ∧ (t.body.biasOf n).frame = x.frame + 1) ∧
    (c.phase.toNat % 65536 ≠ 0 → exec (.pwmFrame n) s = .next s) ∧
    (x.modeFrame ≤ x.frame → x.mode = .stopping → ∃ t, exec (.biasStateEnd n) s = .next t ∧ here t ∧ (t.body.biasOf n).mode = .safe ∧
      t.body.rget (BIAS_CODE_ACT n) = 0 ∧ regsBut [BIAS_CODE_ACT n, BIAS_STATUS n] s t) ∧
    (x.modeFrame ≤ x.frame → x.mode = .starting → ∃ t, exec (.biasStateEnd n) s = .next t ∧ here t ∧ (t.body.biasOf n).mode = .on ∧
      t.body.rbit (BIAS_STATUS n) 0 = true) ∧
    (x.frame < x.modeFrame ∨ x.mode = .safe ∨ x.mode = .on → exec (.biasStateEnd n) s = .next s) ∧
    (∀ m, x.holdUntil = some m → m ≤ x.frame → b.calOn 4 n = false → ∃ t, exec (.dgHoldEnd n) s = .next t ∧ here t ∧
      t.body.biasOf n = { x with holdUntil := none } ∧ t.body.rbit (BIAS_STATUS n) 2 = false ∧ regsBut [BIAS_STATUS n] s t) ∧
    (x.holdUntil = none → exec (.dgHoldEnd n) s = .next s) ∧
    (∀ m, x.rangeFrom = some m → x.frame = m + 31 → x.newRange < 4 → ∃ t, exec (.rangeChange n) s = .next t ∧ here t ∧
      t.body.rfld (BIAS_STATUS n) 6 2 = x.newRange ∧ t.body.rbit (BIAS_STATUS n) 2 = true ∧
      t.body.biasOf n = { x with holdUntil := some (m + 62) } ∧ regsBut [BIAS_STATUS n] s t) ∧
    (x.rangeFrom = none → x.apRange = none → exec (.rangeChange n) s = .next s) ∧
    (∃ t, exec (.biasSense n volt amp) s = .next t ∧ onlyBody s t ∧ t.body.rget (SENSE_V n) = volt.setWidth 32 ∧
      t.body.rget (SENSE_I n) = amp.setWidth 32 ∧
      (10 * volt.toInt.natAbs < 39 * 8192 → (t.body.biasOf n).overs = 0 ∧ t.body.rbit (BIAS_STATUS n) 3 = false) ∧
      (39 * 8192 ≤ 10 * volt.toInt.natAbs → 2 ≤ x.overs → t.body.rbit (BIAS_STATUS n) 3 = true))

/-! ### Read-out receivers and the Decision Fabric -/

/-- Entry of window commands (R142 to R144), for each of the rows that carry one. -/
def Obligations.WindowCommandsEnter : Prop :=
  ∀ row ∈ ([.measure, .windowSetFreq, .windowSetFrame, .windowShiftFrame, .reservedCommand true] :
    List (Fin 16 → Word → Word → Word → Word → Instr)),
  ∀ (n : Fin 16) (w0 w1 w2 w3 : Word) (s : State),
    let b := s.body
    let c := s.clock
    let r := b.recv n
    let op := (w1.extractLsb' 32 4).toNat
    let k := (w1.extractLsb' 28 4).toNat
    let now : Int := (c.tt.toNat / 2 ^ 32 : Nat)
    (b.sentOn n true w0 w1 w2 w3 = true → exec (row n w0 w1 w2 w3) s = .next s) ∧
    (b.sentOn n true w0 w1 w2 w3 = false →
    ∃ v : Int, now - 2 ^ 35 ≤ v ∧ v < now + 2 ^ 35 ∧ (v - w0.toNat) % 2 ^ 36 = 0 ∧
    (64 ≤ r.fill → exec (row n w0 w1 w2 w3) s = .next s) ∧
    (r.fill < 64 → b.winFail c n v w1 w2 w3 = none → ∃ t, exec (row n w0 w1 w2 w3) s = .next t ∧
      t = { s with body := { b with log := t.body.log, rcv := t.body.rcv } } ∧
      (∀ m, m ≠ n.val → t.body.recv m = b.recv m) ∧
      t.body.recv n = { r with queue := r.queue ++ [⟨v, k, w1, w2, w3⟩], hz := (t.body.recv n).hz } ∧
      ∀ d : Nat, d < 16 → (t.body.recv n).horizon d = if w1.getLsbD (12 + d) then
        ⟨16 * v + k, if op = 1 then 16 * v + k + 32 * ((w2.extractLsb' 0 11).toNat + 1) else (r.horizon d).fin⟩ else r.horizon d) ∧
    (∀ i, r.fill < 64 → b.winFail c n v w1 w2 w3 = some i → ∃ t, exec (row n w0 w1 w2 w3) s = .next t ∧ onlyBody s t ∧ t.body.rcv = b.rcv ∧
      t.body.rget (RCV_DISCARD_COUNT n) = satInc (b.rget (RCV_DISCARD_COUNT n)) 1 ∧
      t.body.rget (RCV_LATE_COUNT n) = satInc (b.rget (RCV_LATE_COUNT n)) (if i = 0 then 1 else 0) ∧
      t.body.rbit (RCV_SHOT_FLAGS n) i = true ∧ t.body.rbit (RCV_STATUS n) (16 + i) = true ∧
      regsBut [RCV_DISCARD_COUNT n, RCV_LATE_COUNT n, RCV_SHOT_FLAGS n, RCV_STATUS n] s t) ∧
    (b.anchored = false ∨ op = 0 ∨ op = 2 ∨ op = 3 ∨ 7 ≤ op ∨ w1.extractLsb' 12 16 = 0 → b.winFail c n v w1 w2 w3 = some 1) ∧
    (b.winCheck1 n w1 w2 w3 = true → v < now + 40 → b.winFail c n v w1 w2 w3 = some 0))

/-- Windows (R135, R140, R141, R145, R147 to R152) and averaging (R155). -/
def Obligations.WindowsOpenAndClose : Prop :=
  ∀ (n : Fin 16) (v : Reg32) (s : State) (x : WinCmd) (w : Window),
    let b := s.body
    let c := s.clock
    let r := b.recv n
    let ctl := b.rget (RCV_CTL n)
    let here := fun (t : State) => t = { s with body := { b with regs := t.body.regs, log := t.body.log, rcv := t.body.rcv, gather := t.body.gather } }
    let j := b.pinSample c n x
    let len := (x.w2.extractLsb' 0 11).toNat + 1
    let alone := fun (d : Nat) => x.w1.extractLsb' 12 16 = BitVec.ofNat 16 (2 ^ d)
    (r.queue = [x] → opOf x.w1 = 1 → b.winDue c n x = true → ∃ t y, exec (.windowOpen n) s = .next t ∧ here t ∧
      (t.body.recv n).queue = [] ∧ (t.body.recv n).wins = r.wins ++ [y] ∧ y.cmd = x ∧ y.start = c.cyc ∧ y.samp = j ∧
      y.fin = c.cyc + (j + 16 * len - 1) / 8 ∧ y.epoch = b.epoch ∧ y.ovr = false ∧ y.race = 0 ∧
      (b.inSlack (b.pinTide c j) = false → b.rbit (RCV_STATUS n) 1 = true → y.isOpen = true ∧ y.stale = b.rbit (RCV_STATUS n) 3 ∧ t.body.regs = b.regs) ∧
      (b.inSlack (b.pinTide c j) = false → b.rbit (RCV_STATUS n) 1 = false → y.isOpen = false ∧ y.stale = true ∧
        t.body.rbit (RCV_SHOT_FLAGS n) 6 = true ∧ regsBut [RCV_SHOT_FLAGS n, RCV_STATUS n] s t) ∧
      (b.inSlack (b.pinTide c j) = true → y.isOpen = false ∧ y.stale = true ∧ y.entry = false ∧ t.body.rbit TIDE_STATUS 10 = true ∧
        t.body.rbit (RCV_SHOT_FLAGS n) 7 = true)) ∧
    (r.queue = [] → exec (.windowOpen n) s = .next { s with body := b.setRecv n r }) ∧
    (r.queue = [] → r.upds = [] → exec (.demodUpdate n) s = .next { s with body := b.setRecv n r }) ∧
    (∀ d : Fin 16, r.queue = [x] → r.upds = [] → opOf x.w1 ≠ 1 → b.winDue c n x = true → alone d → b.rbit (TONE_CFG n d) 0 = false →
      ∃ t, exec (.demodUpdate n) s = .next t ∧ here t ∧ (t.body.recv n).queue = [] ∧ (t.body.recv n).upds = [] ∧
        regsBut [TONE_FRAME n d, TONE_FREQ_LO n d, TONE_FREQ_HI n d] s t ∧
        (opOf x.w1 = 4 → t.body.freq (TONE_FREQ_LO n d) (TONE_FREQ_HI n d) = (x.w3.extractLsb' 0 16 ++ x.w2).toNat) ∧
        (opOf x.w1 = 5 → t.body.rget (TONE_FRAME n d) = (x.w3.extractLsb' 0 18).setWidth 32) ∧
        (opOf x.w1 = 6 → t.body.rget (TONE_FRAME n d) =
          ((b.rget (TONE_FRAME n d)).extractLsb' 0 18 + x.w3.extractLsb' 0 18).setWidth 32)) ∧
    (r.queue = [x] → r.upds = [] → opOf x.w1 ≠ 1 → b.winFired c x = true → b.winDue c n x = false →
      exec (.demodUpdate n) s = .next { s with body := b.setRecv n { r with queue := [], upds := [x] } }) ∧
    (∀ (fin : Nat) (m : BitVec 16), c.cyc < fin + 53 ∨ (∀ y ∈ r.wins, y.fin ≠ fin) → exec (.windowClose n fin m) s = .next s) ∧
    (r.wins = [w] → w.fin + 53 ≤ c.cyc → w.stale = true → w.cmd.w3.extractLsb' 28 8 = 0 → r.avg = .empty →
      ∃ t, exec (.windowClose n w.fin (w.cmd.w1.extractLsb' 12 16)) s = .next t ∧ here t ∧ (t.body.recv n) = { r with wins := [] } ∧
        t.body.rbit (RCV_SHOT_FLAGS n) 8 = true ∧ regsBut [RCV_SHOT_FLAGS n, RCV_STATUS n] s t) ∧
    (∀ d : Fin 16, r.wins = [w] → w.fin + 53 ≤ c.cyc → w.stale = false → w.cmd.w3.extractLsb' 28 8 = 0 → r.avg = .empty →
      w.cmd.w1.extractLsb' 12 16 = BitVec.ofNat 16 (2 ^ d.val) → b.rbit (TONE_CFG n d) 1 = false →
      let u : State := { s with body := b.setRecv n { r with wins := [] } }
      let a := accumulate n d w 0 (r.samples n w d) (0, 0, u)
      let sh := 17 + ((b.rget (TONE_CFG n d)).extractLsb' 4 4).toNat
      let i := max (-131072) (min 131071 (roundEven a.1 (2 ^ sh)))
      let q := max (-131072) (min 131071 (roundEven a.2.1 (2 ^ sh)))
      ∃ t, exec (.windowClose n w.fin (w.cmd.w1.extractLsb' 12 16)) s = .next t ∧ (t.body.recv n).wins = [] ∧ t.body.rget (TONE_LAST_I n d) = (BitVec.ofInt 18 i).setWidth 32 ∧
        t.body.rget (TONE_LAST_Q n d) = (BitVec.ofInt 18 q).setWidth 32 ∧
        t.body.rget (TONE_LAST_OUT n d) = BitVec.ofNat 32 ((b.linear n d i q).2 * 4 + (b.linear n d i q).1)) ∧
    (v &&& 0xF01FE = ctl &&& 0xF01FE → v.getLsbD 0 = false → ctl.getLsbD 0 = false → r.core = ⟨none, false⟩ → v.getLsbD 9 = false →
      v.getLsbD 10 = true → ∃ t, exec (.avgClr n v) s = .next t ∧ here t ∧ t.body.recv n = { r with avg := .empty } ∧
        regsBut [RCV_CTL n] s t ∧ t.body.rget (RCV_CTL n) = v &&& 0xF01FE) ∧
    (let m := v &&& 0x1FFFF
     (m = b.rget (AVG_N n) → exec (.avgNWrite n v) s = .next s) ∧
     (b.rcvIdle c n = true → m ≠ b.rget (AVG_N n) → m ≠ 0 → m.toNat ≤ 65536 → ∃ t, exec (.avgNWrite n v) s = .next t ∧ here t ∧
       t.body.recv n = { r with avg := .empty } ∧ t.body.rget (AVG_N n) = m ∧ regsBut [AVG_N n] s t) ∧
     (m ≠ b.rget (AVG_N n) → b.rcvIdle c n = false ∨ m = 0 ∨ 65536 < m.toNat → refusedAt (.avgNWrite n v) s (RCV_STATUS n)))

/-- The fabric's paths and tables (R163, R164, R169 to R173). -/
def Obligations.FabricPathAndTables : Prop :=
  ∀ (n : Fin 16) (i : Fin 8) (v : Reg32) (s : State) (l : Lookup) (w : Word),
    let b := s.body
    let c := s.clock
    let x := b.table i
    let due := b.fab.buffer.take 32
    let base := (v.extractLsb' 6 20).toNat
    let width := (v.extractLsb' 1 5).toNat
    let cfgOk := 1 ≤ width ∧ width ≤ 20 ∧ base % 2 ^ width = 0 ∧ b.rbit (DT_CFG i) 0 = false
    (b.log.merged = false → b.fab.buffer ≠ [] → ∃ t, exec .mergePass s = .next t ∧
      t = { s with body := { b with regs := t.body.regs, log := t.body.log, fab := t.body.fab } } ∧
      t.body.fab.buffer = b.fab.buffer.drop 32 ∧ t.body.log.merged = true ∧
      t.body.fab.flight = b.fab.flight ++ due.map (fun (u : SlotUpd) => { u with due := c.cyc + 2 }) ∧
      t.body.fab.store = b.fab.store ∧ regsBut [PUB_COUNT] s t ∧ t.body.rget PUB_COUNT = satInc (b.rget PUB_COUNT) due.length) ∧
    (b.log.merged = true ∨ b.fab.buffer = [] → exec .mergePass s = .next s) ∧
    (x.en = true → x.trig = true → b.tableComplete i = true → ∃ t m, exec (.tableLookup i) s = .next t ∧
      t = { s with body := { b with regs := t.body.regs, log := t.body.log, fab := t.body.fab } } ∧ m.start = c.cyc ∧
      m.idx = b.tableIndex i ∧ m.epoch = b.epoch ∧ m.word = none ∧ t.body.table i = { x with trig := false, flight := some m } ∧
      regsBut [DT_LOOKUP_COUNT i] s t ∧ t.body.rget (DT_LOOKUP_COUNT i) = satInc (b.rget (DT_LOOKUP_COUNT i)) 1) ∧
    (x.en = false ∨ b.tableComplete i = false → exec (.tableLookup i) s = .next s) ∧
    (x.flight = some l → l.word = some (some w) → l.start + 5 ≤ c.cyc → ∃ t, exec (.tableResultLand i) s = .next t ∧
      t = { s with body := { b with fab := t.body.fab } } ∧
      t.body.table i = { x with flight := none, result := some (w, l.epoch, l.stamp), last := w, lastEpoch := l.epoch } ∧
      (x.en = true → l.epoch = b.epoch → t.body.tableResult i = some w)) ∧
    (x.flight = none ∨ c.cyc < l.start + 5 ∧ x.flight = some l → exec (.tableResultLand i) s = .next s) ∧
    (cfgOk → b.gridRun = false → ∃ t, exec (.tableEn i v) s = .next t ∧ t = { s with body := { b with regs := t.body.regs, fab := t.body.fab } } ∧
      regsBut [DT_CFG i] s t ∧ t.body.rget (DT_CFG i) = v &&& 0x03FFFFFF ∧ (t.body.table i).en = v.getLsbD 0 ∧
      (v.getLsbD 0 = false → t.body.tableResult i = none)) ∧
    (cfgOk → b.gridRun = true → ∃ t, exec (.tableEn i v) s = .next t ∧ t.body.table i = { x with enNext := some (v.getLsbD 0) }) ∧
    (width = 0 ∨ 20 < width ∨ base % 2 ^ width ≠ 0 → refusedAt (.tableEn i v) s DEC_STATUS) ∧
    (∀ y rest, (b.recv n).resq = y :: rest →
      let o := b.fifo n y.fifo
      (b.canTake n y.fifo none = true → n.val ∉ b.log.granted → (∀ e : Nat, e < 12 → b.fifoStall n e = none) → b.mayResult c n = true) ∧
      (b.canTake n y.fifo none = false ∨ n.val ∈ b.log.granted → b.mayResult c n = false) ∧
      (b.mayResult c n = true → ∃ t, exec (.resultWord n) s = .next t ∧ onlyBody s t ∧ (t.body.recv n).resq = rest ∧ n.val ∈ t.body.log.granted ∧
        (y.last = false → o.open_ = none → none ∉ o.drops → 1 ≤ b.depth n y.fifo →
          t.body.fifo n y.fifo = { o with open_ := some ⟨none, [(y.word, y.stale)]⟩ } ∧ regsBut [] s t)) ∧
      (b.mayResult c n = false → exec (.resultWord n) s = .next s)) ∧
    ((b.recv n).resq = [] → exec (.resultWord n) s = .next s)

/-! ### Yosum engines: instructions -/

/-- When an engine executes, and the faults of fetch and dispatch (R181, R183, R186, R198, R240, R244). -/
def Obligations.EnginesFetchAndDispatch : Prop :=
  (∀ (i : Instr) (e : Fin 192) (s : State), yosumEngine i = some e →
    let n := e.val / 12
    (s.body.mayIssue e = false → exec i s = .next s) ∧
    (s.body.runs e = false → (∀ f, i ≠ .halt e f) → exec i s = .next s) ∧
    (s.body.patched n (opcodeOf i) = true → s.body.opDefined n (opcodeOf i) = true → exec i s = .next s)) ∧
  (∀ (i : Instr) (g : Fin 192) (s : State), s.body.runs g = true → s.body.patched (g.val / 12) (opcodeOf i) = false →
    let x := s.eng g
    let pc := x.pc.toNat
    let d := fetchAddr g pc
    let k := storeKey (g.val / 12) (s.body.phys g % 12 / 2) true (opcodeOf i)
    let shared := 0x100000 ≤ pc ∧ pc ≤ 0x1FFFFF
    let clean := fun (a : Nat) => 0x100000 ≤ a → a ≤ 0x1FFFFF → s.mem.errAt (fetchAddr g a) = 0
    let stored := s.mem.errAt k = 0 ∧ s.storeBad g = false
    (shared → (∀ a, clean a) → (∀ w ∈ x.fbuf, w.2 = false) → stored → ∃ u, issues i g s u ∧
      u = { s with body := { s.body with regs := u.body.regs, engs := u.body.engs } } ∧ regsBut [ENG_STATUS g] s u ∧
      (x.stall = none → u.body.regs = s.body.regs) ∧ u.eng g = { x with fbuf := (u.eng g).fbuf } ∧ (u.eng g).fbuf.head? = some (pc, false) ∧
      ∀ h : Fin 192, s.body.phys h ≠ s.body.phys g → u.eng h = s.eng h) ∧
    (¬ shared → x.stall = none → fetched s g (opcodeOf i) = (s, some 1)) ∧
    (shared → x.fbuf = [] → s.mem.errAt d = 2 → (fetched s g (opcodeOf i)).2 = some 2) ∧
    (shared → x.fbuf = [] → s.mem.errAt d = 1 → (∀ a, fetchAddr g a ≠ d → clean a) → stored → d ≠ k →
      ∃ u, issues i g s u ∧ u.mem.errAt d = 0 ∧ u.mem.onDie = s.mem.onDie))

/-- The opcode map's arithmetic on general registers (R210) with its flags (R213): the whole next state. `u` is the state after fetch. -/
def Obligations.RegisterArithmetic : Prop :=
  ∀ (e : Fin 192) (f : BitVec 28) (s u : State),
    let x := u.eng e
    let a := x.reg (opRa f)
    let b := x.reg (opRb f)
    let c := x.flags.getLsbD 2
    let v := x.flags.getLsbD 3
    let put := fun (r : Word) (c v sat : Bool) => (Host.Outcome.next (wrote u e (opRd f) r c v sat) : Host.Outcome State Fault Refusal)
    let sh := b.toNat % 64
    let ish := (opImm f).toNat % 64
    let ci := satSum (a.extractLsb' 18 18) (b.extractLsb' 18 18)
    let cq := satSum (a.extractLsb' 0 18) (b.extractLsb' 0 18)
    let cl := sumClamps (a.extractLsb' 18 18) (b.extractLsb' 18 18) || sumClamps (a.extractLsb' 0 18) (b.extractLsb' 0 18)
    (issues (.add e f) e s u → exec (.add e f) s = put (a + b) (decide (2 ^ 36 ≤ a.toNat + b.toNat)) (addOvf a b) false) ∧
    (issues (.sub e f) e s u → exec (.sub e f) s = put (a - b) (b.ule a) (subOvf a b) false) ∧
    (issues (.and e f) e s u → exec (.and e f) s = put (a &&& b) false false false) ∧
    (issues (.or e f) e s u → exec (.or e f) s = put (a ||| b) false false false) ∧
    (issues (.xor e f) e s u → exec (.xor e f) s = put (a ^^^ b) false false false) ∧
    (issues (.shl e f) e s u → exec (.shl e f) s = put (if sh < 36 then a <<< sh else 0) c v false) ∧
    (issues (.shr e f) e s u → exec (.shr e f) s = put (if sh < 36 then a >>> sh else 0) c v false) ∧
    (issues (.sra e f) e s u →
      exec (.sra e f) s = put (if sh < 36 then a.sshiftRight sh else if a.msb then BitVec.allOnes 36 else 0) c v false) ∧
    (issues (.min e f) e s u → exec (.min e f) s = put (if b.slt a then b else a) c v false) ∧
    (issues (.max e f) e s u → exec (.max e f) s = put (if a.slt b then b else a) c v false) ∧
    (issues (.adds e f) e s u → exec (.adds e f) s = put (satSum a b) c (sumClamps a b) (sumClamps a b)) ∧
    (issues (.cadd e f) e s u → exec (.cadd e f) s = put (ci ++ cq) c cl cl) ∧
    (issues (.addi e f) e s u → exec (.addi e f) s =
      put (a + immSigned f) (decide (2 ^ 36 ≤ a.toNat + (immSigned f).toNat)) (addOvf a (immSigned f)) false) ∧
    (issues (.andi e f) e s u → exec (.andi e f) s = put (a &&& immPlain f) false false false) ∧
    (issues (.ori e f) e s u → exec (.ori e f) s = put (a ||| immPlain f) false false false) ∧
    (issues (.xori e f) e s u → exec (.xori e f) s = put (a ^^^ immPlain f) false false false) ∧
    (issues (.shli e f) e s u → exec (.shli e f) s = put (if ish < 36 then a <<< ish else 0) c v false) ∧
    (issues (.shri e f) e s u → exec (.shri e f) s = put (if ish < 36 then a >>> ish else 0) c v false) ∧
    (issues (.srai e f) e s u →
      exec (.srai e f) s = put (if ish < 36 then a.sshiftRight ish else if a.msb then BitVec.allOnes 36 else 0) c v false)

/-- Compares, fields (R210, R213) and special registers (R180, R217). -/
def Obligations.ComparesFieldsAndSpecialRegisters : Prop :=
  (∀ (e : Fin 192) (f : BitVec 28) (s u : State),
    let x := u.eng e
    let a := x.reg (opRa f)
    let b := x.reg (opRb f)
    let d := x.reg (opRd f)
    let c := x.flags.getLsbD 2
    let v := x.flags.getLsbD 3
    let p := (f.extractLsb' 6 6).toNat
    let w := (f.extractLsb' 0 6).toNat + 1
    let sx := f.getLsbD 12
    let src := fun j => if j < 36 then a.getLsbD j else sx && a.msb
    (issues (.nop e f) e s u → exec (.nop e f) s = .next (ended u e x)) ∧
    (issues (.cmp e f) e s u → exec (.cmp e f) s = .next (tested u e (a - b) (b.ule a) (subOvf a b))) ∧
    (issues (.cmpi e f) e s u →
      exec (.cmpi e f) s = .next (tested u e (a - immSigned f) ((immSigned f).ule a) (subOvf a (immSigned f)))) ∧
    (issues (.tst e f) e s u → exec (.tst e f) s = .next (tested u e (a &&& b) c v)) ∧
    (issues (.tsti e f) e s u → exec (.tsti e f) s = .next (tested u e (a &&& immPlain f) c v)) ∧
    (issues (.ext e f) e s u → ∃ r : Word, exec (.ext e f) s = .next (wrote u e (opRd f) r c v false) ∧
      ∀ i : Nat, i < 36 → r.getLsbD i = if i < w then src (p + i) else sx && src (p + w - 1)) ∧
    (issues (.ins e f) e s u → ∃ r : Word, exec (.ins e f) s = .next (wrote u e (opRd f) r c v false) ∧
      ∀ i : Nat, i < 36 → r.getLsbD i = if p ≤ i ∧ i < p + w then a.getLsbD (i - p) else d.getLsbD i) ∧
    (issues (.li e f) e s u → exec (.li e f) s = .next (ended u e (x.setReg (opRd f) ((f.extractLsb' 0 23).signExtend 36)))) ∧
    (issues (.lih e f) e s u → exec (.lih e f) s = .next (ended u e (x.setReg (opRd f) (opImm f ++ d.extractLsb' 0 18))))) ∧
  (∀ (e : Fin 192) (f : BitVec 28) (s u : State),
    let x := u.eng e
    let a := x.reg (opRa f)
    let k := (f.extractLsb' 0 4).toNat
    (issues (.movs e f) e s u → ∀ w : Word,
      ((k = 0 ∧ w.toNat = e.val + 2 ^ 8 * (e.val / 12) + 2 ^ 12 * u.body.devId) ∨ (k = 1 ∧ w.toNat = u.body.epoch) ∨
        (k = 2 ∧ w = u.clock.tt.extractLsb' 32 36) ∨ (k = 3 ∧ w = u.clock.phase.extractLsb' 0 36) ∨
        (k = 4 ∧ w = ((u.body.rget (COVE_SHOT_FLAGS (e.val / 12))).extractLsb' 0 25).setWidth 36) ∨
        (k = 5 ∧ x.bexp ≤ 35 ∧ w.toNat = x.bexp) ∨ (k = 6 ∧ w = x.flags.setWidth 36)) →
      exec (.movs e f) s = .next (ended u e (x.setReg (opRd f) w))) ∧
    (issues (.movs e f) e s u → 7 ≤ k → exec (.movs e f) s = .next (engStop u e 0x11)) ∧
    (issues (.movsw e f) e s u → k ≤ 4 → exec (.movsw e f) s = .next (ended u e x)) ∧
    (issues (.movsw e f) e s u → k = 5 →
      exec (.movsw e f) s = .next (ended u e { x with bexp := if a.toNat ≤ 35 then a.toNat else 35 })) ∧
    (issues (.movsw e f) e s u → k = 6 → exec (.movsw e f) s = .next (ended u e { x with flags := a.extractLsb' 0 6 })) ∧
    (issues (.movsw e f) e s u → 7 ≤ k → exec (.movsw e f) s = .next (engStop u e 0x11)))

/-- Accumulators (R189, R190, R192, R210): the whole next state. -/
def Obligations.AccumulatorInstructions : Prop :=
  ∀ (e : Fin 192) (f : BitVec 28) (s u : State),
    let x := u.eng e
    let a := x.reg (opRa f)
    let b := x.reg (opRb f)
    let k := opAcc f
    let p := a.toInt * b.toInt
    let aI := (a.extractLsb' 18 18).toInt
    let aQ := (a.extractLsb' 0 18).toInt
    let bI := (b.extractLsb' 18 18).toInt
    let bQ := (b.extractLsb' 0 18).toInt
    let pair := fun (i q : Int) => ended u e (accumulated (accumulated x k (x.accOf k + i)) (k + 1) (x.accOf (k + 1) + q))
    let A := x.acc.get 0 k
    let full : BitVec 80 := (if a.msb then BitVec.allOnes 8 else 0) ++ (a ++ b)
    let high : BitVec 80 := a.extractLsb' 0 8 ++ A.extractLsb' 0 72
    (issues (.mac e f) e s u → exec (.mac e f) s = .next (ended u e (accumulated x k (x.accOf k + p)))) ∧
    (issues (.msu e f) e s u → exec (.msu e f) s = .next (ended u e (accumulated x k (x.accOf k - p)))) ∧
    (issues (.cmac e f) e s u → k % 2 = 0 → exec (.cmac e f) s = .next (pair (aI * bI - aQ * bQ) (aI * bQ + aQ * bI))) ∧
    (issues (.cmacj e f) e s u → k % 2 = 0 → exec (.cmacj e f) s = .next (pair (aI * bI + aQ * bQ) (aQ * bI - aI * bQ))) ∧
    (issues (.cmsu e f) e s u → k % 2 = 0 →
      exec (.cmsu e f) s = .next (pair (- (aI * bI - aQ * bQ)) (- (aI * bQ + aQ * bI)))) ∧
    (issues (.cmsuj e f) e s u → k % 2 = 0 →
      exec (.cmsuj e f) s = .next (pair (- (aI * bI + aQ * bQ)) (- (aQ * bI - aI * bQ)))) ∧
    (k % 2 = 1 → (issues (.cmac e f) e s u → exec (.cmac e f) s = .next (engStop u e 0x11)) ∧
      (issues (.cmacj e f) e s u → exec (.cmacj e f) s = .next (engStop u e 0x11)) ∧
      (issues (.cmsu e f) e s u → exec (.cmsu e f) s = .next (engStop u e 0x11)) ∧
      (issues (.cmsuj e f) e s u → exec (.cmsuj e f) s = .next (engStop u e 0x11))) ∧
    (issues (.clra e f) e s u → ∃ y : Engine, exec (.clra e f) s = .next (ended u e y) ∧ y = { x with acc := y.acc } ∧
      ∀ j, y.acc.get 0 j = if j < 4 ∧ f.getLsbD j then 0 else x.acc.get 0 j) ∧
    (issues (.rda e f) e s u → f.extractLsb' 0 2 = 0 → exec (.rda e f) s = .next (ended u e (x.setReg (opRd f) (A.extractLsb' 0 36)))) ∧
    (issues (.rda e f) e s u → f.extractLsb' 0 2 = 1 → exec (.rda e f) s = .next (ended u e (x.setReg (opRd f) (A.extractLsb' 36 36)))) ∧
    (issues (.rda e f) e s u → f.extractLsb' 0 2 = 2 →
      exec (.rda e f) s = .next (ended u e (x.setReg (opRd f) ((A.extractLsb' 72 8).signExtend 36)))) ∧
    (issues (.rda e f) e s u → f.extractLsb' 0 2 = 3 → exec (.rda e f) s = .next (engStop u e 0x11)) ∧
    (issues (.wra e f) e s u → exec (.wra e f) s = .next (ended u e { x with acc := x.acc.put 0 k full })) ∧
    (issues (.wrah e f) e s u → exec (.wrah e f) s = .next (ended u e { x with acc := x.acc.put 0 k high }))

/-- Narrowing (R191, R193, R218): the rounded value q is within half a unit of ACC / 2^s, a tie is even, and the word is q clamped. -/
def Obligations.NarrowingInstructions : Prop :=
  ∀ (e : Fin 192) (f : BitVec 28) (s u : State),
    let x := u.eng e
    let k := opAcc f
    let n := (f.extractLsb' 0 6).toNat
    let rnd := fun (v q : Int) => 2 * (v - q * 2 ^ n).natAbs ≤ 2 ^ n ∧ (2 * (v - q * 2 ^ n).natAbs = 2 ^ n → q % 2 = 0)
    let sat := fun (w : Nat) (q : Int) => max (-2 ^ (w - 1)) (min (2 ^ (w - 1) - 1) q)
    let fl := fun (cl : Bool) => flagBits (x.flags.getLsbD 0) (x.flags.getLsbD 1) (x.flags.getLsbD 2) cl (cl || x.flags.getLsbD 4) (x.flags.getLsbD 5)
    (issues (.nrw e f) e s u → ∃ (q : Int) (h : Nat), rnd (x.accOf k) q ∧
      (sat 36 q ≠ q → h = 0) ∧ (q = sat 36 q → h ≤ 35 ∧ -2 ^ (35 - h) ≤ q ∧ q ≤ 2 ^ (35 - h) - 1 ∧ (h < 35 → q < -2 ^ (34 - h) ∨ 2 ^ (34 - h) - 1 < q)) ∧
      exec (.nrw e f) s = .next (ended u e { x.setReg (opRd f) (BitVec.ofInt 36 (sat 36 q)) with
        bexp := min x.bexp h, flags := fl (decide (sat 36 q ≠ q)) })) ∧
    (issues (.cnrw e f) e s u → k % 2 = 0 → n ≤ 40 → ∃ (qi qq : Int) (h : Nat), rnd (x.accOf k) qi ∧ rnd (x.accOf (k + 1)) qq ∧
      exec (.cnrw e f) s = .next (ended u e
        { x.setReg (opRd f) (BitVec.ofInt 18 (sat 18 qi) ++ BitVec.ofInt 18 (sat 18 qq) : BitVec 36) with
          bexp := min x.bexp h, flags := fl (decide (sat 18 qi ≠ qi) || decide (sat 18 qq ≠ qq)) })) ∧
    (issues (.cnrw e f) e s u → k % 2 = 1 ∨ 40 < n → exec (.cnrw e f) s = .next (engStop u e 0x11))

/-! ### Yosum engines: memory, blocks, issue, control flow -/

/-- The engine address map (R181), loads and stores (R185). -/
def Obligations.EngineAddressMapAndAccess : Prop :=
  ∀ (s : State) (e : Fin 192) (a : Nat) (w : Word),
    let n := e.val / 12
    let open_ := s.body.guarded n = false
    (a ≤ 0x7FFF → open_ → s.body.engAddr e a = some (0xF000000000 + 0x40000 * e.val + 8 * a)) ∧
    (0x100000 ≤ a → a ≤ 0x1FFFFF → s.body.engAddr e a = some (0xF100000000 + 0x800000 * n + 8 * (a - 0x100000))) ∧
    (0x200000 ≤ a → a ≤ 0x21FFFF →
      s.body.engAddr e a = some (0xF200000000 + 0x40000 * (4 * n + (a - 0x200000) / 0x8000) + 8 * (a % 0x8000))) ∧
    (0x220000 ≤ a → a ≤ 0x227FFF → s.body.engAddr e a = some (0xF200000000 + 0x40000 * (64 + n) + 8 * (a % 0x8000))) ∧
    (0x240000 ≤ a → a ≤ 0x247FFF → s.body.engAddr e a = some (0xF300000000 + 0x40000 * n + 8 * (a % 0x8000))) ∧
    ((0x7FFF < a ∧ a < 0x100000) ∨ (0x1FFFFF < a ∧ a < 0x200000) ∨ (0x227FFF < a ∧ a < 0x240000) ∨ 0x247FFF < a →
      s.body.engAddr e a = none ∧ engRead s e a = (0, s, some 1)) ∧
    (∀ d, s.body.engAddr e a = some d → s.body.outs = [] → open_ → s.mem.errAt d = 0 → engRead s e a = (s.mem.word d, s, none)) ∧
    (∀ d, s.body.engAddr e a = some d → s.body.outs = [⟨e, 0, s.clock.cyc + 1, .store d w⟩] → engRead s e a = (w, s, none)) ∧
    (a ≤ 0x7FFF → open_ → ∀ d, (engWrite s e a w).mem.word d = if s.body.engAddr e a = some d then w else s.mem.word d) ∧
    (∀ d, 0x7FFF < a → open_ → s.body.engAddr e a = some d → engWrite s e a w = { s with body := { s.body with
      outs := s.body.outs ++ [⟨e, s.clock.cyc, s.clock.cyc + (if a < 0x200000 then 3 else 5), .store d w⟩] } })

/-- The update rules of the address modes (R188); in mode 1 the pointer lies in [B, B + L) afterwards (modulo 2²⁴). -/
def Obligations.AddressRegistersStep : Prop :=
  ∀ (r : AddrReg),
    let L := if r.l = 0 then 65536 else r.l.toNat
    r.next = { r with p := r.next.p } ∧
    (r.mode = 0 → r.next.p = r.p + r.s.signExtend 24) ∧
    (r.mode = 1 → ∃ k : Nat, k < L ∧ ((r.p.toNat : Int) - r.b.toNat + r.s.toInt - k) % L = 0 ∧ r.next.p = r.b + BitVec.ofNat 24 k) ∧
    (∀ m : Nat, r.mode = 2 → 1 ≤ m → m ≤ 16 → L = 2 ^ m → ∃ x y z : Nat, x < 2 ^ m ∧ y < 2 ^ m ∧ z < 2 ^ m ∧
      ((r.p.toNat : Int) - r.b.toNat - x) % 2 ^ m = 0 ∧
      (∀ i : Nat, i < m → y.testBit i = (x.testBit (m - 1 - i))) ∧
      (∃ t : Nat, t < 2 ^ m ∧ ((y : Int) + r.s.toInt - t) % 2 ^ m = 0 ∧ ∀ i : Nat, i < m → z.testBit i = t.testBit (m - 1 - i)) ∧
      r.next.p = r.b + BitVec.ofNat 24 z)

/-- Loads, stores and address-register instructions (R187, R215, R216, R219): the whole next state. -/
def Obligations.LoadsAndStores : Prop :=
  ∀ (e : Fin 192) (f : BitVec 28) (s u u1 u2 : State) (w0 w1 : Word),
    let x := u.eng e
    let n := opAn f
    let rd := opRd f
    let r0 := x.areg n
    let r1 := stepped f r0
    let p0 := r0.p.toNat
    let p1 := r1.p.toNat
    let off := ((x.reg (opRa f)).extractLsb' 0 24 + (opImm f).signExtend 24).toNat
    let ok := fun a => (u.body.engAddr e a).isSome = true
    let st := fun (t : State) (y : Engine → Engine) => (Host.Outcome.next (ended t e (y (t.eng e))) : Host.Outcome State Fault Refusal)
    (issues (.ld e f) e s u → engRead u e p0 = (w0, u1, none) → exec (.ld e f) s = st u1 (fun y => (y.setAreg n r1).setReg rd w0)) ∧
    (issues (.ld e f) e s u → ¬ ok p0 → exec (.ld e f) s = .next (engStop u e 1)) ∧
    (issues (.st e f) e s u → ok p0 → exec (.st e f) s = st (engWrite u e p0 (x.reg rd)) (fun y => y.setAreg n r1)) ∧
    (issues (.st e f) e s u → ¬ ok p0 → exec (.st e f) s = .next (engStop u e 1)) ∧
    (issues (.ld2 e f) e s u → rd % 2 = 0 → ok p0 → ok p1 → engRead u e p0 = (w0, u1, none) → engRead u1 e p1 = (w1, u2, none) →
      exec (.ld2 e f) s = st u2 (fun y =>
        let z := y.setAreg n (stepped f r1)
        if rd = 0 then z else (z.setReg rd w0).setReg (rd + 1) w1)) ∧
    (issues (.ld2 e f) e s u → rd % 2 = 1 → exec (.ld2 e f) s = .next (engStop u e 0x12)) ∧
    (issues (.ld2 e f) e s u → rd % 2 = 0 → ¬ ok p0 ∨ ¬ ok p1 → exec (.ld2 e f) s = .next (engStop u e 1)) ∧
    (issues (.st2 e f) e s u → rd % 2 = 0 → ok p0 → ok p1 → exec (.st2 e f) s =
      st (engWrite (engWrite u e p0 (x.reg rd)) e p1 (x.reg (rd + 1))) (fun y => y.setAreg n (stepped f r1))) ∧
    (issues (.st2 e f) e s u → rd % 2 = 1 → exec (.st2 e f) s = .next (engStop u e 0x12)) ∧
    (issues (.st2 e f) e s u → rd % 2 = 0 → ¬ ok p0 ∨ ¬ ok p1 → exec (.st2 e f) s = .next (engStop u e 1)) ∧
    (issues (.ldo e f) e s u → engRead u e off = (w0, u1, none) → exec (.ldo e f) s = st u1 (fun y => y.setReg rd w0)) ∧
    (issues (.sto e f) e s u → ok off → exec (.sto e f) s = st (engWrite u e off (x.reg rd)) id) ∧
    (issues (.sto e f) e s u → ¬ ok off → exec (.sto e f) s = .next (engStop u e 1)) ∧
    (issues (.seta e f) e s u → opRa f ≤ 29 → ∀ r : AddrReg,
      r.p = (x.reg (opRa f)).extractLsb' 0 24 → r.b = (x.reg (opRa f + 1)).extractLsb' 0 24 →
      r.l = (x.reg (opRa f + 2)).extractLsb' 0 16 → r.s = (x.reg (opRa f + 2)).extractLsb' 16 16 →
      r.mode = (x.reg (opRa f + 2)).extractLsb' 32 2 →
      ((r.mode = 0 ∨ r.mode = 1 ∨ (r.mode = 2 ∧ ∃ m, 1 ≤ m ∧ m ≤ 16 ∧ r.len = 2 ^ m ∧ r.b.toNat % 2 ^ m = 0)) →
        exec (.seta e f) s = .next (ended u e (x.setAreg (f.extractLsb' 0 3).toNat r))) ∧
      (¬ (r.mode = 0 ∨ r.mode = 1 ∨ (r.mode = 2 ∧ ∃ m, 1 ≤ m ∧ m ≤ 16 ∧ r.len = 2 ^ m ∧ r.b.toNat % 2 ^ m = 0)) →
        exec (.seta e f) s = .next (engStop u e 4))) ∧
    (issues (.seta e f) e s u → 29 < opRa f → exec (.seta e f) s = .next (engStop u e 0x12)) ∧
    (issues (.setp e f) e s u → exec (.setp e f) s = .next (ended u e (x.setAreg (f.extractLsb' 0 3).toNat
      { x.areg (f.extractLsb' 0 3).toNat with p := (x.reg (opRa f)).extractLsb' 0 24 }))) ∧
    (issues (.geta e f) e s u →
      exec (.geta e f) s = .next (ended u e (x.setReg rd ((x.areg (f.extractLsb' 0 3).toNat).p.setWidth 36))))

/-- MACM and CMACM (R189, R190, R210): the whole next state. -/
def Obligations.MemoryAccumulations : Prop :=
  ∀ (e : Fin 192) (f : BitVec 28) (s u u1 u2 : State) (a b : Word),
    let x := u.eng e
    let y := u2.eng e
    let k := opAcc f
    let p0 := (x.areg (opAa f)).p.toNat
    let p1 := (x.areg (opAb f)).p.toNat
    let ks := if opAa f = opAb f then [opAa f] else [opAa f, opAb f]
    let ok := fun a => (u.body.engAddr e a).isSome = true
    let cj : Int := if f.getLsbD 0 then -1 else 1
    let aI := (a.extractLsb' 18 18).toInt
    let aQ := (a.extractLsb' 0 18).toInt
    let bI := (b.extractLsb' 18 18).toInt
    let bQ := cj * (b.extractLsb' 0 18).toInt
    let reads := ok p0 ∧ ok p1 ∧ engRead u e p0 = (a, u1, none) ∧ engRead u1 e p1 = (b, u2, none)
    (issues (.macm e f) e s u → reads →
      exec (.macm e f) s = .next (ended u2 e ((accumulated y k (y.accOf k + a.toInt * b.toInt)).stepPtrs ks))) ∧
    (issues (.macm e f) e s u → ¬ ok p0 ∨ ¬ ok p1 → exec (.macm e f) s = .next (engStop u e 1)) ∧
    (issues (.cmacm e f) e s u → k % 2 = 0 → reads → exec (.cmacm e f) s = .next (ended u2 e
      ((accumulated (accumulated y k (y.accOf k + (aI * bI - aQ * bQ))) (k + 1) (y.accOf (k + 1) + (aI * bQ + aQ * bI))).stepPtrs ks))) ∧
    (issues (.cmacm e f) e s u → k % 2 = 1 → exec (.cmacm e f) s = .next (engStop u e 0x11))

/-- Block instructions (R210, R220 to R222). -/
def Obligations.BlockInstructions : Prop :=
  (∀ (e : Fin 192) (f : BitVec 28) (s u v u1 u2 u3 : State) (a b d : Word),
    let x := u.eng e
    let n := (x.reg (opRa f)).toNat
    let i := x.resume.getD 0
    let mapped := fun (k : Nat) => (u.body.engAddr e (x.areg k).p.toNat).isSome = true
    let ok := fun ks => i < n ∧ n ≤ 65536 ∧ rangesOk x ks (n - i) = true ∧ ∀ k ∈ ks, mapped k
    let begun := x.resume.isSome = true
    let pA := (x.areg (opAa f)).p.toNat
    let pB := (x.areg (opAb f)).p.toNat
    let pD := (x.areg (opAd f)).p.toNat
    let two := fun (j k : Nat) => if j = k then [j] else [j, k]
    let one := fun (t : State) (y : Engine) ks => (Host.Outcome.next (elementEnd t e y ks n i) : Host.Outcome State Fault Refusal)
    let cplx := f.getLsbD 8
    let sh := (f.extractLsb' 0 6).toNat
    let hI := fun (w : Word) => (w.extractLsb' 18 18).toInt
    let hQ := fun (w : Word) => (w.extractLsb' 0 18).toInt
    let rc := x.reg (opRd f)
    let k := opAcc f
    let bQ := (if f.getLsbD 0 then -1 else 1) * hQ b
    let first := v = (if begun then u else u.setEng e { x with flags := setV x.flags false })
    let scaled := fun (r : Narrowed) =>
      let t := engWrite u1 e pD r.word
      one t ((t.eng e).narrowed r (r.clamped || (t.eng e).flags.getLsbD 3)) (two (opAa f) (opAd f))
    let summed := fun (w : Word) (cl : Bool) =>
      let t := engWrite u2 e pD w
      one t (if cl then { t.eng e with flags := (t.eng e).flags ||| 0x18 } else t.eng e) (two (opAa f) (opAd f))
    let fifo := (f.extractLsb' 0 4).toNat
    (issues (.bdot e f 1) e s u → ok [opAa f, opAb f] → engRead u e pA = (a, u1, none) → engRead u1 e pB = (b, u2, none) →
      let y := u2.eng e
      (cplx = false → exec (.bdot e f 1) s = one u2 (accumulated y k (y.accOf k + a.toInt * b.toInt)) (two (opAa f) (opAb f))) ∧
      (cplx = true → k % 2 = 0 → exec (.bdot e f 1) s = one u2
        (accumulated (accumulated y k (y.accOf k + (hI a * hI b - hQ a * bQ))) (k + 1) (y.accOf (k + 1) + (hI a * bQ + hQ a * hI b)))
        (two (opAa f) (opAb f)))) ∧
    (issues (.bscale e f 1) e s u → first → ok [opAa f, opAd f] → engRead v e pA = (a, u1, none) →
      (cplx = false → exec (.bscale e f 1) s = scaled (narrowReal (a.toInt * rc.toInt) sh)) ∧
      (cplx = true → sh ≤ 40 →
        exec (.bscale e f 1) s = scaled (narrowCplx (hI a * hI rc - hQ a * hQ rc) (hI a * hQ rc + hQ a * hI rc) sh))) ∧
    (issues (.bacc e f 1) e s u → first → ok [opAa f, opAd f] → engRead v e pD = (d, u1, none) → engRead u1 e pA = (a, u2, none) →
      (cplx = false → exec (.bacc e f 1) s = summed (satSum d a) (sumClamps d a)) ∧
      (cplx = true → exec (.bacc e f 1) s = summed
        (satSum (d.extractLsb' 18 18) (a.extractLsb' 18 18) ++ satSum (d.extractLsb' 0 18) (a.extractLsb' 0 18) : BitVec 36)
        (sumClamps (d.extractLsb' 18 18) (a.extractLsb' 18 18) || sumClamps (d.extractLsb' 0 18) (a.extractLsb' 0 18)))) ∧
    (issues (.bcopy e f 1) e s u → ok [opAa f, opAd f] → engRead u e pA = (a, u1, none) →
      exec (.bcopy e f 1) s = one (engWrite u1 e pD a) ((engWrite u1 e pD a).eng e) (two (opAa f) (opAd f))) ∧
    (issues (.bhist e f 1) e s u → ok [opAa f] → binsOk f x = true → engRead u e pA = (a, u1, none) →
      let L : Int := (x.areg (opAb f)).len
      let q := (a.toInt - rc.toInt) / 2 ^ sh
      let bin : Int := if q < 0 then 0 else if L - 1 < q then L - 1 else q
      let p := ((x.areg (opAb f)).b.toNat + bin.toNat) % 2 ^ 24
      engRead u1 e p = (b, u2, none) →
      let t := engWrite u2 e p (if b = BitVec.intMax 36 then b else b + 1)
      exec (.bhist e f 1) s = one t (t.eng e) [opAa f]) ∧
    (issues (.bfly e f 1) e s u → first → ok [opAa f, opAb f, opAd f] → opAa f ≠ opAb f → opAb f ≠ opAd f → opAa f ≠ opAd f →
      engRead v e pA = (a, u1, none) → engRead u1 e pB = (b, u2, none) → engRead u2 e pD = (d, u3, none) →
      let r := butterfly a b d (17 + if f.getLsbD 0 then 1 else 0)
      let t := engWrite (engWrite u3 e pA r.1.word) e pB r.2.word
      exec (.bfly e f 1) s = one t (((t.eng e).narrowedV r.1).narrowedV r.2) [opAa f, opAb f, opAd f]) ∧
    (issues (.bemit e f 1) e s u → ok [opAa f] → u.body.mayEmit u.clock (e.val / 12) fifo (e.val % 12) = true →
      engRead u e pA = (a, u1, none) →
      let t : State := { u1 with body := (u1.body.noteTurn (e.val / 12) (e.val % 12)).sendOut u1.clock e (.emit fifo a) }
      exec (.bemit e f 1) s = one t (t.eng e) [opAa f]) ∧
    (issues (.bemit e f 1) e s u → ok [opAa f] → u.body.mayEmit u.clock (e.val / 12) fifo (e.val % 12) = false →
      exec (.bemit e f 1) s = .next (stallAt e (.fifo fifo) (! u.body.canTake (e.val / 12) fifo (some (e.val % 12))) u))) ∧
  (∀ (e : Fin 192) (f : BitVec 28) (upto : Nat) (s u : State),
    let x := u.eng e
    let n := (x.reg (opRa f)).toNat
    let i := x.resume.getD 0
    let stop := fun c => (Host.Outcome.next (engStop u e c) : Host.Outcome State Fault Refusal)
    (issues (.bcopy e f upto) e s u → n = 0 → exec (.bcopy e f upto) s = .next (ended u e x)) ∧
    (issues (.bcopy e f upto) e s u → 65536 < n → exec (.bcopy e f upto) s = stop 0x13) ∧
    (issues (.bcopy e f upto) e s u → i < n → n ≤ 65536 →
      rangesOk x [opAa f, opAd f] (n - i) = false ∨ u.body.engAddr e (x.areg (opAa f)).p.toNat = none ∨
        u.body.engAddr e (x.areg (opAd f)).p.toNat = none → exec (.bcopy e f upto) s = stop 1) ∧
    (issues (.bdot e f upto) e s u → f.getLsbD 8 = true → opAcc f % 2 = 1 → exec (.bdot e f upto) s = stop 0x11) ∧
    (issues (.bscale e f upto) e s u → f.getLsbD 8 = true → 40 < (f.extractLsb' 0 6).toNat → exec (.bscale e f upto) s = stop 0x11))

/-- Instructions that send something out of the engine (R223 to R229, R235): the whole next state. -/
def Obligations.IssueAndResultInstructions : Prop :=
  ∀ (e : Fin 192) (f : BitVec 28) (s u : State),
    let x := u.eng e
    let n := e.val / 12
    let r := opRd f
    let rel := (f.extractLsb' 0 2).toNat
    let w0 := fun (t : State) (w : Word) => match rel with
      | 1 => BitVec.ofNat 36 t.body.grid.started + w
      | 2 => t.clock.tt.extractLsb' 32 36 + w
      | _ => w
    let base := r % 4 = 0 ∧ r ≠ 0
    let open_ := u.body.guarded n = false
    let way := fun (t : State) (win : Bool) (a b c d : Word) => ({ t with body := { t.body with
      issue := t.body.issue ++ [⟨n, e, win, w0 t a, b, c, d, t.clock.cyc + (if t.body.guarded n then 10 else 9)⟩]
      held := (t.body.inputsOf n win b).foldl (fun h q => h.put 0 q (t.clock.cyc + 4)) t.body.held } } : State)
    let out := fun (b : Body) (k : OutKind) => ended { u with body := { b with outs := b.outs ++ [⟨e, u.clock.cyc, u.clock.cyc + 1, k⟩] } } e x
    let free := fun (t : State) (win : Bool) (w : Word) =>
      t.body.issueRoom n win w = true ∧ t.body.inputsFree t.clock n win w = true ∧ t.body.aheadInLine e win w = false
    let fifo := (f.extractLsb' 0 4).toNat
    let ch := if f.getLsbD 6 then ((x.reg (opRa f)).extractLsb' 0 6).toNat else (f.extractLsb' 0 6).toNat
    let fab := u.body.fab
    let upd : SlotUpd := ⟨(f.extractLsb' 0 10).toNat, ((x.reg (opRa f)).extractLsb' 0 8).toNat, u.body.epoch, (u.clock.tt.extractLsb' 32 36).toNat,
      2, n, e.val % 12, u.clock.cyc + (if u.body.guarded n then 5 else 4)⟩
    let ev := fun (j : Nat) => u.mem.word (localAddr e (0x7FF0 + j))
    let lin : BitVec 64 := if (ev 0).getLsbD 4 || (ev 0).getLsbD 5 then (ev 9).extractLsb' 0 32 ++ (ev 8).extractLsb' 0 32 else 0
    let mem := fun (u1 u2 u3 u4 : State) (a b c d : Word) =>
      let r0 := x.areg (opAn f)
      let r1 := stepped f r0
      let r2 := stepped f r1
      let r3 := stepped f r2
      (∀ q ∈ [r0, r1, r2, r3], (u.body.engAddr e q.p.toNat).isSome = true) ∧ engRead u e r0.p.toNat = (a, u1, none) ∧
      engRead u1 e r1.p.toNat = (b, u2, none) ∧ engRead u2 e r2.p.toNat = (c, u3, none) ∧ engRead u3 e r3.p.toNat = (d, u4, none)
    let moved := fun (u4 : State) => (u4.eng e).setAreg (opAn f) (stepped f (stepped f (stepped f (stepped f (x.areg (opAn f))))))
    (∀ win : Bool, let i := if win then Instr.wissue e f else Instr.pissue e f
      (issues i e s u → rel ≠ 3 → base → free u win (x.reg (r + 1)) →
        exec i s = .next (ended (way u win (x.reg r) (x.reg (r + 1)) (x.reg (r + 2)) (x.reg (r + 3))) e x)) ∧
      (issues i e s u → rel ≠ 3 → base → ¬ free u win (x.reg (r + 1)) →
        exec i s = .next (stallAt e (.input win (x.reg (r + 1))) (! u.body.issueRoom n win (x.reg (r + 1))) u)) ∧
      (issues i e s u → rel = 3 → exec i s = .next (engStop u e 0x11)) ∧
      (issues i e s u → rel ≠ 3 → ¬ base → exec i s = .next (engStop u e 0x12))) ∧
    (∀ (win : Bool) u1 u2 u3 u4 a b c d, let i := if win then Instr.wissuem e f else Instr.pissuem e f
      (issues i e s u → rel ≠ 3 → mem u1 u2 u3 u4 a b c d → free u4 win b → exec i s = .next (ended (way u4 win a b c d) e (moved u4))) ∧
      (issues i e s u → rel = 3 → exec i s = .next (engStop u e 0x11)) ∧
      (issues i e s u → rel ≠ 3 → u.body.engAddr e (x.areg (opAn f)).p.toNat = none → exec i s = .next (engStop u e 1))) ∧
    (issues (.publish e f) e s u → u.body.laneFree u.clock e = true → exec (.publish e f) s = .next (ended { u with body := { u.body with
      fab := { fab with lane := fab.lane.put 0 n (u.clock.cyc + 1), flight := fab.flight ++ [upd] } } } e x)) ∧
    (issues (.publish e f) e s u → u.body.laneFree u.clock e = false → exec (.publish e f) s = .next (stallAt e .lane false u)) ∧
    (issues (.signal e f) e s u → open_ → (∀ j ∈ [0, 8, 9], u.mem.errAt (localAddr e (0x7FF0 + j)) = 0) →
      exec (.signal e f) s = .next (out u.body (.signal ch lin))) ∧
    (issues (.emit e f) e s u → open_ → u.body.mayEmit u.clock n fifo (e.val % 12) = true →
      exec (.emit e f) s = .next (out (u.body.noteTurn n (e.val % 12)) (.emit fifo (x.reg (opRa f))))) ∧
    (issues (.emit e f) e s u → u.body.mayEmit u.clock n fifo (e.val % 12) = false →
      exec (.emit e f) s = .next (stallAt e (.fifo fifo) (! u.body.canTake n fifo (some (e.val % 12))) u)) ∧
    (issues (.commit e f) e s u → open_ → exec (.commit e f) s = .next (out u.body (.commit fifo))) ∧
    (issues (.abort e f) e s u → open_ → exec (.abort e f) s = .next (out u.body (.abort fifo)))

/-- Branches (R210, R213, R214): the whole next state; `cond` is the table of conditions of R213. -/
def Obligations.BranchesAndCalls : Prop :=
  ∀ (e : Fin 192) (f : BitVec 28) (s u : State),
    let x := u.eng e
    let z := x.flags.getLsbD 0
    let n := x.flags.getLsbD 1
    let c := x.flags.getLsbD 2
    let v := x.flags.getLsbD 3
    let cond := fun (k : Nat) => [true, z, !z, n, !n, c, !c, v, !v, n != v, n == v, !z && n == v, z || n != v, x.flags.getLsbD 4][k]?
    let k := (f.extractLsb' 24 4).toNat
    let kr := (f.extractLsb' 0 4).toNat
    let tgt := f.extractLsb' 0 24
    let rt := (x.reg (opRa f)).extractLsb' 0 24
    let lk := x.setReg 31 ((x.pc + 1).setWidth 36)
    let dv := x.reg (opRd f) - 1
    let dt := x.pc + (opImm f).signExtend 24
    let stop := fun c => (Host.Outcome.next (engStop u e c) : Host.Outcome State Fault Refusal)
    (issues (.br e f) e s u → cond k = some true → sharedRange tgt → exec (.br e f) s = .next (jumped u e x tgt)) ∧
    (issues (.br e f) e s u → cond k = some false → exec (.br e f) s = .next (ended u e x)) ∧
    (issues (.br e f) e s u → cond k = some true → ¬ sharedRange tgt → exec (.br e f) s = stop 1) ∧
    (issues (.br e f) e s u → 14 ≤ k → exec (.br e f) s = stop 0x11) ∧
    (issues (.brr e f) e s u → cond kr = some true → sharedRange rt → exec (.brr e f) s = .next (jumped u e x rt)) ∧
    (issues (.brr e f) e s u → cond kr = some false → exec (.brr e f) s = .next (ended u e x)) ∧
    (issues (.call e f) e s u → cond k = some true → sharedRange tgt → exec (.call e f) s = .next (jumped u e lk tgt)) ∧
    (issues (.call e f) e s u → cond k = some false → exec (.call e f) s = .next (ended u e x)) ∧
    (issues (.call e f) e s u → cond k = some true → ¬ sharedRange tgt → exec (.call e f) s = stop 1) ∧
    (issues (.ret e f) e s u → sharedRange ((x.reg 31).extractLsb' 0 24) →
      exec (.ret e f) s = .next (jumped u e x ((x.reg 31).extractLsb' 0 24))) ∧
    (issues (.dbnz e f) e s u → dv ≠ 0 → sharedRange dt → exec (.dbnz e f) s = .next (jumped u e (x.setReg (opRd f) dv) dt)) ∧
    (issues (.dbnz e f) e s u → dv = 0 → exec (.dbnz e f) s = .next (ended u e (x.setReg (opRd f) dv)))

/-! ### Yosum engines: commands, waits, events, Guarded mode, microcode -/

/-- Engine commands (R198, R208). -/
def Obligations.EngineCommands : Prop :=
  ∀ (e : Fin 192) (s : State),
    let b := s.body
    let n := e.val / 12
    let k := ENG_STATUS e
    let st := b.engState e
    let own := b.oddTwin e = false
    let may := b.rbit (COVE_STATUS n) 1 = false ∧ b.rbit (MC_VERSION n) 31 = true ∧ b.rbit (MC_VERSION n) 30 = false
    let put := fun (v : Reg32) => (b.rget k &&& 0xFFFFFFF8) ||| v
    let others := fun (t : State) => ∀ h : Fin 192, b.phys h ≠ b.phys e → t.body.eng h = b.eng h
    let quiet := { b.eng e with wait := none, resume := none, stop := false, stall := none, twin := none, cont := none }
    (own → st = 0 → may → sets (.arm e) s [(k, put 1)]) ∧
    (own → st = 0 ∨ st = 1 → may → ∃ t, exec (.start e) s = .next t ∧
      t = { s with body := { b with regs := t.body.regs, engs := t.body.engs } } ∧ regsBut [k] s t ∧ t.body.rget k = put 2 ∧
      t.body.eng e = { quiet with pc := (b.rget (ENG_ENTRY e)).extractLsb' 0 24, fbuf := [], fresh := true } ∧ others t) ∧
    (own → st = 2 ∨ st = 3 → ∃ t, exec (.stop e) s = .next t ∧ t = { s with body := { b with engs := t.body.engs } } ∧
      t.body.eng e = { b.eng e with stop := true } ∧ others t) ∧
    (own → st = 1 → sets (.stop e) s [(k, put 0)]) ∧
    (own → st = 4 → sets (.clearFault e) s [(k, put 0), (ENG_FAULT e, 0)]) ∧
    (own → st ≠ 0 ∨ ¬ may → refusedAt (.arm e) s k) ∧
    (own → (st ≠ 0 ∧ st ≠ 1) ∨ ¬ may → refusedAt (.start e) s k) ∧
    (own → st ≠ 1 → st ≠ 2 → st ≠ 3 → refusedAt (.stop e) s k) ∧
    (own → st ≠ 4 → refusedAt (.clearFault e) s k) ∧
    (¬ own → refusedAt (.arm e) s (ENG_STATUS (e - 1)) ∧ refusedAt (.start e) s (ENG_STATUS (e - 1)) ∧
      refusedAt (.stop e) s (ENG_STATUS (e - 1)) ∧ refusedAt (.clearFault e) s (ENG_STATUS (e - 1))) ∧
    (own → st = 2 ∨ st = 3 → (b.eng e).stop = true → ∃ t, exec (.engineStopAct e) s = .next t ∧ onlyBody s t ∧ t.body.rget k = put 0 ∧
      t.body.eng e = quiet ∧ t.body.openFifos e = [] ∧ others t) ∧
    ((b.eng e).stop = false → exec (.engineStopAct e) s = .next s)

/-- Waits (R228, R230). `blk j` is word `j` of the event block (R231). -/
def Obligations.EngineWaits : Prop :=
  ∀ (e : Fin 192) (f : BitVec 28) (s u : State),
    let x := u.eng e
    let sel := ((x.reg (opRb f)).extractLsb' 0 18).toNat
    let mask := (f.extractLsb' 0 4).toNat
    let now : Int := (u.clock.tt.toNat / 2 ^ 32 : Nat)
    let due := fun (d : Option Int) => (opRa f = 0 → d = none) ∧ (opRa f ≠ 0 → ∃ v, d = some v ∧ now - 2 ^ 35 ≤ v ∧ v < now + 2 ^ 35 ∧
      (v - (x.reg (opRa f)).toNat) % 2 ^ 36 = 0)
    let others := fun (t : State) => ∀ h : Fin 192, u.body.phys h ≠ u.body.phys e → t.eng h = u.eng h
    let begun := { x with resume := none, stall := none, fresh := false, cont := none }
    let y := s.eng e
    let rd := fun (w : Wait) (v : Word) (fl : BitVec 6) =>
      let z := y.setReg (opRd w.f) v
      { z with pc := z.pc + 1, resume := none, wait := none, stall := none, fresh := false, cont := none, flags := fl }
    let waits := s.body.engState e = 3 ∧ s.body.oddTwin e = false
    let here := fun (t : State) => t = { s with body := { s.body with regs := t.body.regs, engs := t.body.engs } } ∧
      regsBut [ENG_STATUS e] s t ∧ t.body.engState e = 2
    let fl := y.flags
    let blk := fun (j : Nat) => localAddr e (0x7FF0 + j)
    (issues (.await e f) e s u → sel % 2 ^ 17 < 2 ^ 13 ∨ sel < 2 ^ 17 → ∃ t d, exec (.await e f) s = .next t ∧ due d ∧ others t ∧
      t = { u with body := { u.body with regs := t.body.regs, engs := t.body.engs, log := t.body.log } } ∧ regsBut [ENG_STATUS e] u t ∧ t.body.engState e = 3 ∧
      t.eng e = { begun with wait := some ⟨false, f, 3, sel, d, (u.body.selected (e / 12) sel).map (fun v => (v, u.clock.cyc)),
        0, none, none⟩ }) ∧
    (issues (.await e f) e s u → 2 ^ 13 ≤ sel % 2 ^ 17 → 2 ^ 17 ≤ sel → exec (.await e f) s = .next (engStop u e 0x11)) ∧
    (issues (.waitev e f) e s u → mask = 0 → exec (.waitev e f) s = .next (engStop u e 0x11)) ∧
    (issues (.waitev e f) e s u → mask ≠ 0 → (∀ j : Nat, j < 4 → mask.testBit j = true → u.body.tiPending (4 * e + j) = none) →
      ∃ t d, exec (.waitev e f) s = .next t ∧ due d ∧ others t ∧ t.body.engState e = 3 ∧ regsBut [ENG_STATUS e] u t ∧
      t = { u with body := { u.body with regs := t.body.regs, engs := t.body.engs, log := t.body.log } } ∧
      t.eng e = { begun with wait := some ⟨true, f, 3, mask, d, none, 0, none, none⟩ }) ∧
    (issues (.waitev e f) e s u → ∀ j : Nat, j < 4 → ∀ ev, mask.testBit j = true → u.body.tiPending (4 * e + j) = some ev →
      (∀ i : Nat, i < 4 → (i + 1) % 4 < (j + 1) % 4 → mask.testBit i = true → u.body.tiPending (4 * e + i) = none) →
      ∃ t d, exec (.waitev e f) s = .next t ∧ due d ∧ others t ∧ t.body.engState e = 3 ∧ regsBut [ENG_STATUS e] u t ∧
      (∀ i, i ≠ 4 * e.val + j → t.body.tiPending i = u.body.tiPending i) ∧
      (u.body.tiSeen (4 * e + j) = none → t.body.tiPending (4 * e + j) = none) ∧
      t = { u with body := { u.body with regs := t.body.regs, engs := t.body.engs, evt := t.body.evt, log := t.body.log } } ∧
      t.eng e = { begun with wait := some ⟨true, f, 3, mask, d, some (u.body.evInfo j ev, u.clock.cyc), ev.lin, none, none⟩ }) ∧
    (∀ w v t0, waits → y.wait = some w → w.cont = none → w.ev = false → w.got = some (v, t0) →
      (t0 + 3 ≤ s.clock.cyc → ∃ t, exec (.awaitComplete e) s = .next t ∧ here t ∧
        t.eng e = rd w v (flagBits (v == 0) v.msb false (fl.getLsbD 3) (fl.getLsbD 4) (fl.getLsbD 5))) ∧
      (s.clock.cyc < t0 + 3 → exec (.awaitComplete e) s = .next s)) ∧
    (∀ w t0, waits → y.wait = some w → w.cont = none → w.ev = false → w.dead = some t0 →
      (t0 + 3 ≤ s.clock.cyc → ∃ t, exec (.awaitDeadline e) s = .next t ∧ here t ∧
        t.eng e = rd w 0 (flagBits true false true (fl.getLsbD 3) (fl.getLsbD 4) (fl.getLsbD 5))) ∧
      (s.clock.cyc < t0 + 3 → exec (.awaitDeadline e) s = .next s)) ∧
    (∀ w v t0, waits → y.wait = some w → w.cont = none → w.ev = true → w.got = some (v, t0) → s.body.guarded (e / 12) = false →
      s.mem.errAt (blk 0) = 0 → t0 + 2 ≤ s.clock.cyc → ∃ t, exec (.waitevComplete e) s = .next t ∧ t.eng e = rd w v (fl &&& 0x3B) ∧ t.body.engState e = 2 ∧
        t = { s with mem := { s.mem with onDie := t.mem.onDie, err := t.mem.err }, body := { s.body with
          regs := t.body.regs, engs := t.body.engs, badDie := t.body.badDie, log := t.body.log } } ∧
        regsBut [ENG_STATUS e] s t ∧ t.mem.word (blk 7) = v ∧ t.mem.word (blk 8) = (w.lin.extractLsb' 0 32).setWidth 36 ∧
        t.mem.word (blk 9) = (w.lin.extractLsb' 32 32).setWidth 36 ∧ t.mem.word (blk 0) = s.mem.word (blk 0) ||| 0x20 ∧
        ∀ a, a ≠ blk 0 → a ≠ blk 7 → a ≠ blk 8 → a ≠ blk 9 → t.mem.word a = s.mem.word a ∧ t.mem.errAt a = s.mem.errAt a) ∧
    (∀ w t0, waits → y.wait = some w → w.cont = none → w.ev = true → w.dead = some t0 → t0 + 2 ≤ s.clock.cyc →
      ∃ t, exec (.waitevDeadline e) s = .next t ∧ here t ∧ t.eng e = rd w 0 (fl ||| 4)) ∧
    (s.body.engState e ≠ 3 → exec (.awaitComplete e) s = .next s ∧ exec (.awaitDeadline e) s = .next s ∧
      exec (.waitevComplete e) s = .next s ∧ exec (.waitevDeadline e) s = .next s)

/-- Event entry, return and HALT (R231 to R233, R236), in Open mode. -/
def Obligations.EventHandlersAndHalt : Prop :=
  ∀ (e : Fin 192) (f : BitVec 28) (s u : State),
    let blk := fun (j : Nat) => localAddr e (0x7FF0 + j)
    let word := fun (s : State) (j : Nat) => s.mem.word (blk j)
    let x := s.eng e
    let y := u.eng e
    let open_ := fun (s : State) => s.body.guarded (e / 12) = false
    let kept := fun (s t : State) (js : List Nat) => t.clock = s.clock ∧ t.pending = s.pending ∧ t.mem = { s.mem with onDie := t.mem.onDie, err := t.mem.err } ∧
      ∀ a, (∀ j ∈ js, a ≠ blk j) → t.mem.word a = s.mem.word a ∧ t.mem.errAt a = s.mem.errAt a
    let clean := fun (s : State) (js : List Nat) => ∀ j ∈ js, s.mem.errAt (blk j) = 0
    let between := x.twin = none ∧ x.stop = false ∧ ((s.body.engState e = 2 ∧ x.wait = none ∧ x.stall = none ∧ x.fresh = false) ∨
      (s.body.engState e = 3 ∧ ∃ w, x.wait = some w ∧ w.ev = false ∧ w.got = none ∧ w.dead = none))
    (open_ s → between → (word s 0).getLsbD 4 = false → ∀ j : Nat, j < 4 → ∀ ev, (word s 0).getLsbD j = true →
      s.body.tiPending (4 * e + j) = some ev →
      (∀ i : Nat, i < 4 → (i + 1) % 4 < (j + 1) % 4 → (word s 0).getLsbD i = true → s.body.tiPending (4 * e + i) = none) →
      clean s [0, 1 + j] → sharedRange ((word s (1 + j)).extractLsb' 0 24) →
      ∃ t, exec (.eventEntry e) s = .next t ∧ kept s t [0, 5, 6, 7, 8, 9] ∧
        t.body = { s.body with regs := t.body.regs, engs := t.body.engs, evt := t.body.evt, log := t.body.log, badDie := t.body.badDie } ∧
        regsBut [ENG_STATUS e] s t ∧ t.body.engState e = 2 ∧
        t.eng e = { x with pc := (word s (1 + j)).extractLsb' 0 24, wait := none, resume := none, stall := none, fresh := false, cont := none } ∧
        word t 5 = (if x.resume.isSome then 1#6 else 0#6) ++ x.flags ++ x.pc ∧ word t 6 = BitVec.ofNat 36 (x.resume.getD 0) ∧
        word t 7 = s.body.evInfo j ev ∧ word t 8 = (ev.lin.extractLsb' 0 32).setWidth 36 ∧
        word t 9 = (ev.lin.extractLsb' 32 32).setWidth 36 ∧ word t 0 = word s 0 ||| 0x10) ∧
    ((word s 0).getLsbD 4 = true → open_ s → clean s [0] → exec (.eventEntry e) s = .next s) ∧
    (x.stall ≠ none → x.wait = none → exec (.eventEntry e) s = .next s) ∧
    (s.body.engState e ≠ 2 → s.body.engState e ≠ 3 → exec (.eventEntry e) s = .next s) ∧
    ((∀ j : Nat, j < 4 → s.body.tiPending (4 * e + j) = none) → exec (.eventEntry e) s = .next s) ∧
    (issues (.rete e f) e s u → open_ u → (word u 0).getLsbD 4 = true → clean u [0, 5, 6] →
      ∃ t, exec (.rete e f) s = .next t ∧ kept u t [0] ∧
        t.body = { u.body with engs := t.body.engs, badDie := t.body.badDie, log := t.body.log } ∧
        word t 0 = word u 0 &&& ~~~0x10 ∧ (t.eng e).flags = (word u 5).extractLsb' 24 6 ∧
        t.eng e = { y with
          pc := (word u 5).extractLsb' 0 24, flags := (t.eng e).flags, resume := (t.eng e).resume, stall := none, fresh := false, cont := none } ∧
        (t.eng e).resume = if (word u 5).getLsbD 30 then some ((word u 6).extractLsb' 0 17).toNat else none) ∧
    (issues (.rete e f) e s u → open_ u → (word u 0).getLsbD 4 = false → clean u [0] → exec (.rete e f) s = .next (engStop u e 0x14)) ∧
    (s.body.mayIssue e = true → s.body.patched (e.val / 12) 1 = false → inHand s e 1 = (u, none) → open_ u → clean u [0] → ∃ t, exec (.halt e f) s = .next t ∧ kept u t [0] ∧ word t 0 = word u 0 &&& ~~~0x30 ∧
      t.eng e = { y with pc := y.pc + 1, wait := none, resume := none, stop := false, stall := none, fresh := false, twin := none, cont := none } ∧ t.body.openFifos e = [] ∧
      t.body.engState e = if u.body.rbit (ENG_CTL e) 0 && ! y.stop then 1 else 0)

/-- Guarded mode (R200 to R206). -/
def Obligations.GuardedMode : Prop :=
  ∀ (n : Fin 16) (e : Fin 192) (v : Reg32) (s : State),
    let b := s.body
    let x := b.cove n
    let spare := (v.extractLsb' 2 3).toNat
    let a := b.imageAt n 0
    let lo := (b.staged.get none (RELOAD_BASE_LO n)).getD (b.rget (RELOAD_BASE_LO n))
    let new := lo.toNat + 2 ^ 32 * (v &&& 0xFF).toNat
    (b.coveCtlRefused n v = true → refusedAt (.guardedWrite n v) s (COVE_STATUS n)) ∧
    (s.mem.wf → b.coveIdle n = true → v.getLsbD 0 = true → v.getLsbD 12 = false → spare < 6 →
      (v.getLsbD 1 = b.rbit (COVE_CTL n) 1 ∨ (b.rget (MC_VERSION n)).extractLsb' 25 2 = 0) → b.rbit (MC_VERSION n) 30 = false →
      b.imagesOk n a = true → (∀ i w : Nat, i < 12 → w < 32768 → s.mem.errAt (localAddr (12 * n + i) w) ≠ 2) → ∃ t, exec (.guardedWrite n v) s = .next t ∧ t.clock = s.clock ∧ t.pending = s.pending ∧
        t.body.rget (COVE_CTL n) = v &&& 0xFFF ∧ t.body.rget (PAIR_MAP n) = 0x2C688 ∧ t.body.rbit (COVE_STATUS n) 1 = true ∧
        t.body.rbit (COVE_STATUS n) 2 = true ∧ t.body.rbit (COVE_STATUS n) 3 = false ∧ t.body.cove n = ⟨[], none, true, false⟩ ∧
        (∀ i : Nat, i < 12 → (t.body.rget (ENG_STATUS (12 * n + i))).extractLsb' 0 3 = if i / 2 = spare then 5 else 0) ∧
        (∀ p : Nat, p < 6 → p ≠ spare → ∀ w : Nat, w < 32768 → t.mem.word (localAddr (12 * n + 2 * p + 1) w) = s.mem.word (localAddr (12 * n + 2 * p) w)) ∧
        (∀ w : Nat, w < 32768 → ∀ i, (i / 2 = 6 * n.val + spare ∨ i / 12 ≠ n.val) → i < 192 → t.mem.word (localAddr i w) = s.mem.word (localAddr i w))) ∧
    (b.guarded n = true → b.coveIdle n = true → v.getLsbD 0 = false → v.getLsbD 12 = false → spare < 6 →
      (v.getLsbD 1 = b.rbit (COVE_CTL n) 1 ∨ (b.rget (MC_VERSION n)).extractLsb' 25 2 = 0) → b.rbit (MC_VERSION n) 30 = false →
      ∃ t, exec (.guardedWrite n v) s = .next t ∧ onlyBody s t ∧ t.body.guarded n = false ∧ t.body.rbit (COVE_STATUS n) 2 = false ∧
        t.body.rget (PAIR_MAP n) = 0x2C688 ∧ t.body.cove n = ⟨[], none, false, false⟩ ∧ ∀ i : Nat, i < 12 → t.body.engState (12 * n + i) = 0) ∧
    (x.build = true → ∃ t, exec (.imageBuildDone n) s = .next t ∧ t.body.cove n = { x with build := false } ∧
        t.body.rget (COVE_STATUS n) = b.rget (COVE_STATUS n) &&& ~~~2 ∧ regsBut [COVE_STATUS n] s t ∧
        t = { s with body := { b with regs := t.body.regs, coves := t.body.coves } }) ∧
    (x.build = false → exec (.imageBuildDone n) s = .next s) ∧
    (b.coveIdle n = true → b.guarded n = false → new % 64 = 0 → new + 0xF0000 ≤ b.usable →
      ∃ t, exec (.reloadBaseHiWrite n v) s = .next t ∧ t = { s with body := { b with regs := t.body.regs, staged := t.body.staged } } ∧
        t.body.rget (RELOAD_BASE_LO n) = lo ∧ t.body.rget (RELOAD_BASE_HI n) = v &&& 0xFF ∧
        regsBut [RELOAD_BASE_LO n, RELOAD_BASE_HI n] s t ∧ t.body.staged.get none (RELOAD_BASE_LO n) = none) ∧
    (new % 64 ≠ 0 ∨ b.usable < new + 0xF0000 → ∃ t, exec (.reloadBaseHiWrite n v) s = .next t ∧ onlyBody s t ∧
      regsBut [COVE_STATUS n] s t ∧ t.body.rget (COVE_STATUS n) = b.rget (COVE_STATUS n) ||| 0x100 ∧
      t.body.staged.get none (RELOAD_BASE_LO n) = none) ∧
    (b.pairActive e = true → (b.eng e).stall ≠ none → ∃ t, exec (.twinMismatch e) s = .next t ∧ onlyBody s t ∧ t.body.regs = b.regs ∧
      t.body.eng e = { b.eng e with twin := some (b.tideBefore s.clock, s.clock.cyc) }) ∧
    (b.pairActive e = true → (b.eng e).stall = none → ∃ t, exec (.twinMismatch e) s = .next t ∧ onlyBody s t ∧ t.body.engState e = 4 ∧
      t.body.rget (ENG_FAULT e) = (b.eng e).pc ++ 3#8 ∧ e.val % 12 / 2 ∈ (t.body.cove (e / 12)).waiting ∧
      t.body.eng e = { b.eng e with wait := none, resume := none, stop := false, twin := none, cont := none }) ∧
    (b.pairActive e = false → exec (.twinMismatch e) s = .next s) ∧
    (x.loading = none → exec (.reloadDone n) s = .next s) ∧
    (∀ p : Nat, p < 6 → x.loading = some p → p ≠ b.rfld (COVE_CTL n) 2 3 → (imageReads s (b.imageAt n p) 2341).2.2 = true →
      ∃ t, exec (.reloadDone n) s = .next t ∧ t.clock = s.clock ∧ t.pending = s.pending ∧ (t.body.cove n).loading = none ∧
        t.body.rbit (COVE_STATUS n) 1 = false ∧ (t.body.rget (ENG_STATUS (12 * n + 2 * p))).extractLsb' 0 3 = 1 ∧
        t.body.eng (12 * n + 2 * p) = .reset ∧ t.body.rbit (COVE_STATUS n) 3 = b.rbit (COVE_STATUS n) 3)

/-- Microcode (R238 to R258). The ALU word is class 0, END, operation 1, rd from ra and rb, flags set; the FAULT word class 7. -/
def Obligations.MicrocodePatches : Prop :=
  ∀ (e : Fin 192) (w : Word) (op : BitVec 8) (u0 : BitVec 12) (upto : Nat) (s u : State) (r : Fin 256) (seq : Reg32) (d : Desc),
    let n := e.val / 12
    let k := storeKey n (u.body.phys e % 12 / 2) false u0.toNat
    let routine := s.body.runs e = true ∧ fetched s e op.toNat = (u, none) ∧ w.extractLsb' 28 8 = op ∧ 1 ≤ upto ∧ (u.eng e).cont = none ∧
      s.body.udisp.get none (256 * n + op.toNat) = some (0x1000#16 ||| u0.setWidth 16) ∧ u.mem.errAt k = 0
    let f := w.extractLsb' 0 28
    let x := u.eng e
    let a := x.reg (opRa f)
    let b := x.reg (opRb f)
    let mask := d.fld 20 16
    let holds := fun (b : Body) m => b.mcLoads.any (fun l => l.holds m)
    (routine → s.body.ucode.get none (4096 * n + u0.toNat) = some 0x101654 → ∃ v : State, ∃ p q : Word,
      v = ({ u with body := { u.body with free := u.body.free + 2 } } : State).setEng e { x with t0 := p, t1 := q } ∧
      exec (.patchedOpcode e w upto) s = .next (wrote v e (opRd f) (a + b) (decide (2 ^ 36 ≤ a.toNat + b.toNat)) (addOvf a b) false)) ∧
    (routine → ∀ c : BitVec 7, s.body.ucode.get none (4096 * n + u0.toNat) = some (7#3 ++ 0#4 ++ c ++ 0#10) → ∃ v : State,
      v.clock = u.clock ∧ v.mem = u.mem ∧ v.pending = u.pending ∧ exec (.patchedOpcode e w upto) s = .next (engStop v e c.toNat)) ∧
    (s.body.patched n (w.extractLsb' 28 8).toNat = false → exec (.patchedOpcode e w upto) s = .next s) ∧
    (∀ (i : Instr) (df : BitVec 16), yosumEngine i = some e → opcodeOf i = op.toNat → s.body.udisp.get none (256 * n + op.toNat) = some df →
      df.getLsbD 12 = false → s.body.runs e = true → fetched s e op.toNat = (u, none) → exec i s = .next (engStop u e 0x10)) ∧
    (s.body.udisp.get none (256 * n + op.toNat) = none → opListed op.toNat = false → s.body.runs e = true → fetched s e op.toNat = (u, none) →
      exec (.illegalOp e op) s = .next (engStop u e 0x10)) ∧
    (s.body.udisp.get none (256 * n + op.toNat) = none → opListed op.toNat = true → exec (.illegalOp e op) s = .next s) ∧
    (∀ (m : Fin 16) (p : Fin 6) (disp : Bool) (i : Nat), let key := storeKey m p disp i;
      (s.mem.errAt key = 2 → ∃ t, exec (.controlStoreRewrite m p disp i) s = .next t ∧
        t = { s with mem := { s.mem with err := t.mem.err }, body := { s.body with badDie := t.body.badDie } } ∧ key ∉ t.body.badDie ∧
        ∀ j, t.mem.errAt j = if j = key then 0 else s.mem.errAt j) ∧
      (s.mem.errAt key ≠ 2 → exec (.controlStoreRewrite m p disp i) s = .next s)) ∧
    (readyDesc s.body r seq.toNat 5 d → d.fld 8 64 % 64 = 0 → mask ≠ 0 → 1 ≤ d.fld 16 32 → d.fld 16 32 ≤ 33056 →
      d.raw.getLsbD 176 = false → ∀ ls : List (BitVec 512), ls.length = (d.fld 16 32 + 63) / 64 →
      (∀ i : Nat, i < ls.length → s.body.winOk (d.fld 8 64 + 64 * i) 64 false = true) →
      ((∀ m : Nat, m < 16 → mask.testBit m = true → s.body.mcReadyCove m = true) →
        ∃ t, exec (.loadMicrocode r seq (ls.map some)) s = .next t ∧ onlyBody s t ∧ regsBut ((List.range 16).map MC_VERSION) s t ∧
          t.body.mcLoads = s.body.mcLoads ++ [⟨r, d.seq, mask, ((ls.map lineBytes).flatten).take (d.fld 16 32), none, 0⟩] ∧
          ∀ m : Nat, m < 16 → t.body.rget (MC_VERSION m) = (s.body.rget (MC_VERSION m) &&& ~~~0x40000000) ||| (if holds t.body m then 0x40000000 else 0)) ∧
      (∀ m : Nat, m < 16 → mask = 2 ^ m → s.body.mcReadyCove m = false →
        endsWith (.loadMicrocode r seq (ls.map some)) s r d 0x10 (BitVec.ofNat 32 mask) 0)) ∧
    (∀ (bad : BitVec 16) (x : McLoad), s.body.mcLoads = [x] → x.todo = none → x.ring = r.val → x.seq = seq.toNat →
      s.body.findDesc r seq.toNat = some d → s.body.rbit FLT_STATUS 5 = true →
      (mcCheck s x = none → ∀ c : Nat, c < 16 → x.mask.testBit c = true → (∀ m : Nat, m < c → x.mask.testBit m = false) →
        ∃ t, exec (.mcLoadEnd r seq bad) s = .next t ∧ onlyBody s t ∧ regsBut ((List.range 16).map MC_VERSION) s t ∧
          t.body.mcLoads = [{ x with todo := some ((List.range 16).filter x.mask.testBit), bad := bad.toNat &&& x.mask }] ∧
          t.body.ucode = s.body.ucode ∧ t.body.udisp = s.body.udisp ∧ t.body.rbit (MC_VERSION c) 31 = false) ∧
      (∀ st d0, mcCheck s x = some (st, d0) → ∃ t, exec (.mcLoadEnd r seq bad) s = .next t ∧ t.mem = s.mem ∧ t.body.ucode = s.body.ucode ∧
        t.body.udisp = s.body.udisp ∧ t.body.mcLoads = [] ∧ endsDesc s.body t.body s.clock r d st (BitVec.ofNat 32 d0) 0)) ∧
    (∀ (x : McLoad) (rs : List McRec) (m : Nat) (rest : List Nat), m < 16 → m ∉ rest → mcCheck s x = none → mcParse x.image = some rs →
      x.todo = some (m :: rest) →
      let t := mcWrite x s
      let ver := t.body.rget (MC_VERSION m) &&& ~~~0x40000000
      (x.bad.testBit m = false → (∀ i : Nat, i < 4096 → t.body.microword m i = (patchOf rs).word i) ∧ ver = BitVec.ofNat 32 (mcVersion x.image)) ∧
      (x.bad.testBit m = true → (∀ i : Nat, i < 4096 → t.body.microword m i = romWord i) ∧ ver = 0x80010000) ∧
      ∀ c : Nat, c < 16 → c ≠ m → ∀ i : Nat, i < 4096 → t.body.microword c i = s.body.microword c i)

/-! ### Host interface -/

/-- Polling (R266 to R272). -/
def Obligations.PollingAndDoorbells : Prop :=
  ∀ (v : Reg32) (x : BitVec 512) (w : BitVec 64) (r : Fin 256) (s : State),
    let b := s.body
    let cyc := s.clock.cyc
    let re := b.rbit HST_CTL 0
    let busy := b.rbit HST_STATUS 0
    let here := fun (t : State) => t = { s with body := { b with regs := t.body.regs, log := t.body.log, host := t.body.host } }
    let started := fun (t : State) => t.body.rget POLL_COUNT = satInc (b.rget POLL_COUNT) 1 ∧
      (b.winOk b.dbBase 64 false = true → t.body.rget HST_STATUS = b.rget HST_STATUS ||| 1 ∧ t.body.host.pollReads = none) ∧
      (b.winOk b.dbBase 64 false = false → t.body.rget HST_STATUS = b.rget HST_STATUS ||| 0x200)
    let rs := (List.range 256).filter (fun q => x.getLsbD q && b.rbit (HRING_CTL q) 0)
    let h := b.hring r
    let prod := w.extractLsb' 0 32
    let cons := w.extractLsb' 32 32
    let overFlag := 1 ≤ (cons - b.rget (RING_CQ_PROD r)).toNat ∧ (cons - b.rget (RING_CQ_PROD r)).toNat < 2 ^ 31
    let many := 2 ^ ((b.rget (RING_CFG r)).extractLsb' 0 5).toNat < (prod - b.rget (RING_FETCH r)).toNat
    let ends := busy = true ∧ b.host.pollReads = some [r.val] ∧ b.host.nudge = false ∧ b.rbit (HRING_CTL r) 0 = true ∧
      b.rbit (HRING_STATUS r) 3 = false ∧ h.owed = []
    (v.getLsbD 0 = true → b.fwReady = true → ∃ t, exec (.reEn v) s = .next t ∧ here t ∧ regsBut [HST_CTL] s t ∧
      t.body.rget HST_CTL = v &&& 0x1FF01 ∧ t.body.host = { b.host with nextTick := if re then b.host.nextTick else some cyc }) ∧
    (v.getLsbD 0 = false → ∃ t, exec (.reEn v) s = .next t ∧ here t ∧ regsBut [HST_CTL] s t ∧
      t.body.rget HST_CTL = v &&& 0x1FF01 ∧ t.body.host = { b.host with nextTick := none }) ∧
    (v.getLsbD 0 = true → b.fwReady = false → refusedAt (.reEn v) s HST_STATUS) ∧
    (∀ t0, b.host.nextTick = some t0 → re = true → t0 ≤ cyc → ∃ t, exec .pollTick s = .next t ∧ here t ∧
      t.body.host.nextTick = some (t0 + ((b.rget POLL_INTERVAL).extractLsb' 0 20).toNat) ∧
      (busy = true → regsBut [POLL_SKIP] s t ∧ t.body.rget POLL_SKIP = satInc (b.rget POLL_SKIP) 1) ∧
      (busy = false → regsBut [POLL_COUNT, HST_STATUS] s t ∧ started t)) ∧
    ((re = false ∨ b.host.nextTick = none ∨ ∃ t0, b.host.nextTick = some t0 ∧ cyc < t0) → exec .pollTick s = .next s) ∧
    (∃ t, exec (.glbNudge v) s = .next t ∧ here t ∧ t.body.rget NUDGE_COUNT = satInc (b.rget NUDGE_COUNT) 1 ∧
      (re = false → regsBut [NUDGE_COUNT] s t ∧ t.body.host = b.host) ∧
      (re = true → busy = true → regsBut [NUDGE_COUNT] s t ∧ t.body.host = { b.host with nudge := true }) ∧
      (re = true → busy = false → regsBut [NUDGE_COUNT, POLL_COUNT, HST_STATUS] s t ∧ started t)) ∧
    (busy = true → b.host.pollReads = none → rs ≠ [] → (∀ q ∈ rs, b.winOk (b.dbBase + 0x800 + 8 * q) 8 false = true) →
      ∃ t, exec (.summaryReturn (some x)) s = .next t ∧
        t = { s with body := { b with log := t.body.log, host := { b.host with pollReads := some rs } } }) ∧
    (busy = true → b.host.pollReads = none → rs = [] → b.host.nudge = false → ∃ t, exec (.summaryReturn (some x)) s = .next t ∧ here t ∧
      regsBut [HST_STATUS] s t ∧ t.body.rget HST_STATUS = b.rget HST_STATUS &&& ~~~1 ∧ t.body.host = b.host) ∧
    (busy = true → b.host.pollReads = none → b.host.nudge = false → ∃ t, exec (.summaryReturn none) s = .next t ∧ here t ∧
      regsBut [HST_STATUS] s t ∧ t.body.rget HST_STATUS = (b.rget HST_STATUS ||| 0x200) &&& ~~~1 ∧ t.body.host = b.host) ∧
    (busy = false → exec (.summaryReturn (some x)) s = .next s ∧ exec (.pollEnd (some [w])) s = .next s) ∧
    (ends → ¬ overFlag → ¬ many → ∃ t, exec (.pollEnd (some [w])) s = .next t ∧ here t ∧ regsBut [HST_STATUS] s t ∧
      t.body.rget HST_STATUS = b.rget HST_STATUS &&& ~~~1 ∧ t.body.host.pollReads = none ∧
      t.body.hring r = { h with prod := prod, cons := cons } ∧ ∀ q, q ≠ r.val → t.body.hring q = b.hring q) ∧
    (ends → overFlag ∨ many → ∃ t, exec (.pollEnd (some [w])) s = .next t ∧ here t ∧ (t.body.hring r).prod = h.prod ∧
      (t.body.hring r).cons = h.cons ∧ t.body.rget (HRING_STATUS r) = b.rget (HRING_STATUS r) ||| (if overFlag then 0x408 else 0x208))

/-- Descriptor rings, completion records and MSI-X (R273 to R280, R292 to R295). -/
def Obligations.RingsAndRecords : Prop :=
  ∀ (r : Fin 256) (seq v : Reg32) (m : Fin 64) (d : Desc) (x : Rec) (rest : List Rec) (s : State),
    let b := s.body
    let cyc := s.clock.cyc
    let h := b.hring r
    let ctl := b.rget (HRING_CTL r)
    let st := b.rget (HRING_STATUS r)
    let here := fun (t : State) => t = { s with body := { b with regs := t.body.regs, log := t.body.log, host := t.body.host, out := t.body.out } }
    let others := fun (t : State) => ∀ q, q ≠ r.val → t.body.hring q = b.hring q
    let fetch := b.rget (RING_FETCH r)
    let size := 2 ^ ((b.rget (RING_CFG r)).extractLsb' 0 5).toNat
    let at_ := fetch.toNat % size
    let addr := b.rpair (DQ_BASE_LO r) (DQ_BASE_HI r) + 64 * at_
    let room := 131072 - b.inflightTotal
    let n := min (min (b.fetchable r) room) (min ((4096 - addr % 4096) / 64) (min 64 (size - at_)))
    let turn := b.nextRing = some r.val ∧ 0 < room ∧ b.fetchable r ≤ size ∧ b.winOk addr 64 false = true
    let no := b.rget (RING_CQ_PROD r)
    let csize := 2 ^ ((b.rget (RING_CFG r)).extractLsb' 8 5).toNat
    let caddr := b.rpair (CQ_BASE_LO r) (CQ_BASE_HI r) + 32 * (no.toNat % csize)
    let phase := if no.toNat / csize % 2 = 0 then 1#8 else 0#8
    let bits := x.tide ++ x.d1 ++ x.d0 ++ x.seq ++ x.cookie ++ phase ++ BitVec.ofNat 8 r ++ BitVec.ofNat 8 x.status ++ BitVec.ofNat 8 x.kind
    let vec := (b.rfld (RING_CFG r) 16 6)
    let msg := fun (j : Nat) => OutItem.hostWrite (b.rget (MSIX_ADDR_HI j) ++ b.rget (MSIX_ADDR_LO j)) (leBytes 4 (b.rget (MSIX_DATA j)).toNat) false
    let pba := MSIX_PBA (m / 32)
    (v.getLsbD 1 = false → v.getLsbD 0 = true → ctl.getLsbD 0 = false → ∃ t, exec (.ringEnable r v) s = .next t ∧ here t ∧ others t ∧
      t.body.out = b.out ∧ regsBut [HRING_CTL r, HRING_STATUS r, RING_FETCH r, RING_CQ_PROD r] s t ∧ t.body.rget (HRING_CTL r) = ctl ||| 1 ∧
      t.body.rget (HRING_STATUS r) = st ||| 1 ∧ t.body.rget (RING_FETCH r) = 0 ∧ t.body.rget (RING_CQ_PROD r) = 0 ∧
      t.body.hring r = { h with prod := 0, cons := 0, owed := [], unsig := 0, t0 := none }) ∧
    (v.getLsbD 1 = false → v.getLsbD 0 = true → ctl.getLsbD 0 = true →
      sets (.ringEnable r v) s [(HRING_CTL r, ctl), (HRING_STATUS r, st ||| 1)]) ∧
    (v.getLsbD 1 = false → v.getLsbD 0 = false →
      sets (.ringEnable r v) s [(HRING_CTL r, ctl &&& ~~~1), (HRING_STATUS r, st &&& ~~~9)]) ∧
    (v.getLsbD 1 = true → ∃ t, exec (.ringAbort r v) s = .next t ∧ others t ∧
      t = { s with body := { b with regs := t.body.regs, host := t.body.host, cal := t.body.cal } } ∧ regsBut [HRING_CTL r, HRING_STATUS r] s t ∧
      t.body.rget (HRING_CTL r) = ctl &&& ~~~1 ∧ t.body.rget (HRING_STATUS r) = st &&& ~~~9 ∧
      (t.body.hring r).recs = h.recs ++ (h.descs.filter (b.abortable r)).map (fun d => recordOf s.clock d 0xC 0 0) ∧
      ∀ d ∈ (t.body.hring r).descs, d.st ≠ .fetched) ∧
    (turn → ∀ l : List (BitVec 512), ∃ t, exec (.descriptorFetch (some l)) s = .next t ∧ here t ∧ others t ∧ t.body.out = b.out ∧
      regsBut [RING_FETCH r] s t ∧ t.body.rget (RING_FETCH r) = fetch + BitVec.ofNat 32 (min n l.length) ∧ t.body.host.rr = r.val ∧
      t.body.host.order = b.host.order + min n l.length ∧ t.body.hring r = { h with descs := (t.body.hring r).descs } ∧
      (t.body.hring r).descs = h.descs ++
        (l.take n).zipIdx.map (fun e => ⟨(fetch.toNat + e.2) % 2 ^ 32, b.host.order + e.2, e.1, .fetched, none, 0, 0, []⟩)) ∧
    (turn → ∃ t, exec (.descriptorFetch none) s = .next t ∧ here t ∧ (t.body.hring r).descs = h.descs ∧ t.body.rbit (HRING_STATUS r) 11 = true ∧
      t.body.rbit (HRING_STATUS r) 3 = true) ∧
    (b.nextRing = none → exec (.descriptorFetch none) s = .next s) ∧
    (readyDesc b r seq.toNat 0 d → endsWith (.nopDescriptor r seq) s r d 0 0 0) ∧
    (b.startable r seq.toNat = some d → d.fld 0 8 = 0 → d.reserved = true → endsWith (.nopDescriptor r seq) s r d 2 0 0) ∧
    (b.startable r seq.toNat = some d → 15 ≤ d.fld 0 8 → endsWith (.badKind r seq) s r d 1 0 0) ∧
    (b.startable r seq.toNat = none → exec (.nopDescriptor r seq) s = .next s ∧ exec (.badKind r seq) s = .next s) ∧
    (h.recs = x :: rest → x.fifo = none → x.kind < 256 → x.status < 256 → st.getLsbD 3 = false → (no - h.cons).toNat < csize →
      b.winOk caddr 32 true = true → b.rbit (RING_MOD r) 24 = false → ∃ t, exec (.completionWrite r) s = .next t ∧ here t ∧ others t ∧
        regsBut [RING_CQ_PROD r, HRING_STATUS r] s t ∧ t.body.rget (RING_CQ_PROD r) = no + 1 ∧ t.body.rget (HRING_STATUS r) = st &&& ~~~4 ∧
        t.body.out = b.out ++ [.hostWrite (BitVec.ofNat 64 caddr) (leBytes 32 bits.toNat) false] ∧ (t.body.hring r).recs = rest ∧
        (t.body.hring r).unsig = h.unsig + 1 ∧ (t.body.hring r).t0 = some (h.t0.getD cyc) ∧
        (x.ends = none → (t.body.hring r).descs = h.descs) ∧
        ∀ q, x.ends = some q → (t.body.hring r).descs = h.descs.filter (fun y => ! (y.seq == q && y.st == .ended))) ∧
    (h.recs = x :: rest → st.getLsbD 3 = false → csize ≤ (no - h.cons).toNat → sets (.completionWrite r) s [(HRING_STATUS r, st ||| 4)]) ∧
    (h.recs = [] ∨ st.getLsbD 3 = true → exec (.completionWrite r) s = .next s) ∧
    (∀ t0, h.t0 = some t0 → b.rbit (RING_MOD r) 24 = true → t0 + 1000 * b.rfld (RING_MOD r) 8 16 ≤ cyc →
      ∃ t, exec (.irqModTime r) s = .next t ∧ here t ∧ others t ∧ t.body.hring r = { h with unsig := 0, t0 := none } ∧
        (b.rbit (MSIX_CTL vec) 0 = false → t.body.out = b.out ++ [msg vec] ∧ regsBut [] s t) ∧
        (b.rbit (MSIX_CTL vec) 0 = true → t.body.out = b.out ∧ t.body.rbit (MSIX_PBA (vec / 32)) (vec % 32) = true)) ∧
    (h.t0 = none → exec (.irqModTime r) s = .next s) ∧
    (v.getLsbD 0 = false → b.rbit pba (m % 32) = true → ∃ t, exec (.msixUnmask m v) s = .next t ∧ here t ∧ t.body.out = b.out ++ [msg m] ∧
      regsBut [MSIX_CTL m, pba] s t ∧ t.body.rget (MSIX_CTL m) = 0 ∧ t.body.rbit pba (m % 32) = false ∧ t.body.host = b.host) ∧
    (v.getLsbD 0 = true → sets (.msixUnmask m v) s [(MSIX_CTL m, 1)])

/-- Loads and copies (R281, R283). `off` and `c` are the destination offset and the count of words. -/
def Obligations.LoadsAndCopies : Prop :=
  ∀ (r : Fin 256) (seq : Reg32) (d : Desc) (l : BitVec 512) (s : State),
    let b := s.body
    let c := d.fld 16 32
    let off := d.fld 20 32
    let dest := d.fld 24 16
    let src := d.fld 8 64
    let n := dest % 16
    let e := dest / 32
    let good := fun (k : Nat) => readyDesc b r seq.toNat k d ∧ src % 64 = 0 ∧ d.raw.getLsbD 208 = false ∧ 1 ≤ c ∧ c ≤ 14 ∧
      c = (l.extractLsb' 504 4).toNat
    let line := b.winOk src 64 false = true
    let loads := fun (i : Instr) (a : Nat → Nat) => ∃ t, exec i s = .next t ∧ t.clock = s.clock ∧ t.pending = s.pending ∧
      t.mem.dev = s.mem.dev ∧ t.mem.fuse = s.mem.fuse ∧ endsDesc b t.body s.clock r d 0 0 0 ∧
      (∀ k : Nat, k < c → t.mem.word (a (off + k)) = l.extractLsb' (36 * k) 36) ∧
      ∀ q, (∀ k : Nat, k < c → q ≠ a (off + k)) → t.mem.word q = s.mem.word q
    let h := d.fld 8 64
    let a := d.fld 16 40
    let copy := readyDesc b r seq.toNat 6 d ∧ h % 64 = 0 ∧ a % 64 = 0 ∧ d.fld 24 32 = 64 ∧ b.memReady = true ∧ a + 64 ≤ b.usable ∧
      b.mcFail (b.mcOf a).1 = false
    (good 1 → line → dest < 16 → off + c ≤ 0x100000 → loads (.loadProgram r seq [some l]) (sharedAddr n)) ∧
    (good 1 → line → dest < 512 → dest / 16 % 2 = 1 → e < 12 → off + c ≤ 0x8000 → b.guarded n = false →
      (b.engState (12 * n + e) = 0 ∨ b.engState (12 * n + e) = 1) → loads (.loadProgram r seq [some l]) (localAddr (12 * n + e))) ∧
    (good 1 → dest < 512 → dest / 16 % 2 = 1 → e < 12 → b.guarded n = false → b.engState (12 * n + e) = 2 →
      endsWith (.loadProgram r seq [some l]) s r d 5 0 0) ∧
    (good 2 → line → dest < 80 → off + c ≤ 0x8000 → loads (.loadEnvelope r seq [some l]) (envAddr dest)) ∧
    (good 2 → 80 ≤ dest → dest < 128 → endsWith (.loadEnvelope r seq [some l]) s r d 4 0 0) ∧
    (good 2 → dest < 80 → 0x8000 < off + c → endsWith (.loadEnvelope r seq [some l]) s r d 3 0 0) ∧
    (good 3 → line → dest < 16 → off + c ≤ 0x8000 → loads (.loadKernel r seq [some l]) (kernAddr dest)) ∧
    (good 4 → line → dest = 0 → off + c ≤ 0x100000 → loads (.loadTable r seq [some l]) tableAddr) ∧
    (good 4 → ¬ line → dest = 0 → off + c ≤ 0x100000 → endsWith (.loadTable r seq [some l]) s r d 6 0 0) ∧
    (good 4 → line → dest = 0 → off + c ≤ 0x100000 → endsWith (.loadTable r seq [none]) s r d 7 0 0) ∧
    (readyDesc b r seq.toNat 4 d → c = 0 → endsWith (.loadTable r seq [some l]) s r d 2 0 0) ∧
    (copy → d.raw.getLsbD 224 = false → b.winOk h 64 false = true → ∃ t, exec (.copy r seq [some l]) s = .next t ∧
      t = { s with mem := { s.mem with dev := t.mem.dev, err := t.mem.err }, body := { b.withRings t.body with log := t.body.log, badLines := t.body.badLines } } ∧
      endsDesc b t.body s.clock r d 0 0 64 ∧ t.mem.line (b.devKey a) = l ∧
      ∀ q, q < b.devKey a ∨ b.devKey a + 64 ≤ q → t.mem.byte q = s.mem.byte q) ∧
    (copy → d.raw.getLsbD 224 = true → b.winOk h 64 true = true → s.mem.errAt (b.devKey a) = 0 → ∃ t, exec (.copy r seq []) s = .next t ∧
      t = { s with body := { b.withRings t.body with log := t.body.log, out := t.body.out } } ∧ endsDesc b t.body s.clock r d 0 0 64 ∧
      t.body.out = b.out ++ [.hostWrite (BitVec.ofNat 64 h) (lineBytes (s.mem.line (b.devKey a))) true])

/-- Bindings, packing, draining and flushing (R284, R308 to R322). -/
def Obligations.BindingsAndStaging : Prop :=
  ∀ (r : Fin 256) (seq v : Reg32) (n f : Fin 16) (d : Desc) (y : Binding) (p : Packet) (st : Staged) (rest : List Staged) (s : State),
    let b := s.body
    let x := b.fifo n f
    let named := d.fld 24 8 = 16 * n + f
    let sta := FIFO_STAGED n f
    let host := FIFO_HOST_USED n f
    let others := fun (t : State) => ∀ k : Nat, k < 256 → k ≠ 16 * n + f → t.body.fifo (k / 16) (k % 16) = b.fifo (k / 16) (k % 16)
    let fresh : Binding := ⟨r, d.raw.extractLsb' 32 32, d.fld 8 64, d.fld 25 8, true, d.fld 16 64, d.fld 26 8, false, 0, 0, [], [], none, none, false, false⟩
    let kept : Binding := ⟨r, d.raw.extractLsb' 32 32, d.fld 8 64, d.fld 25 8, true, y.stageBase, y.stageLog, y.lost, y.wr, 0, y.staged, y.copied, none, y.unbind, false, y.part⟩
    let k := (p.words.length + 13) / 14
    let next := b.nextPacket s.clock n = some (f.val, p) ∧ x.done ≠ []
    let took := fun (t : State) => t.body.packAt.get 0 n = (f + 1) % 16 ∧ others t ∧ (t.body.fifo n f).done = x.done.drop 1
    let slot := y.stageBase + 64 * (y.wr % 2 ^ y.stageLog)
    let from_ := y.stageBase + 64 * (st.at_ % 2 ^ y.stageLog)
    (readyDesc b r seq.toNat 7 d → named → d.fld 27 2 = 0 → b.bindStatus d false = 0 → ∃ t, exec (.resultBind r seq) s = .next t ∧
      t = { s with body := { b.withRings t.body with regs := t.body.regs, fifos := t.body.fifos } } ∧ endsDesc b t.body s.clock r d 0 0 0 ∧ others t ∧
      t.body.fifo n f = { x with bind := some fresh, overFlag := false, cut := false } ∧ regsBut [sta, host, FIFO_RESV n f] s t ∧
      t.body.rget sta = 0 ∧ t.body.rget host = 0 ∧ t.body.rget (FIFO_RESV n f) = 0) ∧
    (readyDesc b r seq.toNat 7 d → named → d.fld 27 2 = 0 → b.bindStatus d false ≠ 0 →
      endsWith (.resultBind r seq) s r d (b.bindStatus d false) 0 0) ∧
    (named → x.bind.isSome = true → d.bindBad = false → b.memReady = true → d.fld 16 64 + 64 * 2 ^ d.fld 26 8 ≤ b.usable → b.bindStatus d false = 5) ∧
    (readyDesc b r seq.toNat 7 d → named → d.fld 27 2 = 2 → x.bind = some y → b.bindStatus d true = 0 →
      ∃ t, exec (.bindKeepStaged r seq) s = .next t ∧ endsDesc b t.body s.clock r d 0 0 0 ∧ others t ∧
      t = { s with body := { b.withRings t.body with regs := t.body.regs, fifos := t.body.fifos } } ∧
      t.body.fifo n f = { x with bind := some kept, overFlag := false, cut := false } ∧ regsBut [host] s t ∧ t.body.rget host = 0) ∧
    (readyDesc b r seq.toNat 7 d → named → d.raw.getLsbD 216 = true → x.bind = none → endsWith (.unbind r seq) s r d 4 0 0) ∧
    (readyDesc b r seq.toNat 7 d → named → d.raw.getLsbD 216 = true → x.bind = some y → y.unbind.isSome = true →
      endsWith (.unbind r seq) s r d 5 0 0) ∧
    (readyDesc b r seq.toNat 7 d → named → d.raw.getLsbD 216 = true → x.bind = some y → y.unbind = none → y.host = true → y.lost = false →
      x.open_ = none → x.done = [] → b.rget sta = 0 → (b.hring y.ring).owed = [] → ∃ t, exec (.unbind r seq) s = .next t ∧
        t = { s with body := { b.withRings t.body with regs := t.body.regs, fifos := t.body.fifos } } ∧ endsDesc b t.body s.clock r d 0 0 0 ∧ others t ∧
        t.body.fifo n f = { x with bind := none } ∧ regsBut [host] s t ∧ t.body.rget host = 0) ∧
    (b.nextPacket s.clock n = none → exec (.packPacket n) s = .next s) ∧
    (next → x.bind = none → ∃ t, exec (.packPacket n) s = .next t ∧ onlyBody s t ∧ took t ∧ regsBut [FIFO_DROP_COUNT n f, MEM_STATUS] s t ∧
      t.body.rget (FIFO_DROP_COUNT n f) = satInc (b.rget (FIFO_DROP_COUNT n f)) 1 ∧ t.body.rget MEM_STATUS = b.rget MEM_STATUS ||| 0x1000) ∧
    (next → x.bind = some y → y.lost = false → y.unbind = none → k + b.rnat sta + b.rnat (FIFO_RESV n f) ≤ 2 ^ y.stageLog → k = 1 →
      b.mcFail (b.mcOf slot).1 = false → b.rnat sta + 1 < 2 ^ 32 → ∃ t, exec (.packPacket n) s = .next t ∧ took t ∧ t.clock = s.clock ∧
        t.body.rnat sta = b.rnat sta + 1 ∧ t.body.rnat (FIFO_RESV n f) = b.rnat (FIFO_RESV n f) - 1 ∧
        (t.body.fifo n f).bind = some { y with staged := y.staged ++ [⟨y.wr, 1, p.words.any (·.2), p.no⟩], wr := (y.wr + 1) % 2 ^ y.stageLog } ∧
        t.mem.line (b.devKey slot) = packLine (p.words.map (·.1)) true true (p.words.any (·.2))) ∧
    (next → x.bind = some y → y.lost = false → y.unbind = none → 2 ^ y.stageLog < k + b.rnat sta → ∃ t, exec (.packPacket n) s = .next t ∧
      onlyBody s t ∧ took t ∧ regsBut [FIFO_DROP_COUNT n f, MEM_STATUS] s t ∧ (t.body.fifo n f).bind = some y ∧
      t.body.rget (FIFO_DROP_COUNT n f) = satInc (b.rget (FIFO_DROP_COUNT n f)) 1 ∧ t.body.rget MEM_STATUS = b.rget MEM_STATUS ||| 0x800) ∧
    (x.bind = some y → y.host = true → y.lost = false → y.halted = false → y.staged = st :: rest → st.lines = 1 → b.rnat host < 2 ^ y.hostLog →
      b.winOk (y.hostBase + 64 * (y.hostAt % 2 ^ y.hostLog)) 64 true = true → b.mcFail (b.mcOf from_).1 = false → s.mem.errAt (b.devKey from_) = 0 →
      (lineOk (s.mem.line (b.devKey from_)) = false → ∃ t q, exec (.drainPacket n f) s = .next t ∧ onlyBody s t ∧ others t ∧
        (t.body.fifo n f).bind = some { y with staged := rest, copied := y.copied ++ [st], rec_ := none } ∧ t.body.out = b.out ∧
        (t.body.hring y.ring).recs = (b.hring y.ring).recs ++ [q] ∧ q.kind = 0x80 ∧ q.status = 8 ∧ q.cookie = y.cookie) ∧
      (lineOk (s.mem.line (b.devKey from_)) = true → ∃ t z, exec (.drainPacket n f) s = .next t ∧ onlyBody s t ∧ others t ∧ (t.body.fifo n f).bind = some z ∧ z.staged = rest ∧
        z.copied = y.copied ++ [st] ∧ z.hostAt = (y.hostAt + 1) % 2 ^ y.hostLog ∧ t.body.rget host = b.rget host + 1 ∧
        t.body.out = b.out ++ [.hostWrite (BitVec.ofNat 64 (y.hostBase + 64 * (y.hostAt % 2 ^ y.hostLog))) (lineBytes (s.mem.line (b.devKey from_))) true] ∧
        (rest = [] → ∃ q, (t.body.hring y.ring).recs = (b.hring y.ring).recs ++ [q] ∧ q.kind = 0x80 ∧ q.status = 0 ∧ q.cookie = y.cookie))) ∧
    (x.bind = none ∨ (x.bind = some y ∧ y.staged = [] ∧ y.rec_ = none) → exec (.drainPacket n f) s = .next s) ∧
    (v.extractLsb' 0 9 = (b.rget (FIFO_CTL n f)).extractLsb' 0 9 → v.getLsbD 16 = true → 1 ≤ b.rfld (FIFO_CTL n f) 0 9 →
      b.otherDepths n f + b.rfld (FIFO_CTL n f) 0 9 ≤ 256 → ∃ t, exec (.flush n f v) s = .next t ∧ onlyBody s t ∧ others t ∧
        (x.open_ = none → t.body.fifo n f = { x with done := [] } ∧ regsBut [] s t) ∧
        ∀ o, x.open_ = some o → t.body.rget (FIFO_CUT_COUNT n f) = satInc (b.rget (FIFO_CUT_COUNT n f)) 1 ∧ t.body.rbit MEM_STATUS 10 = true ∧
          t.body.fifo n f = { x with done := [], open_ := none, drops := x.drops ++ [o.prod], cut := true }) ∧
    (v.extractLsb' 0 9 = 0 ∨ 256 < b.otherDepths n f + (v.extractLsb' 0 9).toNat → refusedAt (.flush n f v) s MEM_STATUS)

/-- RUN_CONTROL, TIME_CONTROL, QUERY and FENCE (R285, R286, R290, R291). -/
def Obligations.RunControlAndWaits : Prop :=
  ∀ (r : Fin 256) (seq : Reg32) (d : Desc) (g : Fin 192) (s : State),
    let b := s.body
    let c := s.clock
    let q := seq.toNat
    let op := d.fld 8 8
    let cmd := b.engCommand g (d.fld 9 8)
    let grid := fun (v : Reg32) => b.writeGridCmd c v
    let all := d.named.all (fun h => b.engState h == 0 || b.engState h == 4)
    let until_ := if d.fld 16 64 = 0 then none else some (c.cyc + d.fld 16 64)
    let waits := fun (t : State) (z : Desc) => t = { s with body := b.withRings t.body } ∧ t.body.findDesc r q = some z ∧
      (t.body.hring r).recs = (b.hring r).recs
    let count := d.fld 10 8
    let mark := if b.gridRun = true then b.host.commitMark + 1 else 0
    let settled := fun (m : Nat × Nat) => (b.fifo (m.1 / 16) (m.1 % 16)).settled m.2 = true
    let val := BitVec.ofNat 32 (d.fld 28 32)
    (readyDesc b r q 8 d → op = 1 → d.fld 9 8 ≤ 3 → d.named = [g.val] → cmd.2 = false → ∃ t, exec (.engine r seq) s = .next t ∧
      t = { s with body := cmd.1.withRings t.body } ∧ endsDesc b t.body c r d 0 0 0) ∧
    (readyDesc b r q 8 d → op = 1 → d.fld 9 8 ≤ 3 → d.named = [g.val] → cmd.2 = true → ∃ t, exec (.engine r seq) s = .next t ∧
      t = { s with body := cmd.1.withRings t.body } ∧ endsDesc b t.body c r d 0xA 1 0) ∧
    (readyDesc b r q 8 d → 4 < op ∨ op = 0 ∨ (op = 1 ∧ 3 < d.fld 9 8) → endsWith (.engine r seq) s r d 2 0 0) ∧
    (readyDesc b r q 8 d → b.rbit TIDE_STATUS 8 = false →
      (op = 2 → ∃ t, exec (.gridStart r seq) s = .next t ∧ t.body.grid = (grid 1).grid ∧ regsBut [] { s with body := grid 1 } t ∧
        endsDesc b t.body c r d (if (grid 1).rbit TIDE_STATUS 8 then 0xA else 0) 0 0) ∧
      (op = 3 → ∃ t, exec (.gridStop r seq) s = .next t ∧ t.body.grid = (grid 2).grid ∧ regsBut [] { s with body := grid 2 } t ∧
        endsDesc b t.body c r d (if (grid 2).rbit TIDE_STATUS 8 then 0xA else 0) 0 0)) ∧
    (readyDesc b r q 8 d → op = 4 → all = true →
      endsWith (.waitStopped r seq) s r d 0 (BitVec.ofNat 32 (d.named.filter (fun h => b.engState h == 4)).length) 0) ∧
    (readyDesc b r q 8 d → op = 4 → all = false → ∃ t, exec (.waitStopped r seq) s = .next t ∧ waits t { d with st := .active, deadline := until_ }) ∧
    (b.findDesc r q = some d → d.st = .active → ∀ t0, d.deadline = some t0 → (t0 ≤ c.cyc → endsWith (.descTimeout r seq) s r d 0xB 0 0) ∧
      (c.cyc < t0 → exec (.descTimeout r seq) s = .next s)) ∧
    (b.findDesc r q = none → exec (.descTimeout r seq) s = .next s ∧ exec (.fenceDone r seq) s = .next s) ∧
    (readyDesc b r q 14 d → 1 < op ∨ 2 < count → endsWith (.fence r seq) s r d 2 0 0) ∧
    (readyDesc b r q 14 d → op ≤ 1 → count = 2 → b.anchored = false → endsWith (.fence r seq) s r d 0xA 0 0) ∧
    (readyDesc b r q 14 d → op ≤ 1 → count ≤ 1 → d.raw.getLsbD 72 = false → ∃ t, exec (.fence r seq) s = .next t ∧
      waits t { d with st := .active, aux := mark, marks := [] }) ∧
    (readyDesc b r q 14 d → op ≤ 1 → count ≤ 1 → d.raw.getLsbD 72 = true → ∃ t, exec (.fence r seq) s = .next t ∧
      waits t { d with st := .active, aux := mark, marks := b.fenceMarks r }) ∧
    (b.findDesc r q = some d → d.fld 0 8 = 14 → d.st = .active → op = 0 → count = 0 →
      ((∀ x ∈ (b.hring r).descs, d.order ≤ x.order) → (∀ m ∈ d.marks, settled m) → endsWith (.fenceDone r seq) s r d 0 0 0) ∧
      ((∃ x ∈ (b.hring r).descs, x.order < d.order) ∨ (∃ m ∈ d.marks, ¬ settled m) → exec (.fenceDone r seq) s = .next s)) ∧
    (readyDesc b r q 9 d → op = 0 → count = 1 → d.fld 9 8 ≤ 1 → d.fld 24 32 % 4 = 0 → offBarred (d.fld 24 32) = false →
      ∃ t, exec (.writes r seq) s = .next t ∧ waits t { d with st := .active, aux := mark }) ∧
    (readyDesc b r q 9 d → 1 < op ∨ (op = 0 ∧ (count = 0 ∨ 5 < count ∨ 2 < d.fld 9 8)) → endsWith (.writes r seq) s r d 2 0 0) ∧
    (readyDesc b r q 9 d → op = 0 → count = 1 → d.fld 9 8 ≤ 2 → d.fld 24 32 % 4 = 0 → d.fld 24 32 < 0x20000 → endsWith (.writes r seq) s r d 4 0 0) ∧
    (b.waitingWrites = [(r.val, d)] → (b.hring r).descs = [d] → d.st = .active → b.host.landings = [] → b.whenHolds c d = true → count = 1 →
      d.fld 0 8 = 9 → d.mask = 0 → d.fld 24 32 = SLOT_PEEK_SEL → ∃ t, exec .timeControlDue s = .next t ∧ endsDesc b t.body c r d 0 0 0 ∧
        t.mem = s.mem ∧ t.clock = c ∧ regsBut [SLOT_PEEK_SEL] s t ∧ t.body.host.landings = [] ∧
        t.body.rget SLOT_PEEK_SEL = (b.rget SLOT_PEEK_SEL &&& ~~~0x3FFF) ||| (val &&& 0x3FFF)) ∧
    ((∀ e ∈ b.waitingWrites, b.whenHolds c e.2 = false) → exec .timeControlDue s = .next s) ∧
    (readyDesc b r q 9 d → op = 1 → (2 < d.fld 9 8 → endsWith (.timeControlAnchor r seq) s r d 2 0 0) ∧
      (d.fld 9 8 = 2 → b.anchored = false → endsWith (.timeControlAnchor r seq) s r d 0xA 0 0) ∧
      (d.mask = 0 → d.fld 9 8 = 1 → b.gridRun = true → ∃ t, exec (.timeControlAnchor r seq) s = .next t ∧
        waits t { d with st := .active, aux := b.host.commitMark + 1 })) ∧
    (readyDesc b r q 9 d → op = 1 → d.mask = 0 → d.fld 9 8 = 0 ∨ (d.fld 9 8 = 1 ∧ b.gridRun = false) →
      (b.anchorAllowed c = false → ∃ t, exec (.timeControlAnchor r seq) s = .next t ∧ regsBut [TIDE_STATUS] s t ∧
        t.body.rget TIDE_STATUS = b.rget TIDE_STATUS ||| 0x100 ∧ t = { s with body := { b.withRings t.body with regs := t.body.regs, log := t.body.log } } ∧
        endsDesc b t.body c r d 0xA 0 0) ∧
      (b.anchorAllowed c = true → ∃ t, exec (.timeControlAnchor r seq) s = .next t ∧
        t.body.findDesc r q = some { d with st := .active, aux := mark, mask := 1 } ∧ t.body.grid.anchorAt.isSome = true ∧
        (t.body.hring r).recs = (b.hring r).recs)) ∧
    (b.findDesc r q = some d → d.fld 0 8 = 9 → op = 1 → d.st = .active → d.mask = 1 → b.anchored = true → b.grid.anchorAt = none →
      endsWith (.timeControlAnchor r seq) s r d 0 0 0) ∧
    (readyDesc b r q 13 d → (d.fld 16 8 = 0 ∨ 10 < d.fld 16 8 ∨ d.fld 8 64 % 64 ≠ 0) → endsWith (.query r seq) s r d 2 0 0) ∧
    (readyDesc b r q 13 d → d.fld 16 8 = 1 → d.fld 8 64 % 64 = 0 → d.fld 20 32 = SHOT_EPOCH → (∀ i : Nat, 1 ≤ i → i < 10 → d.fld (20 + 4 * i) 32 = 0) →
      (b.hring r).descs = [d] → b.host.landings = [] → b.winOk (d.fld 8 64) 4 true = true → ∃ t, exec (.query r seq) s = .next t ∧ endsDesc b t.body c r d 0 0 0 ∧
        t = { s with body := { b with host := t.body.host, log := t.body.log, out := t.body.out } } ∧ t.body.host.landings = [] ∧
        t.body.out = b.out ++ [.hostWrite (BitVec.ofNat 64 (d.fld 8 64)) (leBytes 4 (b.rget SHOT_EPOCH).toNat) true])

/-! ### Calibration, fuses, scope, memory -/

/-- Calibration (R357 to R364) and fuse writes (R369, R373 to R375). -/
def Obligations.CalibrationAndFuses : Prop :=
  ∀ (r : Fin 256) (seq : Reg32) (d : Desc) (req : CalReq) (run : CalRun) (w : Reg32) (l : BitVec 512) (s : State),
    let b := s.body
    let c := s.clock
    let q := seq.toNat
    let harbour := b.rbit FLT_STATUS 5 = true
    let new := d.calReq r
    let named := b.findDesc r q = some d ∧ ∀ x ∈ (b.hring r).descs, x.seq = q → x = d
    let delay := b.cal.runs = [run] ∧ run.tile < 4 ∧ run.req.desc = some (r.val, q) ∧ named ∧ harbour ∧ run.req.addr = 0
    let key := corrKey 2 run.req.cls run.req.idx 0
    let clamped := if w.toInt < -512 then BitVec.ofInt 32 (-512) else if 512 < w.toInt then 512 else w
    let after := fun (t : State) => t.clock = c ∧ t.mem = s.mem ∧ t.pending = s.pending ∧ t.body.cal.runs = []
    let src := d.fld 8 64
    let fuse := readyDesc b r q 11 d ∧ harbour ∧ b.fuseWr = none ∧ src % 64 = 0 ∧ d.raw.getLsbD 136 = false ∧ d.aux = 0
    let line := fuse ∧ d.fld 16 8 = 1 ∧ b.winOk src 64 false = true
    let begins := fun (t : State) (x : FuseWrite) => t.body.fuseWr = some x ∧ t.mem = s.mem ∧ (t.body.hring r).recs = (b.hring r).recs ∧
      t = { s with body := { b.withRings t.body with log := t.body.log, fuseWr := t.body.fuseWr } }
    let fails := fun (i : Instr) (st : Nat) => ∃ t, exec i s = .next t ∧ endsDesc b t.body c r d st 0 0 ∧
      t = { s with body := { b.withRings t.body with log := t.body.log } }
    (readyDesc b r q 10 d → b.calStatus new = 0 → ∃ t, exec (.calibrate r seq) s = .next t ∧
      t = { s with body := { b.withRings t.body with cal := { b.cal with queue := b.cal.queue ++ [new] } } } ∧
      t.body.findDesc r q = some { d with st := .active } ∧ (t.body.hring r).recs = (b.hring r).recs) ∧
    (readyDesc b r q 10 d → b.calStatus new ≠ 0 → endsWith (.calibrate r seq) s r d (b.calStatus new) 0 0) ∧
    (5 < d.fld 9 8 → b.calStatus new = 4) ∧ (d.fld 9 8 ≤ 5 → calApplies (d.fld 8 8) (d.fld 9 8) = false → b.calStatus new = 2) ∧
    (b.cal.queue = [req] → b.calCanStart c req = true → req.kind ≠ 0x21 → harbour → (b.gridRun = false ∨ b.grid.lastCommit = some c.cyc) →
      req.desc = some (r.val, q) → named →
      ((∀ p ∈ req.ports, b.calReady p.1 p.2 = true) → ∃ t, exec (.calStart []) s = .next t ∧ t.body.cal.queue = [] ∧
        t.body.cal.runs = b.cal.runs ++ [⟨req, req.tile, c.cyc, c.tt.toNat / 2 ^ 32⟩] ∧ (t.body.hring r).recs = (b.hring r).recs ∧
        t = { s with body := { b.withRings t.body with regs := t.body.regs, cal := t.body.cal } } ∧
        ∀ n : Nat, n < 16 → req.cls = 2 → req.idx = n → t.body.rbit (RCV_STATUS n) 3 = true) ∧
      ((∃ p ∈ req.ports, b.calReady p.1 p.2 = false) → ∃ t, exec (.calStart []) s = .next t ∧ t.body.cal = { b.cal with queue := [] } ∧
        endsDesc b t.body c r d 5 0 0 ∧ t = { s with body := { b.withRings t.body with cal := t.body.cal } })) ∧
    ((∀ x ∈ b.cal.queue, b.calCanStart c x = false) → exec (.calStart []) s = .next s) ∧
    (delay → ∀ k : Fin 4, k.val = run.tile → run.req.kind = 2 → run.req.apply = true → ∃ t, exec (.calEnd k [w] false 0 0 0 false) s = .next t ∧ after t ∧
      endsDesc b t.body c r d 0 0 0 ∧ t.body.rget CAL_DONE_COUNT = satInc (b.rget CAL_DONE_COUNT) 1 ∧
      (b.gridRun = true → t.body.cal = { b.cal with runs := [], pend := b.cal.pend ++ [(key, clamped)] }) ∧
      (b.gridRun = false → t.body.cal.pend = [] ∧ t.body.corr 2 run.req.cls run.req.idx 0 = clamped)) ∧
    (delay → ∀ k : Fin 4, k.val = run.tile → run.req.kind = 0x11 → b.gridRun = true → ∀ rms : BitVec 16, 4000 < rms.toNat →
      ∃ t, exec (.calEnd k [] false rms 0 384 false) s = .next t ∧ after t ∧ t.body.cal = { b.cal with runs := [] } ∧
      t.body.rget CAL_FAIL_COUNT = satInc (b.rget CAL_FAIL_COUNT) 1 ∧
      endsDesc b t.body c r d 0x20 0 (1#16 ++ 384#16 ++ 0#16 ++ rms)) ∧
    (b.cal.runs = [] → ∀ k, exec (.calEnd k [w] false 0 0 0 false) s = .next s) ∧
    (line → s.mem.slotBlank 3 = true → b.envOk = true → ∃ t, exec (.fuseCommitKey r seq [some l]) s = .next t ∧
      begins t ⟨some (r.val, d.seq), none, keyWords (lineBytes l), keyWords (lineBytes l), false, false⟩) ∧
    (line → s.mem.slotBlank 3 = true → b.envOk = false → fails (.fuseCommitKey r seq [some l]) 0x28) ∧
    (line → s.mem.slotBlank 3 = false → s.mem.slotValid 3 = false → fails (.fuseCommitKey r seq [some l]) 0x29) ∧
    (fuse → 1 < d.fld 16 8 → endsWith (.fuseCommit r seq []) s r d 4 0 0) ∧
    (fuse → d.fld 16 8 = 0 → ∀ ls : List (BitVec 512), ls.length = 32 → (∀ i : Nat, i < 32 → b.winOk (src + 64 * i) 64 false = true) →
      let img := (ls.map lineBytes).flatten
      (genImageOk img = false → fails (.fuseCommit r seq (ls.map some)) 0x2A) ∧
      (genImageOk img = true → s.mem.blankGen = none → fails (.fuseCommit r seq (ls.map some)) 0x29) ∧
      (genImageOk img = true → b.envOk = true → ∀ g, s.mem.blankGen = some g → ∃ t, exec (.fuseCommit r seq (ls.map some)) s = .next t ∧
        begins t ⟨some (r.val, d.seq), some g, genWords g img, genWords g img, false, false⟩)) ∧
    (∀ (x : FuseWrite) (a : Nat) (v miss : BitVec 64) (rest : List (Nat × BitVec 64)), b.fuseWr = some x → x.todo = (a, v) :: rest → harbour →
      let m : Mem := { s.mem with fuse := s.mem.fuse.put 0 a (s.mem.fuseWord a ||| (v &&& ~~~miss)) }
      let good := ∀ e ∈ x.all, m.fuseWord e.1 = e.2
      let y : FuseWrite := ⟨x.desc, x.gen, rest, x.all, x.marker, true⟩
      let goes := fun (z : FuseWrite) => exec (.fuseWordWritten miss) s = .next { s with mem := m, body := { b with fuseWr := some z } }
      let stops := fun (st : Nat) (d0 : Reg32) => x.desc = some (r.val, q) → named → ∃ t, exec (.fuseWordWritten miss) s = .next t ∧
        t = { s with mem := m, body := { b.withRings t.body with fuseWr := none } } ∧ endsDesc b t.body c r d st d0 0
      (x.marker = false → rest ≠ [] → b.envOk = true → goes y) ∧
      (x.marker = false → rest ≠ [] → b.envOk = false → stops 0x28 (BitVec.ofNat 32 (x.gen.getD 0 + 256))) ∧
      (x.marker = false → rest = [] → ¬ good → stops 0x2B 0) ∧
      (x.marker = false → rest = [] → good → x.gen = none → stops 0 0) ∧
      (x.marker = false → rest = [] → good → b.envOk = true → ∀ g : Nat, g < 16 → x.gen = some g →
        goes ⟨x.desc, x.gen, [(0x400 + 0x100 * g + 255, 0xA55AC33C0FF09669)], x.all, true, true⟩) ∧
      (x.marker = true → stops 0 (BitVec.ofNat 32 (x.gen.getD 0)))) ∧
    (b.fuseWr = none → exec (.fuseWordWritten 0) s = .next s)

/-- The scope (R339 to R352). -/
def Obligations.ScopeUnits : Prop :=
  ∀ (u : Fin 16) (r : Fin 256) (seq v : Reg32) (d : Desc) (s : State),
    let b := s.body
    let c := s.clock
    let q := seq.toNat
    let x := b.unit u
    let st := b.rget (U_STATUS u)
    let quiet := x.ends = [] ∧ (b.capturing u = false ∨ b.srcOn u = true)
    let pre := b.rfld (U_PRE u) 0 16
    let others := fun (t : State) => ∀ w : Nat, w ≠ u → t.body.unit w = b.unit w
    let line := nextLine (b.uSrc u) (b.uEff u) c.phase.toNat
    let armed := fun (t : State) => others t ∧ t.body.unit u = { ScopeUnit.reset with a := b.uEff u, first := line, next := line, take := line } ∧
      t.body.uState u = (if pre = 0 then 2 else 1) ∧ t.body.rfld (U_STATUS u) 16 16 = 0
    let off := fun (t : State) => others t ∧ t.body.uState u = 0 ∧ t.body.unit u = { ScopeUnit.reset with overFlag := x.overFlag, lost := x.lost }
    let no := [(U_STATUS u, st ||| 0x100), (SCOPE_STATUS, b.rget SCOPE_STATUS ||| 0x100)]
    let cmd := (v.extractLsb' 0 3).toNat
    let fill := b.uState u = 1 ∨ b.uState u = 2
    let forced := fun (t : State) => others t ∧ t.body.unit u = { x with force := some (x.force.getD c.cyc) }
    let ready := readyDesc b r q 12 d ∧ b.memReady = true ∧ d.fld 10 16 = 2 ^ u.val ∧ quiet
    let op := d.fld 8 8
    let n := linePoints (b.uSrc u) x.a
    let live := b.capturing u = true ∧ (b.uState u = 1 ∨ b.uState u = 2)
    let low := max x.first (x.next + 1 - b.uLines u)
    let addr := b.bufBase u + 64 * b.uLines u * x.k + 64 * (x.next % b.uLines u)
    (cmd = 1 → quiet → b.memReady = true → b.armFails (2 ^ u.val) = 0 → ∃ t, exec (.unitArm u v) s = .next t ∧ armed t ∧
      t = { s with body := { b with regs := t.body.regs, scope := t.body.scope } } ∧ regsBut [U_STATUS u, RATE_USED] s t) ∧
    (cmd = 1 → quiet → b.memReady = false ∨ b.armFails (2 ^ u.val) ≠ 0 → sets (.unitArm u v) s no) ∧
    (cmd = 0 → exec (.unitArm u v) s = .next s) ∧ (cmd = 3 ∨ 5 ≤ cmd → sets (.unitArm u v) s no) ∧
    (cmd = 2 → quiet → (b.uLive u = false ∨ ∀ h ∈ b.host.rings.entries, h.2.descs = []) → ∃ t, exec (.unitDisarm u v) s = .next t ∧ off t ∧
      t = { s with body := { b with regs := t.body.regs, scope := t.body.scope } } ∧ regsBut [U_STATUS u, RATE_USED] s t) ∧
    (cmd = 4 → quiet → fill → ∃ t, exec (.unitForce u v) s = .next t ∧ t = { s with body := { b with scope := t.body.scope } } ∧ forced t) ∧
    (cmd = 4 → quiet → ¬ fill → sets (.unitForce u v) s no) ∧
    (ready → op = 0 → b.armFails (2 ^ u.val) = 0 → ∃ t, exec (.scopeArm r seq) s = .next t ∧ armed t ∧
      t.body.findDesc r q = some { d with st := .active, deadline := if d.fld 16 64 = 0 then none else some (c.cyc + d.fld 16 64) } ∧
      (t.body.hring r).recs = (b.hring r).recs ∧ regsBut [U_STATUS u, RATE_USED] s t) ∧
    (ready → op = 0 → b.armFails (2 ^ u.val) ≠ 0 → endsWith (.scopeArm r seq) s r d 0xA (BitVec.ofNat 32 (b.armFails (2 ^ u.val))) 0) ∧
    (readyDesc b r q 12 d → 2 < op → endsWith (.scopeArm r seq) s r d 2 0 0) ∧
    (readyDesc b r q 12 d → b.memReady = false → (op = 0 → endsWith (.scopeArm r seq) s r d 5 0 0) ∧
      (op = 1 → endsWith (.scopeDisarm r seq) s r d 5 0 0) ∧ (op = 2 → endsWith (.scopeForce r seq) s r d 5 0 0)) ∧
    (ready → op = 1 → b.uLive u = false → ∃ t, exec (.scopeDisarm r seq) s = .next t ∧ off t ∧ endsDesc b t.body c r d 0 0 0 ∧
      regsBut [U_STATUS u, RATE_USED] s t) ∧
    (ready → op = 2 → fill → ∃ t, exec (.scopeForce r seq) s = .next t ∧ forced t ∧ endsDesc b t.body c r d 0 0 0 ∧
      t = { s with body := { b.withRings t.body with scope := t.body.scope } }) ∧
    (ready → op = 2 → ¬ fill → ∃ t, exec (.scopeForce r seq) s = .next t ∧ endsDesc b t.body c r d 0xA (BitVec.ofNat 32 (2 ^ u.val)) 0 ∧
      regsBut [U_STATUS u, SCOPE_STATUS] s t) ∧
    (∀ (pts : List ScopePt) (miss : Int) (rest : List ScopeBuf), live → x.buf = .line pts miss :: rest →
      (rest = [] ∨ ∃ p m r2, rest = .line p m :: r2) → b.mcFail (b.mcOf addr).1 = false →
      let new := pts.map (b.formPoint u (b.uSrc u) x.a)
      let held := (x.pts ++ new).filter (fun p => decide (low * n ≤ p.idx))
      let hit := (b.trigTest u x held new).2.2
      let written := fun (t : State) => exec (.scopeLine u x.k x.next) s = .next t ∧ others t ∧ t.clock = c ∧ regsBut [U_STATUS u] s t ∧
        t.mem.line (b.devKey addr) = packLine (lineOf (b.uSrc u) x.a new) false false (new.any (·.stale)) ∧
        (t.body.unit u).next = x.next + 1 ∧ (t.body.unit u).pts = held
      new.find? (·.forced) = none →
      (hit = none → ∃ t, written t ∧ (t.body.unit u).buf = rest ∧ (t.body.unit u).trig = x.trig ∧
        t.body.uState u = if pre ≤ x.next + 1 - x.first then 2 else b.uState u) ∧
      (∀ p, hit = some p → x.next < p.idx / n + b.rfld (U_POST u) 0 16 - 1 → ∃ t g, written t ∧ t.body.uState u = 3 ∧
        (t.body.unit u).trig = some g ∧ g.pt = p ∧ g.forced = false ∧ g.first = max low (p.idx / n - pre))) ∧
    (∀ k l : Nat, x.buf = [] ∨ b.capturing u = false ∨ k ≠ x.k ∨ l ≠ x.next → exec (.scopeLine u k l) s = .next s) ∧
    (∀ done : Nat, (x.take + 1) * n * 2 ^ x.a ≤ done → n ≤ x.cur.length →
      let t := b.closeLine u done
      (x.lines < 32 → t = b.setUnit u { x with take := x.take + 1, cur := x.cur.drop n, buf := x.buf ++ [.line (x.cur.take n) x.miss] }) ∧
      (32 ≤ x.lines → t.rget SCOPE_OVERRUN_COUNT = satInc (b.rget SCOPE_OVERRUN_COUNT) 1 ∧ t.rbit (U_STATUS u) 10 = true ∧
        t.rbit SCOPE_STATUS 10 = true ∧ (t.unit u).take = x.take + 1 ∧ (t.unit u).cur = x.cur.drop n ∧ (t.unit u).buf.getLast? = some .over)) ∧
    (quiet → exec (.scopeRecordEnd u) s = .next s) ∧
    (∀ e rest, x.ends = e :: rest → e.bytes.length = 64 → b.mcFail (b.mcOf e.addr).1 = false → (∀ h ∈ b.host.rings.entries, h.2.descs = []) →
      ∃ t, exec (.scopeRecordEnd u) s = .next t ∧ others t ∧ t.body.unit u = { x with ends := rest } ∧ regsBut [U_STATUS u, RATE_USED] s t ∧
        t.mem.bytes (b.devKey e.addr) 64 = e.bytes ∧ t.body.rfld (U_STATUS u) 16 16 = (b.rfld (U_STATUS u) 16 16 + 1) % 2 ^ 16 ∧
        t.body.uState u = if e.stop then 5 else if e.last then 4 else b.uState u)

/-- Device memory, host resets and BAR2 (R262 to R264, R299 to R306, R323). -/
def Obligations.MemoryAndHostResets : Prop :=
  ∀ (pop : BitVec 4) (den : Fin 6) (speed k : Fin 4) (mon par : Bool) (l : BitVec 512) (o : BitVec 28) (s : State),
    let b := s.body
    let mib := [7168, 10752, 14336, 21504, 28672, 43008].getD den.val 0
    let count := if pop = 1 then 1 else if pop = 3 then 2 else 4
    let place := 64 * b.scrubAt
    let at_ := place % b.mcSize
    let key := mcKey k at_
    let scrub := b.rbit MEM_CTL 0 = true ∧ (b.rget GOV_STATUS).extractLsb' 10 3 < 3 ∧ b.memReady = true ∧ b.mcFail k = false ∧ k.val = place / b.mcSize
    let last := decide (b.usable ≤ place + 64)
    let read : Instr := .scrubRead k at_ last
    let after := if last then 0 else b.scrubAt + 1
    let hits := ((b.mcHits.get [] k).filter (fun t => decide (s.clock.cyc < t + 1000000))).length
    let a := b.rfld BAR2_WIN 0 12 * 2 ^ 28 + o.toNat
    let win := b.memReady = true ∧ a + 64 ≤ b.usable ∧ a % 64 = 0 ∧ b.mcFail (b.mcOf a).1 = false
    (b.memReady = false → pop = 1 ∨ pop = 3 ∨ pop = 15 → b.rbit FLT_STATUS 5 = true → speed.val ≤ b.rfld BOOT_MEMCFG 0 2 →
      ∃ t, exec (.memTrainingDone pop den speed) s = .next t ∧ t = { s with body := { b with regs := t.body.regs } } ∧
        regsBut ([MEM_CFG, USABLE_MIB, MEM_STATUS] ++ (List.range 4).map MC_STATUS) s t ∧ t.body.rget USABLE_MIB = BitVec.ofNat 32 (count * mib) ∧
        t.body.rget MEM_CFG = 0#22 ++ BitVec.ofNat 2 speed ++ BitVec.ofNat 4 den ++ pop ∧ t.body.rget MEM_STATUS = b.rget MEM_STATUS ||| 1 ∧
        ∀ i : Nat, i < 4 → t.body.rbit (MC_STATUS i) 0 = pop.getLsbD i ∧ t.body.rbit (MC_STATUS i) 1 = false) ∧
    (b.memReady = true ∨ b.rfld BOOT_MEMCFG 0 2 < speed.val → exec (.memTrainingDone pop den speed) s = .next s) ∧
    (exec .driftTrack s = .next s) ∧
    (scrub → s.mem.errAt key = 0 → ∃ t, exec read s = .next t ∧
      t = { s with body := { b with regs := t.body.regs, log := t.body.log, scrubAt := after } } ∧
      regsBut [SCRUB_PASS] s t ∧ t.body.rget SCRUB_PASS = satInc (b.rget SCRUB_PASS) (if last then 1 else 0)) ∧
    (scrub → s.mem.errAt key = 1 → ∃ t, exec read s = .next t ∧ t.mem = { s.mem with err := t.mem.err } ∧ t.mem.errAt key = 0 ∧
      t.body.rget ECC_CORR_COUNT = satInc (b.rget ECC_CORR_COUNT) 1 ∧ t.body.scrubAt = after) ∧
    (scrub → s.mem.errAt key = 2 → ∃ t, exec read s = .next t ∧ onlyBody s t ∧ t.body.scrubAt = after ∧
      t.body.rget ECC_UNCORR_COUNT = satInc (b.rget ECC_UNCORR_COUNT) 1 ∧ t.body.rbit MEM_STATUS 13 = true ∧
      (at_ ∈ b.badLines.get [] k → t.body.host = b.host ∧ t.body.badLines = b.badLines)) ∧
    (b.rbit MEM_CTL 0 = false ∨ b.memReady = false ∨ 3 ≤ (b.rget GOV_STATUS).extractLsb' 10 3 → exec read s = .next s) ∧
    (∀ (off : Nat) (e : Bool), k.val ≠ place / b.mcSize ∨ off ≠ at_ ∨ e ≠ last → exec (.scrubRead k off e) s = .next s) ∧
    (b.mcFail k = false → b.memReady = false ∨ b.rbit MEM_CFG k = true → mon = true ∨ par = true ∨ 16 ≤ hits →
      ∃ t, exec (.interfaceFail k mon par) s = .next t ∧ onlyBody s t ∧
      t.body.mcFail k = true ∧ t.body.rbit MEM_STATUS 14 = true ∧ t.body.rbit (MC_STATUS k) 2 = true ∧ t.body.rbit FLT_STATUS (20 + k) = true ∧
      t.body.badLines.get [] k = [] ∧
      (∀ key : Nat, key < 256 → ∀ y, (b.fifo (key / 16) (key % 16)).bind = some y → y.lost = false → y.unbind = none →
        b.touches y.stageBase (64 * 2 ^ y.stageLog) k = true → ∃ z, (t.body.fifo (key / 16) (key % 16)).bind = some z ∧ z.lost = true ∧ z.staged = [] ∧
          t.body.rget (FIFO_STAGED (key / 16) (key % 16)) = 0) ∧
      ∀ key : Nat, key < 256 → (∀ y, (b.fifo (key / 16) (key % 16)).bind = some y → y.lost = true ∨ b.touches y.stageBase (64 * 2 ^ y.stageLog) k = false) →
        t.body.fifo (key / 16) (key % 16) = b.fifo (key / 16) (key % 16)) ∧
    (b.mcFail k = true ∨ (b.memReady = true ∧ b.rbit MEM_CFG k = false) ∨ (mon = false ∧ par = false ∧ hits < 16) →
      exec (.interfaceFail k mon par) s = .next s) ∧
    (∃ t, exec .hostReset s = .next t ∧ onlyBody s t ∧ (∀ r, t.body.hring r = .reset) ∧ t.body.host.landings = [] ∧ t.body.host.nextTick = none ∧
      t.body.mcLoads = [] ∧ t.body.cal.queue = b.cal.queue.filter (fun q => q.desc.isNone) ∧
      (∀ i : Nat, 0x10000 ≤ i → i < 0x20000 → t.body.rget i = resetVal i) ∧
      (∀ key : Nat, key < 256 → ∀ y, (b.fifo (key / 16) (key % 16)).bind = some y → y.unbind = none →
        ∃ z, (t.body.fifo (key / 16) (key % 16)).bind = some z ∧ z.host = false ∧ z.staged = y.copied ++ y.staged ∧ z.copied = [] ∧ z.rec_ = none ∧
          t.body.rget (FIFO_HOST_USED (key / 16) (key % 16)) = 0) ∧
      ∀ key : Nat, key < 256 → (b.fifo (key / 16) (key % 16)).bind = none → t.body.fifo (key / 16) (key % 16) = b.fifo (key / 16) (key % 16)) ∧
    (b.memReady = false ∨ b.usable < a + 64 → exec (.bar2Access false o 64 []) s = .next { s with body := b.emitOut .unsupported }) ∧
    (win → ∃ t, exec (.bar2Access true o 0 (lineBytes l)) s = .next t ∧ t.mem.line (b.devKey a) = l ∧
      t = { s with mem := { s.mem with dev := t.mem.dev, err := t.mem.err }, body := { b with log := t.body.log, badLines := t.body.badLines } } ∧
      ∀ q, q < b.devKey a ∨ b.devKey a + 64 ≤ q → t.mem.byte q = s.mem.byte q) ∧
    (win → s.mem.errAt (b.devKey a) = 0 → ∃ t, exec (.bar2Access false o 64 []) s = .next t ∧
      t = { s with body := { b with log := t.body.log, out := b.out ++ [.bar2 (lineBytes (s.mem.line (b.devKey a)))] } }) ∧
    (win → s.mem.errAt (b.devKey a) = 2 → ∃ t, exec (.bar2Access false o 64 []) s = .next t ∧ t.mem = s.mem ∧ t.body.out = b.out ++ [.poisoned] ∧
      t.body.rbit MEM_STATUS 13 = true)

/-! ### Events, power, temperatures, faults -/

/-- The event router and its pins (R325 to R337). -/
def Obligations.EventRouter : Prop :=
  ∀ (g : Fin 192) (p k : Fin 8) (v : Reg32) (hi rising ilk : Bool) (e : RouterEv) (s : State),
    let b := s.body
    let c := s.clock
    let lin := e.lin ||| BitVec.ofNat 64 (2 ^ e.ch)
    let base := if hi then 32 else 0
    let fired := fun (x : RouterEv) => x.due = c.cyc + 2 ∧ ∃ n : Nat, n < 32 ∧ v.getLsbD n = true ∧ x.ch = base + n
    let due := b.evt.flight = [e] ∧ e.due ≤ c.cyc ∧ e.ch < 64
    let level := (∃ q : Nat, q < 8 ∧ b.rbit (LEG_CFG k) q = true ∧ b.rfld (TRG_CFG q) 0 2 = 0 ∧ b.evt.trg.getLsbD q ≠ b.rbit (TRG_CFG q) 10) ∨
      (b.rbit (LEG_CFG k) 8 = true ∧ ilk = true) ∨ (b.rbit (LEG_CFG k) 9 = true ∧ b.rbit LEG_SW k = true)
    let high := b.rbit LEG_STATUS k = true
    let safe := b.rbit (LEG_CFG k) 14 = true
    let rise := level ∧ ¬ high ∧ b.pwr.mode ≠ .off ∧ b.cal.runs = []
    let still := fun (t : State) => regsBut [LEG_STATUS] s t ∧ t = { s with body := { b with regs := t.body.regs, evt := { b.evt with ilk := ilk } } } ∧
      t.body.rbit LEG_STATUS 16 = ilk ∧ (t.body.rget LEG_STATUS).extractLsb' 0 16 = (b.rget LEG_STATUS).extractLsb' 0 16
    let up := rising != b.rbit (TRG_CFG p) 10
    let edge := b.rfld (TRG_CFG p) 0 2 = 0 ∧ b.rbit (TRG_CFG p) (if up then 2 else 3) = true
    (∃ t, exec (.evFire hi v) s = .next t ∧ t = { s with body := { b with evt := { b.evt with flight := t.body.evt.flight } } } ∧
      (∀ n : Nat, n < 32 → v.getLsbD n = true → ∃ x ∈ t.body.evt.flight, x.ch = base + n ∧ x.due = c.cyc + 2 ∧ x.imported = false ∧
        ((∀ y ∈ b.evt.flight, ¬ fired y) → x.lin = 0)) ∧
      ∀ x, ¬ fired x → (x ∈ t.body.evt.flight ↔ x ∈ b.evt.flight)) ∧
    ((∀ x ∈ b.evt.flight, c.cyc < x.due) → exec .eventDelivery s = .next s) ∧
    (due → ∃ t, exec .eventDelivery s = .next t ∧ onlyBody s t ∧ t.body.rget (CH_COUNT e.ch) = satInc (b.rget (CH_COUNT e.ch)) 1 ∧
      (e.ch, lin) ∈ t.body.log.delivered ∧
      (∀ i n : Nat, i < 192 → n < 3 → b.tiSeen (4 * i + n) = none → b.tiPending (4 * i + n) = none →
        t.body.tiPending (4 * i + n) = if b.subscribes i n e.ch = true then some ⟨e.ch, lin, 0⟩ else none) ∧
      (∀ i n y, i < 192 → n < 3 → b.tiSeen (4 * i + n) = none → b.tiPending (4 * i + n) = some y → t.body.tiPending (4 * i + n) = some y) ∧
      (b.rfld (TRG_CFG p) 0 2 = 1 → b.rfld (TRG_CFG p) 4 6 = e.ch →
        let was := b.evt.marker.get [] p
        ((∀ x ∈ was, x.2 < c.cyc + 6) → t.body.evt.marker.get [] p = was ++ [(c.cyc + 6, c.cyc + 6 + b.rfld (TRG_CFG p) 16 8)]) ∧
        (∀ x, was = [x] → c.cyc + 6 ≤ x.2 → t.body.evt.marker.get [] p = [(x.1, c.cyc + 6 + b.rfld (TRG_CFG p) 16 8)])) ∧
      (b.chBit EV_EXPORT_LO EV_EXPORT_HI e.ch = true → e.imported = false → b.ring.evOut.length < 32 →
        t.body.ring.evOut = b.ring.evOut ++ [⟨e.ch, lin, c.short⟩]) ∧
      (e.imported = true → t.body.ring = b.ring) ∧
      ∀ r : Nat, r < 16 → b.rbit (REPUB_CFG r) 12 = true → b.rfld (REPUB_CFG r) 0 6 = e.ch →
        (lin.getLsbD (b.rfld (REPUB_CFG r) 6 6) = false → ∃ x ∈ t.body.evt.flight, x.ch = b.rfld (REPUB_CFG r) 6 6 ∧ x.due = c.cyc + 2) ∧
        (lin.getLsbD (b.rfld (REPUB_CFG r) 6 6) = true → t.body.rbit EV_STATUS 9 = true)) ∧
    (∃ t, exec (.tiClr g v) s = .next t ∧ regsBut [TI_STAT g] s t ∧
      t = { s with body := { b with regs := t.body.regs, evt := { b.evt with ti := t.body.evt.ti } } } ∧
      t.body.rget (TI_STAT g) = b.rget (TI_STAT g) &&& ~~~(0xFF00 &&& v &&& ~~~(b.log.sets.get 0 (TI_STAT g))) ∧
      ∀ i : Nat, t.body.tiPending i = if v.getLsbD 16 = true ∧ i / 4 = g.val then none else b.tiPending i) ∧
    (∃ t, exec (.trgEdge p rising) s = .next t ∧ t.body.evt.trg.getLsbD p = rising ∧ (∀ q : Nat, q ≠ p.val → t.body.evt.trg.getLsbD q = b.evt.trg.getLsbD q) ∧
      t = { s with body := { b with evt := { b.evt with trg := t.body.evt.trg, flight := t.body.evt.flight } } } ∧
      t.body.evt.flight = if edge then mergeFlight ⟨b.rfld (TRG_CFG p) 4 6, 0, c.cyc + 3, false⟩ b.evt.flight else b.evt.flight) ∧
    (∃ t, exec (.markerEnd p) s = .next t ∧
      t = { s with body := { b with evt := { b.evt with marker := t.body.evt.marker } } } ∧
      t.body.evt.marker.get [] p = (b.evt.marker.get [] p).filter (fun x => decide (c.cyc < x.2)) ∧
      ∀ q : Nat, q ≠ p.val → t.body.evt.marker.get [] q = b.evt.marker.get [] q) ∧
    (b.rfld (TRG_CFG p) 0 2 = 1 → b.rbit (TRG_CFG p) 10 = false →
      (b.trgPin c p = some true ↔ c.on = true ∧ ∃ x ∈ b.evt.marker.get [] p, x.1 ≤ c.cyc ∧ c.cyc < x.2)) ∧
    (rise → ¬ safe → b.rbit (LEG_CFG k) 15 = false ∨ (b.pwr.mode ≠ .neap ∧ b.pwr.mode ≠ .entry) → ∃ t, exec (.legacyRise k ilk) s = .next t ∧ regsBut [LEG_STATUS] s t ∧
      t = { s with body := { b with regs := t.body.regs, log := t.body.log, evt := { b.evt with ilk := ilk, flight := t.body.evt.flight } } } ∧
      t.body.rbit LEG_STATUS k = true ∧ t.body.rbit LEG_STATUS (8 + k) = true ∧ t.body.rbit LEG_STATUS 16 = ilk ∧
      t.body.evt.flight = if b.rbit (LEG_CFG k) 22 = true ∧ c.on = true then mergeFlight ⟨b.rfld (LEG_CFG k) 16 6, 0, c.cyc + 3, false⟩ b.evt.flight
        else b.evt.flight) ∧
    (rise → safe → ∃ t, exec (.legacyRise k ilk) s = .next t ∧ onlyBody s t ∧ t.body.rbit EV_STATUS 19 = true ∧ t.body.rbit LEG_STATUS (8 + k) = true ∧
      ∀ j : Nat, j < 4 → b.rbit (LEG_CFG k) (10 + j) = true → t.body.evt.safeTiles.getLsbD j = true ∧
        (∀ i : Nat, i < 16 → t.body.rbit (PORT_CTL (16 * j + i)) 0 = false) ∧ ∀ i : Nat, i < 8 → t.body.rbit (FLX_CTL (8 * j + i)) 0 = false) ∧
    (rise → b.rbit (LEG_CFG k) 15 = true → b.pwr.mode = .neap → ∃ t, exec (.legacyRise k ilk) s = .next t ∧ onlyBody s t ∧ t.body.pwr.mainEn = true ∧
      t.body.rget WAKE_CAUSE = b.rget WAKE_CAUSE ||| BitVec.ofNat 32 (2 + 2 ^ (8 + k.val))) ∧
    (¬ level ∨ high ∨ b.pwr.mode = .off → ∃ t, exec (.legacyRise k ilk) s = .next t ∧ still t) ∧
    (level ∨ ¬ high → ∃ t, exec (.legacyFall k ilk) s = .next t ∧ still t) ∧
    (¬ level → high → b.evt.safeTiles = b.tilesHeld → ∃ t, exec (.legacyFall k ilk) s = .next t ∧ regsBut [LEG_STATUS, EV_STATUS] s t ∧
      t = { s with body := { b with regs := t.body.regs, evt := { b.evt with ilk := ilk, safeTiles := t.body.evt.safeTiles } } } ∧
      t.body.rbit LEG_STATUS k = false ∧ t.body.rbit LEG_STATUS (8 + k) = b.rbit LEG_STATUS (8 + k) ∧
      (∀ j : Nat, j < 4 → (t.body.evt.safeTiles.getLsbD j = true ↔
        ∃ q : Nat, q < 8 ∧ q ≠ k.val ∧ b.rbit LEG_STATUS q = true ∧ b.rbit (LEG_CFG q) 14 = true ∧ b.rbit (LEG_CFG q) (10 + j) = true)) ∧
      (t.body.rbit EV_STATUS 19 = true ↔ ∃ q : Nat, q < 8 ∧ q ≠ k.val ∧ b.rbit LEG_STATUS q = true ∧ b.rbit (LEG_CFG q) 14 = true))

/-- Power states and resets (R378 to R395). The registers of the island are those of R400 and the legacy channels. -/
def Obligations.PowerStates : Prop :=
  ∀ (v : Reg32) (aged link frame : Bool) (clk : BitVec 3) (errTt : BitVec 36) (errs : Nat) (rail : Fin 17) (s : State),
    let b := s.body
    let c := s.clock
    let w := b.pwr.mode
    let kept := [NEAP_CFG, WAKE_CAUSE, LEG_SW] ++ (List.range 8).map TRG_CFG ++ (List.range 8).map LEG_CFG
    let free := ∀ k : Nat, k < 8 → b.rbit LEG_STATUS k = false ∨ b.rbit (LEG_CFG k) 14 = false
    let calm := b.fuseWr = none ∧ free
    let seenOff := b.rget LEG_STATUS &&& 0xFFFF00FF
    let island := fun (t : State) (p : PwrSt) (leg : Reg32) (out : List OutItem) => t.pending = s.pending ∧ t.body.pwr = p ∧ t.body.out = out ∧
      t.body.free = b.free ∧ (∀ k ∈ kept, t.body.rget k = b.rget k) ∧ t.body.rget LEG_STATUS = leg ∧
      (∀ k, k ∉ kept → k ≠ LEG_STATUS → t.body.rget k = resetVal k) ∧
      t.body = { Body.reset with regs := t.body.regs, evt := { EvtSt.reset with trg := b.evt.trg, ilk := b.evt.ilk }, pwr := p, out := out, free := b.free }
    let clock := fun (t : State) (on : Bool) => t.clock = { Clock.reset with on := on }
    let mem := fun (t : State) (keep : Bool) => t.mem.onDie = .empty ∧ t.mem.fuse = s.mem.fuse ∧ t.mem.dev = (if keep then s.mem.dev else .empty) ∧
      ∀ a : Nat, t.mem.errAt a = if keep = true ∧ a < 0xF000000000 then s.mem.errAt a else 0
    let shown := fun (t : State) => t.body.rget LEG_STATUS = (if b.evt.ilk then 0x10000 else 0) ∧ ∀ k, k ≠ LEG_STATUS → t.body.rget k = resetVal k
    let out := b.out ++ [.smbus 0 true]
    let reset := fun (i : Instr) (on keep : Bool) (p : PwrSt) (o : List OutItem) => ∃ t, exec i s = .next t ∧ island t p seenOff o ∧ clock t on ∧ mem t keep
    let cold := b.pwr.mainEn = true ∧ (w = .vaux ∨ w = .neap ∨ w = .shut)
    let key := v.getLsbD 0 = true ∧ v.extractLsb' 16 16 = 0x7192#16
    let may := b.gridRun = false ∧ b.fuseWr = none ∧ b.cal.runs = [] ∧ b.mcLoads = [] ∧
      ∀ k : Nat, k < 8 → b.rbit LEG_STATUS k = false ∨ b.rbit (LEG_CFG k) 15 = false
    let entered := fun (t : State) => onlyBody s t ∧ t.body.pwr.mode = .entry ∧ c.cyc < t.body.pwr.entryEnd ∧ t.body.pwr.entryEnd ≤ c.cyc + 2000000 ∧
      t.body.rget WAKE_CAUSE = 0 ∧ t.body.rbit HST_STATUS 0 = false ∧ t.body.rbit RING_CTL 6 = false ∧ t.body.rget LEG_STATUS = seenOff ∧
      (∀ r, t.body.hring r = .reset) ∧ (∀ k : Nat, k < 80 → t.body.rbit (PORT_CTL k) 0 = false) ∧
      (∀ k : Nat, k < 4 → b.rbit MEM_CFG k = true → t.body.rbit (MC_STATUS k) 1 = true) ∧
      (∀ k : Nat, k < 32 → t.body.rbit (FLX_CTL k) 0 = false) ∧ ∀ k : Nat, k < 16 → t.body.rbit (RCV_CTL k) 0 = false ∧ t.body.rbit (BIAS_CTL k) 0 = false
    let woke := fun (t : State) (cause : Reg32) => t.body.pwr.mainEn = true ∧ t.body.pwr.mode = .neap ∧ regsBut [WAKE_CAUSE] s t ∧
      t.body.rget WAKE_CAUSE = b.rget WAKE_CAUSE ||| cause
    let pwrOnly := fun (i : Instr) (p : PwrSt) (o : List OutItem) => exec i s = .next { s with body := { b with pwr := p, out := o } }
    (b.fuseWr = none → ∃ t, exec .powerOn s = .next t ∧ clock t false ∧ mem t false ∧ t.pending = s.pending ∧
      shown t ∧ t.body = { Body.reset with regs := t.body.regs, evt := { EvtSt.reset with trg := b.evt.trg, ilk := b.evt.ilk }, pwr := { PwrSt.reset with mode := .vaux, mainEn := true, perst := b.pwr.perst, rails := 0x10000 }, out := b.out, free := b.free }) ∧
    (b.fuseWr = none → ∃ t, exec .lossOfVaux s = .next t ∧ clock t false ∧ mem t false ∧ t.pending = s.pending ∧
      shown t ∧ t.body = { Body.reset with regs := t.body.regs, evt := { EvtSt.reset with trg := b.evt.trg, ilk := b.evt.ilk }, pwr := { PwrSt.reset with mode := .off, mainEn := false, perst := b.pwr.perst, rails := 0 }, out := b.out, free := b.free }) ∧
    (cold → free → ∃ t, exec .coldStart s = .next t ∧ clock t (! b.pwr.perst) ∧ mem t (w == .neap) ∧
      island t { b.pwr with mode := .on, rails := 0x1FFFF, wake := none, refused := false } (b.rget LEG_STATUS) b.out) ∧
    (¬ cold → exec .coldStart s = .next s) ∧
    (key → w = .on → calm → reset (.deviceReset v) (! b.pwr.perst) true b.pwr b.out) ∧
    (key → w ≠ .on → w ≠ .entry → exec (.deviceReset v) s = .next s) ∧ (¬ key → refusedAt (.deviceReset v) s GLB_STATUS) ∧
    (key → w = .entry → free → ∃ t, exec (.deviceReset v) s = .next t ∧ clock t false ∧ mem t true ∧
      island t { b.pwr with mode := .neap, mainEn := false, rails := 0x10008 } seenOff b.out) ∧
    (w = .on → calm → reset .reset (! b.pwr.perst) true b.pwr out) ∧ (w = .off → exec .reset s = .next s) ∧
    (w ≠ .off → w ≠ .on → w ≠ .entry → pwrOnly .reset b.pwr out) ∧
    (w = .on → calm → reset .perstAssert false true { b.pwr with perst := true } b.out) ∧
    (w ≠ .on → w ≠ .entry → pwrOnly .perstAssert { b.pwr with perst := true } b.out) ∧
    (w = .entry → free → ∃ t, exec .perstAssert s = .next t ∧ clock t false ∧ mem t true ∧
      island t { b.pwr with perst := true, mode := .neap, mainEn := false, rails := 0x10008 } seenOff b.out) ∧
    (b.pwr.perst = false → exec (.perstDeassert aged) s = .next s) ∧
    (b.pwr.perst = true → w = .on → exec (.perstDeassert aged) s =
      .next { s with clock := { Clock.reset with on := true }, body := { b with pwr := { b.pwr with perst := false } } }) ∧
    (b.pwr.perst = true → w = .neap → b.rbit NEAP_CFG 1 = true → ∃ t, exec (.perstDeassert aged) s = .next t ∧ onlyBody s t ∧ woke t 4) ∧
    (b.pwr.perst = true → w = .shut → pwrOnly (.perstDeassert aged) { b.pwr with perst := false, mainEn := b.pwr.mainEn || aged } b.out) ∧
    (w = .off → exec (.railFault rail link frame clk errTt errs) s = .next s) ∧
    (w = .on → rail.val < 3 → calm → ∃ t p, exec (.railFault rail link frame clk errTt errs) s = .next t ∧ clock t false ∧ mem t false ∧
      island t p seenOff b.out ∧ p.mode = .vaux ∧ p.mainEn = b.pwr.mainEn ∧ p.perst = b.pwr.perst ∧ p.rails.getLsbD rail = false ∧
      ∀ k : Nat, k ≠ rail.val → p.rails.getLsbD k = b.pwr.rails.getLsbD k) ∧
    (w = .on → c.on = true → 4 ≤ rail.val → rail.val < 16 → ∃ t, exec (.railFault rail link frame clk errTt errs) s = .next t ∧ onlyBody s t ∧
      t.body.rbit PMC_STATUS 9 = true ∧ t.body.rbit (FLT_STATUS) (16 + (rail.val - 4) % 4) = true ∧ t.body.pwr.rails.getLsbD rail = false) ∧
    (v.getLsbD 0 = true → w = .on → may → ∃ t, exec (.neapReq v) s = .next t ∧ entered t ∧ t.body.out = b.out) ∧
    (v.getLsbD 0 = true → w = .on → ¬ may → refusedAt (.neapReq v) s PMC_STATUS) ∧
    (v.getLsbD 0 = false ∨ w ≠ .on → exec (.neapReq v) s = .next s) ∧
    (w = .on → c.on = true → may → ∃ t, exec .neap s = .next t ∧ entered t ∧ t.body.out = out) ∧
    (w = .on → c.on = true → ¬ may → ∃ t, exec .neap s = .next t ∧ regsBut [PMC_STATUS] s t ∧ t.body.rbit PMC_STATUS 8 = true ∧
      t = { s with body := { b with regs := t.body.regs, log := t.body.log, out := out, pwr := { b.pwr with refused := true } } }) ∧
    (w ≠ .off → w ≠ .on → pwrOnly .neap b.pwr out) ∧ (w = .off → exec .neap s = .next s) ∧
    (∀ x : Nat, w = .neap → b.pwr.wake = some x → ∃ t, exec .neapExit s = .next t ∧ onlyBody s t ∧ woke t (BitVec.ofNat 32 x) ∧ t.body.pwr.wake = none) ∧
    (w ≠ .neap ∨ b.pwr.wake = none → exec .neapExit s = .next s) ∧
    (w = .neap → b.rbit NEAP_CFG 0 = true → ∃ t, exec (.wake aged) s = .next t ∧ onlyBody s t ∧ woke t 1 ∧ t.body.out = out) ∧
    (w = .neap → b.rbit NEAP_CFG 0 = false → pwrOnly (.wake aged) b.pwr out) ∧
    (w = .shut → pwrOnly (.wake aged) { b.pwr with mainEn := b.pwr.mainEn || aged } out) ∧ (w = .off → exec (.wake aged) s = .next s)

/-- Boot (R383 to R385, R433) and the SMBus port (R391). The identity comes with the command (log entry 11). -/
def Obligations.BootAndPort : Prop :=
  ∀ (v : Reg32) (refA refB al romOk order : Bool) (serial : BitVec 64) (date : BitVec 14) (straps : BitVec 3) (temps : List (BitVec 11)) (off : Nat)
    (l : List Byte) (leg : BitVec 8) (s : State),
    let b := s.body
    let c := s.clock
    let st := b.rfld BOOT_STATUS 0 8
    let boot : Instr := .boot refA refB al romOk serial date order straps temps
    let verdict := fun (t : State) (x : Nat) => onlyBody s t ∧ t.body.rfld BOOT_STATUS 0 8 = x
    let refs := fun (t : State) => t.body.rbit FLT_STATUS 0 = refA ∧ t.body.rbit FLT_STATUS 1 = refB ∧ t.body.rbit FLT_STATUS 3 = (al && refA && refB) ∧
      t.body.rbit FLT_STATUS 4 = (! refA && ! refB) ∧ t.body.rget GLB_STRAPS = straps.setWidth 32 ∧
      t.body.rbit FLT_STATUS 2 = (if (if b.rbit FLT_CTL 0 then refB else refA) then b.rbit FLT_CTL 0 else ! b.rbit FLT_CTL 0)
    let hot := ∃ x ∈ temps, 880 - 8 * (b.rfld THM_CTL 0 4 : Int) ≤ x.toInt
    let read := fun (t : State) => (∀ k : Nat, k < 24 → t.body.rfld (TEMP k) 0 11 = (temps.getD k 0).toNat ∧ t.body.rbit (TEMP k) 15 = true ∧
        t.body.rbit (TEMP k) 14 = decide (720 ≤ (temps.getD k 0).toInt)) ∧
      ((¬ hot → t.body.rfld BOOT_STATUS 0 8 = 1) ∧ (hot → t.body.rfld BOOT_STATUS 0 8 = 0x86))
    let n := b.rfld BOOT_LEN 0 23
    let refuse := fun (i : Instr) (code : Nat) (ks : List Nat) => ∃ t, exec i s = .next t ∧ onlyRegs s t ∧ regsBut (BOOT_STATUS :: ks) s t ∧
      t.body.rfld BOOT_STATUS 0 8 = 1 ∧ t.body.rfld BOOT_STATUS 8 8 = code
    let fetched := c.on = true ∧ st = 2
    let answers := fun (i : Instr) (x : Nat) => exec i s = .next { s with body := { b with out := b.out ++ [.smbus x true] } }
    (c.on = true → st = 0 → refA = false → refB = false → ∃ t, exec boot s = .next t ∧ verdict t 0x80 ∧ refs t) ∧
    (c.on = true → st = 0 → refA = true ∨ refB = true → romOk = false → ∃ t, exec boot s = .next t ∧ verdict t 0x81 ∧ refs t) ∧
    (c.on = true → st = 0 → refA = true ∨ refB = true → romOk = true → temps.length = 24 → ∃ t, exec boot s = .next t ∧ onlyBody s t ∧ refs t ∧ read t ∧
      t.body.rget GLB_SERIAL_LO = serial.extractLsb' 0 32 ∧ t.body.rget GLB_SERIAL_HI = serial.extractLsb' 32 32 ∧
      t.body.rget GLB_DATE = date.setWidth 32 ∧ t.body.rbit GLB_ID 24 = order ∧ t.body.rbit GLB_STATUS 0 = true ∧
      (∀ k : Nat, k < 16 → t.body.rget (MC_VERSION k) = 0x80010000) ∧ ∀ k : Nat, k < 4 → t.body.rget (TILE_STATUS k) = 0xF) ∧
    (c.on = true → st = 0x86 → temps.length = 24 → ∃ t, exec boot s = .next t ∧ onlyBody s t ∧ read t) ∧
    (c.on = false ∨ (st ≠ 0 ∧ st ≠ 0x86) → exec boot s = .next s) ∧
    (v.getLsbD 0 = false → exec (.go v) s = .next s) ∧ (v.getLsbD 0 = true → st ≠ 1 → refusedAt (.go v) s GLB_STATUS) ∧
    (v.getLsbD 0 = true → st = 1 → b.rpair BOOT_ADDR_LO BOOT_ADDR_HI % 64 ≠ 0 ∨ n < 352 ∨ 4194592 < n → refuse (.go v) 0x82 [BOOT_DETAIL]) ∧
    (v.getLsbD 0 = true → st = 1 → b.rpair BOOT_ADDR_LO BOOT_ADDR_HI % 64 = 0 → 352 ≤ n → n ≤ 4194592 → ∃ t, exec (.go v) s = .next t ∧
      onlyRegs s t ∧ regsBut [BOOT_STATUS, BOOT_DETAIL] s t ∧ t.body.rget BOOT_DETAIL = 0 ∧ t.body.rfld BOOT_STATUS 0 8 = 2 ∧ t.body.rfld BOOT_STATUS 8 8 = 0) ∧
    (fetched → refuse (.fwCheckDone none off) 0x85 [BOOT_DETAIL]) ∧
    (fetched → fwForm l n = false ∨ l.take 4 ≠ [0x46, 0x42, 0x57, 0x48] → refuse (.fwCheckDone (some l) off) 0x82 []) ∧
    (fetched → fwForm l n = true → s.mem.keyOk (imgFld l 7 1 == 1) (imgKey l) = false → refuse (.fwCheckDone (some l) off) 0x83 []) ∧
    (fetched → fwForm l n = true → s.mem.keyOk (imgFld l 7 1 == 1) (imgKey l) = true →
      (imgSigned l (imgFld l 12 4) = false → refuse (.fwCheckDone (some l) off) 0x84 []) ∧
      (imgSigned l (imgFld l 12 4) = true → ∃ t, exec (.fwCheckDone (some l) off) s = .next t ∧ verdict t 4 ∧
        t.body.rget FW_VERSION = BitVec.ofNat 32 (imgFld l 8 4) ∧ t.body.rbit FLT_STATUS 5 = true ∧ t.body.thm.fwAt = c.cyc)) ∧
    (c.on = false ∨ st ≠ 2 → exec (.fwCheckDone (some l) off) s = .next s) ∧
    (st = 4 → b.rbit MEM_STATUS 0 = true → b.rbit FLT_STATUS 5 = true → ∃ t, exec .fwReady s = .next t ∧ onlyRegs s t ∧ regsBut [BOOT_STATUS] s t ∧
      t.body.rfld BOOT_STATUS 0 8 = 5 ∧ (t.body.rget BOOT_STATUS).extractLsb' 8 24 = (b.rget BOOT_STATUS).extractLsb' 8 24) ∧
    (st ≠ 4 ∨ b.rbit MEM_STATUS 0 = false ∨ b.rbit FLT_STATUS 5 = false → exec .fwReady s = .next s) ∧
    (b.pwr.mode = .off → ∀ i ∈ ([.readState, .readTemp, .readRails, .readLeg, .writeLegSw leg] : List Instr), exec i s = .next s) ∧
    (b.pwr.mode ≠ .off →
      (∃ t x, exec .readState s = .next t ∧ t = { s with body := { b with pwr := { b.pwr with refused := false }, out := b.out ++ [.smbus x true] } } ∧
        x = (match b.pwr.mode with | .neap => 2 | .shut => 3 | .entry => 4 | .on => (if st = 5 then 1 else 0) | _ => 0) + if b.pwr.refused then 128 else 0) ∧
      answers .readTemp (if b.pwr.mode = .on ∨ b.pwr.mode = .entry then b.rfld TEMP_MAX 0 16 else 0x8000) ∧
      answers .readRails (b.pwr.rails.extractLsb' 0 16).toNat ∧ answers .readLeg ((b.rget LEG_STATUS).extractLsb' 0 16).toNat ∧
      ∃ t, exec (.writeLegSw leg) s = .next t ∧ t = { s with body := { b with regs := t.body.regs, out := b.out ++ [.smbus 0 true] } } ∧
        regsBut [LEG_SW] s t ∧ t.body.rget LEG_SW = leg.setWidth 32)

/-- Temperatures and the Power Governor (R392 to R399); readings in eighths of a degree. -/
def Obligations.TemperaturesAndGovernor : Prop :=
  ∀ (k : Fin 24) (j : Fin 4) (T : BitVec 11) (temps : List (BitVec 11)) (rails : BitVec 17) (p : BitVec 16) (q : PortRef) (s : State),
    let b := s.body
    let c := s.clock
    let x := b.sensor k
    let h : Int := 8 * b.rfld THM_CTL 0 4
    let fast := c.on = true ∧ b.rbit FLT_STATUS 5 = true ∧ b.rbit THM_STATUS 3 = false
    let cool := T.toInt < 880 ∨ x.hi.2.2 < 3
    let smp := exec (.tempSample k T) s
    let fr := b.rfld HST_CTL 8 8
    let tr := b.thm.tiles.get .reset j
    let now := b.reading (16 + 2 * j.val) + b.reading (17 + 2 * j.val)
    let step := b.rfld GOV_STATUS 5 5
    let steps := fun (t : State) (n : Nat) => t.body.rfld GOV_STATUS 5 5 = n ∧ t.body.rfld GOV_STATUS 0 5 = max n (b.rfld GOV_CTL 0 5)
    let shed := b.rfld GOV_STATUS 10 3
    let lim := 3200 - 128 * b.rfld GOV_STATUS 0 5
    let low := p.toNat + 128 < lim ∧ ∃ t0 : Nat, b.thm.below = some t0 ∧ t0 + 100000000 ≤ c.cyc
    let parks := fun (key : Nat) => 4 ≤ shed ∧ b.rbit GOV_CTL 5 = true ∧ key ∉ b.thm.parked ∧ b.thm.busy.get 0 key + 10000000 ≤ c.cyc ∧
      (b.gridRun = true → b.inSlack c.now = true)
    (fast → cool → ∃ t, smp = .next t ∧ onlyBody s t ∧ t.body.rfld (TEMP k) 0 11 = T.toNat ∧ t.body.rbit (TEMP k) 15 = true ∧
      t.body.rbit (TEMP k) 14 = decide (720 ≤ T.toInt) ∧ (∀ i : Nat, i < 24 → i ≠ k.val → t.body.rget (TEMP i) = b.rget (TEMP i)) ∧
      (∃ m : Nat, m < 24 ∧ t.body.rbit (TEMP m) 15 = true ∧ t.body.rfld TEMP_MAX 0 16 = t.body.rfld (TEMP m) 0 16 ∧ t.body.rfld TEMP_MAX 16 5 = m ∧
        ∀ i : Nat, i < 24 → t.body.rbit (TEMP i) 15 = true → t.body.reading i < t.body.reading m ∨ (t.body.reading i = t.body.reading m ∧ m ≤ i)) ∧
      (760 ≤ T.toInt → x.hi.1 = 3 → T.toInt < 800 ∨ x.hi.2.1 < 3 → x.held = (false, false) → x.dwell = (none, none) →
        t.body.rfld (TEMP k) 11 2 = 1 ∧ t.body.rbit THM_STATUS 9 = true ∧ (t.body.sensor k).held = (true, false) ∧
        (b.rbit THM_CTL 16 = true → ∃ e ∈ t.body.evt.flight, e.ch = b.rfld THM_CTL 10 6 ∧ e.due = c.cyc + 2) ∧
        (b.faultRingOk = true → (b.hring fr).recs = [] → (t.body.hring fr).recs =
          [⟨0x81, 0, 0, 0, BitVec.ofNat 32 (0x10D + k.val * 2 ^ 16), BitVec.ofNat 64 (t.body.rnat (TEMP k)), c.tt.extractLsb' 32 64, false, none, none⟩])) ∧
      (800 ≤ T.toInt → x.hi.2.1 = 3 → x.held = (true, false) → x.dwell = (none, none) → b.rfld THM_STATUS 0 2 ≠ 2 → step < 16 →
        t.body.rfld (TEMP k) 11 2 = 2 ∧ t.body.rbit THM_STATUS 10 = true ∧ t.body.rfld THM_STATUS 0 2 = 2 ∧ steps t (step + 1) ∧
        t.body.thm.stepAt = c.cyc + 10000000) ∧
      (T.toInt < 760 - h → x.lo.1 = 3 → x.held = (true, false) → t.body.rfld (TEMP k) 11 2 = 0 ∧ t.body.rbit (TEMP k) 13 = true ∧
        (t.body.sensor k).held = (false, false) ∧ (t.body.sensor k).dwell.1 = some (c.cyc + 100000000))) ∧
    (fast → 880 ≤ T.toInt → 3 ≤ x.hi.2.2 → b.fuseWr = none → ∃ t, smp = .next t ∧ t.pending = s.pending ∧ t.clock = { Clock.reset with on := false } ∧
      t.mem.onDie = .empty ∧ t.mem.dev = .empty ∧ t.mem.fuse = s.mem.fuse ∧ t.body.pwr.mode = .shut ∧ t.body.pwr.mainEn = false ∧ t.body.pwr.rails = 0x10008 ∧
      (∀ r, t.body.hring r = .reset) ∧ t.body.rget LEG_STATUS = b.rget LEG_STATUS) ∧
    (c.on = false ∨ b.rbit FLT_STATUS 5 = false → smp = .next s) ∧
    (c.on = true → b.rbit FLT_STATUS 5 = true → b.rbit THM_STATUS 3 = true → setBit b.thm.seen k true ≠ 0xFFFFFF →
      smp = .next { s with body := { b with thm := { b.thm with last := c.cyc, seen := setBit b.thm.seen k true } } }) ∧
    (c.on = true → b.rbit FLT_STATUS 5 = true → b.rbit THM_STATUS 3 = true → setBit b.thm.seen k true = 0xFFFFFF → ∃ t, smp = .next t ∧ onlyBody s t ∧
      t.body.rbit THM_STATUS 3 = false ∧ t.body.rfld (TEMP k) 0 11 = T.toNat ∧ ∀ i : Nat, i < 24 → t.body.rbit (TEMP i) 15 = decide (i = k.val)) ∧
    (c.on = false → exec (.housekeeping temps rails) s = .next s) ∧
    (c.on = true → b.rbit THM_STATUS 3 = false → exec (.housekeeping temps rails) s = .next { s with body := { b with pwr := { b.pwr with rails := rails } } }) ∧
    (c.on = true → b.rbit THM_STATUS 3 = true → temps.length = 24 → (∀ y ∈ temps, y.toInt < 720) → ∃ t, exec (.housekeeping temps rails) s = .next t ∧
      onlyBody s t ∧ t.body.pwr.rails = rails ∧ ∀ i : Nat, i < 24 → t.body.rfld (TEMP i) 0 11 = (temps.getD i 0).toNat ∧ t.body.rbit (TEMP i) 15 = true) ∧
    (c.on = true → b.thm.last + 3000000 ≤ c.cyc → b.rbit THM_STATUS 3 = false → ∃ t, exec .fallback s = .next t ∧ onlyBody s t ∧
      regsBut (THM_STATUS :: (List.range 24).map TEMP) s t ∧ t.body.rbit THM_STATUS 3 = true ∧ t.body.rbit THM_STATUS 11 = true ∧ t.body.thm.seen = 0 ∧
      (∀ i : Nat, i < 24 → t.body.rbit (TEMP i) 15 = false) ∧ ∀ e ∈ t.body.thm.sensors.entries, e.2.hi = (0, 0, 0) ∧ e.2.lo = (0, 0)) ∧
    (c.on = false ∨ c.cyc < b.thm.last + 3000000 ∨ b.rbit THM_STATUS 3 = true → exec .fallback s = .next s) ∧
    (∃ t, exec (.dwellEnd k) s = .next t ∧ regsBut [TEMP k] s t ∧
      t = { s with body := { b with regs := t.body.regs, thm := { b.thm with sensors := t.body.thm.sensors } } } ∧
      t.body.sensor k = { x with dwell := ((if dwelling c x.dwell.1 then x.dwell.1 else none), if dwelling c x.dwell.2 then x.dwell.2 else none) } ∧
      t.body.rbit (TEMP k) 13 = (dwelling c x.dwell.1 || dwelling c x.dwell.2) ∧ t.body.rfld (TEMP k) 0 11 = b.rfld (TEMP k) 0 11 ∧
      ∀ i : Nat, i ≠ k.val → t.body.sensor i = b.sensor i) ∧
    (c.on = true → b.rbit FLT_STATUS 5 = true → (∀ e ∈ tr.hist, c.cyc < e.1 + 1000000000) → ∃ t, exec (.riseEval j) s = .next t ∧
      t = { s with body := { b with thm := { b.thm with tiles := t.body.thm.tiles } } } ∧ t.body.thm.tiles.get .reset j = { tr with hist := (c.cyc, now) :: tr.hist }) ∧
    (∀ o : Nat × Int, c.on = true → b.rbit FLT_STATUS 5 = true → tr.hist = [o] → o.1 + 1000000000 ≤ c.cyc → b.thm.fwAt + 1000000000 ≤ c.cyc →
      let d := now - o.2
      let above := 16 * (b.rfld THM_CTL 4 6 : Int) < 10 * d
      d ≤ 5000 → -5000 ≤ d → ∃ t, exec (.riseEval j) s = .next t ∧ onlyBody s t ∧
        4 * ((t.body.rget (RISE_TILE j)).extractLsb' 0 16).toInt < 25 * d + 4 ∧ 25 * d < 4 * ((t.body.rget (RISE_TILE j)).extractLsb' 0 16).toInt + 4 ∧
        (¬ above ∨ tr.hi < 3 → regsBut [RISE_TILE j] s t) ∧
        (above → 3 ≤ tr.hi → tr.tripped = false → t.body.rbit THM_STATUS (12 + j) = true ∧ (t.body.thm.tiles.get .reset j).tripped = true ∧
          t.body.rget DRIFT_COUNT = satInc (b.rget DRIFT_COUNT) 1 ∧
          (b.cal.queue = [] → t.body.cal.queue = [⟨none, 0x40, 5, j, 0, true, false, 0, 0⟩]))) ∧
    (c.on = false ∨ b.rbit FLT_STATUS 5 = false → exec (.riseEval j) s = .next s) ∧
    (c.on = true → b.thm.stepAt ≤ c.cyc → b.rfld THM_STATUS 0 2 = 2 → step < 16 → ∃ t, exec .throttleStep s = .next t ∧ steps t (step + 1) ∧
      t = { s with body := { b with regs := t.body.regs, log := t.body.log, thm := { b.thm with stepAt := b.thm.stepAt + 10000000 } } } ∧
      regsBut [GOV_STATUS, THROTTLE_COUNT] s t ∧ t.body.rget THROTTLE_COUNT = satInc (b.rget THROTTLE_COUNT) 1) ∧
    (c.on = true → b.thm.stepAt ≤ c.cyc → b.rfld THM_STATUS 0 2 ≠ 2 → 0 < step → ∃ t, exec .throttleStep s = .next t ∧ steps t (step - 1) ∧
      t = { s with body := { b with regs := t.body.regs, thm := { b.thm with stepAt := b.thm.stepAt + 100000000 } } } ∧ regsBut [GOV_STATUS] s t) ∧
    (c.on = true → b.thm.stepAt ≤ c.cyc → b.rfld THM_STATUS 0 2 = 2 → 16 ≤ step →
      exec .throttleStep s = .next { s with body := { b with thm := { b.thm with stepAt := b.thm.stepAt + 10000000 } } }) ∧
    (c.on = false ∨ c.cyc < b.thm.stepAt ∨ (b.rfld THM_STATUS 0 2 ≠ 2 ∧ step = 0) → exec .throttleStep s = .next s) ∧
    (c.on = true → b.gridRun = true → ∃ t, exec (.powerSample p) s = .next t ∧ regsBut [POWER_NOW, POWER_PEAK] s t ∧
      t.body.rget POWER_NOW = p.setWidth 32 ∧ t.body.rget POWER_PEAK = BitVec.ofNat 32 (max p.toNat (b.rnat POWER_PEAK)) ∧
      t = { s with body := { b with regs := t.body.regs, thm := { b.thm with below := t.body.thm.below, shed := t.body.thm.shed } } } ∧
      (lim < p.toNat → shed < 5 → t.body.thm.shed = some true) ∧ (low → 0 < shed → t.body.thm.shed = some false) ∧
      (p.toNat ≤ lim → ¬ low → t.body.thm.shed = b.thm.shed)) ∧
    (c.on = true → b.gridRun = false → lim < p.toNat → shed < 5 → ∃ t, exec (.powerSample p) s = .next t ∧ onlyBody s t ∧
      t.body.rfld GOV_STATUS 10 3 = shed + 1 ∧ t.body.thm.shed = none ∧ t.body.rbit SCOPE_STATUS 0 = true) ∧
    (c.on = false → exec (.powerSample p) s = .next s) ∧
    (∀ n : Nat, n < 16 → c.on = true → parks (128 + n) → (∀ e : Nat, e < 12 → b.engState (12 * n + e) = 0 ∨ b.engState (12 * n + e) = 5 ∨ b.engState (12 * n + e) = 6) →
      exec (.park (.cove n)) s = .next { s with body := { b with thm := { b.thm with parked := b.thm.parked ++ [128 + n] } } }) ∧
    (c.on = true → q.ok = true → b.rbit q.ctl 0 = true → parks q.parkKey → b.parkBusy c q.parkKey = false → ∃ t, exec (.park (.port q)) s = .next t ∧
      onlyBody s t ∧ t.body.thm.parked = b.thm.parked ++ [q.parkKey] ∧ regsBut [q.status] s t ∧ t.body.rfld q.status 0 2 = 0) ∧
    (c.on = false ∨ shed < 4 ∨ b.rbit GOV_CTL 5 = false ∨ (b.gridRun = true ∧ b.inSlack c.now = false) → exec (.park (.port q)) s = .next s)

/-- Faults of tiles, references and Harbour (R407 to R416). -/
def Obligations.TileReferenceAndHarbourFaults : Prop :=
  ∀ (k : Fin 4) (link frame rail ref only al : Bool) (clk : BitVec 3) (errTt : BitVec 36) (errs : Nat) (s : State),
    let b := s.body
    let c := s.clock
    let i := if ref then 1 else 0
    let tile : Instr := .tileFail k link frame clk rail errTt errs
    let cause := BitVec.ofBool rail ++ BitVec.ofBool (clk != 0) ++ BitVec.ofBool frame ++ BitVec.ofBool link
    let failed := b.rbit FLT_STATUS (16 + k) = true
    let fr := b.rfld HST_CTL 8 8
    let sent := fun (t : State) (d0 : Nat) (d1 : BitVec 64) => b.faultRingOk = true → (b.hring fr).recs = [] →
      (t.body.hring fr).recs = [⟨0x81, 0, 0, 0, BitVec.ofNat 32 d0, d1, c.tt.extractLsb' 32 64, false, none, none⟩]
    let here := fun (n : Nat) => b.rbit FLT_STATUS n = true
    let used := b.rbit FLT_STATUS 2 = ref
    let pref := b.rbit FLT_CTL 0
    let revert := b.rbit FLT_CTL 1 = true ∧ b.rbit FLT_STATUS 2 ≠ pref ∧ b.rbit FLT_STATUS (if pref then 1 else 0) = true ∧ here 3 ∧
      b.flt.aligned + 1000000 ≤ c.cyc
    (c.on = true → ¬ failed → cause ≠ 0 → b.cal.runs = [] → ∃ t, exec tile s = .next t ∧ onlyBody s t ∧ t.body.rbit FLT_STATUS (16 + k) = true ∧
      t.body.rfld (TILE_STATUS k) 8 4 = cause.toNat ∧ t.body.rbit (TILE_STATUS k) 0 = ! link ∧
      (∀ n : Nat, n < 3 → t.body.rbit (TILE_STATUS k) (1 + n) = ! clk.getLsbD n) ∧
      t.body.rget (TILE_LINK_ERR k) = satInc (b.rget (TILE_LINK_ERR k)) errs ∧ t.body.flt.errTt = errTt :: b.flt.errTt ∧
      (rail = true → t.body.rbit PMC_STATUS 9 = true) ∧
      (∀ n : Nat, n < 16 → t.body.rbit (PORT_CTL (16 * k.val + n)) 0 = false) ∧ (∀ n : Nat, n < 8 → t.body.rbit (FLX_CTL (8 * k.val + n)) 0 = false) ∧
      (∀ n : Nat, n < 4 → t.body.rbit (PORT_CTL (64 + 4 * k.val + n)) 0 = false ∧ t.body.rbit (RCV_CTL (4 * k.val + n)) 0 = false ∧
        t.body.rbit (BIAS_CTL (4 * k.val + n)) 0 = false) ∧
      sent t (3 + k.val * 2 ^ 8 + cause.toNat * 2 ^ 10) (errTt.setWidth 64)) ∧
    (failed → rail = false → exec tile s = .next s) ∧
    (c.on = true → failed → rail = true → ∃ t, exec tile s = .next t ∧ onlyRegs s t ∧ regsBut [PMC_STATUS] s t ∧
      t.body.rget PMC_STATUS = b.rget PMC_STATUS ||| 0x200) ∧
    (c.on = false ∨ cause = 0 → exec tile s = .next s) ∧
    (c.on = true → here i → here (1 - i) → ¬ used → ∃ t, exec (.refLoss ref only) s = .next t ∧ onlyBody s t ∧
      regsBut [FLT_STATUS, REF_STATUS, FAULT_DROP] s t ∧ t.body.rbit FLT_STATUS i = false ∧ t.body.rbit FLT_STATUS (1 - i) = true ∧
      t.body.rbit FLT_STATUS 3 = false ∧ t.body.rbit FLT_STATUS 2 = b.rbit FLT_STATUS 2 ∧ t.body.flt.revert = false ∧
      sent t (1 + i * 2 ^ 8 + if here 3 then 2 ^ 10 else 0) 0) ∧
    (c.on = true → here i → here (1 - i) → used → here 3 → ∃ t, exec (.refLoss ref only) s = .next t ∧ onlyBody s t ∧
      regsBut [FLT_STATUS, REF_STATUS, FAULT_DROP] s t ∧ t.body.rbit FLT_STATUS 2 = ! ref ∧ t.body.rbit REF_STATUS 5 = ! ref ∧
      sent t (1 + i * 2 ^ 8 + 0x600) (c.tt.extractLsb' 32 64)) ∧
    (c.on = true → here i → here (1 - i) → used → ¬ here 3 → ∃ t, exec (.refLoss ref only) s = .next t ∧ onlyBody s t ∧
      regsBut [FLT_STATUS, REF_STATUS, FAULT_DROP, TIDE_STATUS, TIDE_INC] s t ∧ t.body.rbit FLT_STATUS 2 = ! ref ∧
      t.body.rbit TIDE_STATUS 3 = true ∧ t.body.rbit TIDE_STATUS 4 = true ∧ t.body.rget TIDE_INC = 0x01000000) ∧
    (c.on = true → here i → ¬ here (1 - i) → ∃ t, exec (.refLoss ref only) s = .next t ∧ onlyBody s t ∧ t.body.rbit FLT_STATUS i = false ∧
      t.body.rbit REF_STATUS i = only ∧ t.body.rbit TIDE_STATUS 3 = true ∧ t.body.rget TIDE_INC = 0x01000000 ∧ sent t 2 0) ∧
    (c.on = true → ¬ here i → ∃ t, exec (.refLoss ref only) s = .next t ∧ t = { s with body := { b with regs := t.body.regs } } ∧
      regsBut [FLT_STATUS, REF_STATUS] s t ∧ t.body.rbit REF_STATUS i = (b.rbit REF_STATUS i && only) ∧ t.body.rbit REF_STATUS (2 + i) = false) ∧
    (c.on = false → exec (.refLoss ref only) s = .next s) ∧
    (¬ revert → exec .refRevert s = .next s) ∧
    (revert → b.gridRun = true → exec .refRevert s = .next { s with body := { b with flt := { b.flt with revert := true } } }) ∧
    (revert → b.gridRun = false → ∃ t, exec .refRevert s = .next t ∧ onlyRegs s t ∧ regsBut [FLT_STATUS, REF_STATUS] s t ∧
      t.body.rbit FLT_STATUS 2 = pref ∧ t.body.rbit REF_STATUS 5 = pref) ∧
    (c.on = true → ∃ t, exec (.referenceReturn ref al) s = .next t ∧ onlyBody s t ∧ regsBut [FLT_STATUS, REF_STATUS, BOOT_STATUS] s t ∧
      t.body.rbit FLT_STATUS i = true ∧ t.body.rbit FLT_STATUS (1 - i) = b.rbit FLT_STATUS (1 - i) ∧ t.body.rbit FLT_STATUS 4 = false ∧
      (t.body.rbit FLT_STATUS 3 = true ↔ al = true ∧ here (1 - i)) ∧ t.body.rbit REF_STATUS i = true ∧ t.body.rbit REF_STATUS (2 + i) = true ∧
      (b.rfld BOOT_STATUS 0 8 = 0x80 → t.body.rfld BOOT_STATUS 0 8 = 0 ∧ t.body.rbit FLT_STATUS 2 = ref) ∧
      (b.rfld BOOT_STATUS 0 8 ≠ 0x80 → t.body.rget BOOT_STATUS = b.rget BOOT_STATUS ∧ t.body.rbit FLT_STATUS 2 = b.rbit FLT_STATUS 2)) ∧
    (c.on = false → exec (.referenceReturn ref al) s = .next s) ∧
    (here 5 → ∃ t, exec .harbourFail s = .next t ∧ onlyBody s t ∧ t.body.rbit FLT_STATUS 5 = false ∧ t.body.rbit THM_STATUS 3 = true ∧
      regsBut ([FLT_STATUS, FAULT_DROP, THM_STATUS] ++ (List.range 24).map TEMP) s t ∧ sent t 0x11 0) ∧
    (¬ here 5 → exec .harbourFail s = .next s)
end

