-- ==== Sys2Proof/Laws/Map.lean ====
section
/-! SUPPORT. Laws of the sparse table: a read after a write, and that a write keeps the canonical form. -/

namespace Sys2Proof.Machine

theorem lookupIn_eraseIn_same {α : Type} (d : α) (k : Nat) (l : List (Nat × α)) :
    lookupIn d k (eraseIn k l) = d := by
  induction l with
  | nil => rfl
  | cons e t ih =>
    obtain ⟨j, w⟩ := e
    by_cases h : j = k <;> simp [eraseIn, lookupIn, h, ih]

theorem lookupIn_eraseIn_other {α : Type} (d : α) {j k : Nat} (h : j ≠ k) (l : List (Nat × α)) :
    lookupIn d j (eraseIn k l) = lookupIn d j l := by
  induction l with
  | nil => rfl
  | cons e t ih =>
    obtain ⟨i, w⟩ := e
    by_cases h1 : i = k
    · subst h1; simp [eraseIn, lookupIn, ih, Ne.symm h]
    · simp only [eraseIn, if_neg h1, lookupIn, ih]

theorem lookupIn_insertIn_other {α : Type} (d : α) {j k : Nat} (h : j ≠ k) (v : α) (l : List (Nat × α)) :
    lookupIn d j (insertIn k v l) = lookupIn d j l := by
  induction l with
  | nil => simp [insertIn, lookupIn, Ne.symm h]
  | cons e t ih =>
    obtain ⟨i, w⟩ := e
    by_cases h1 : k < i
    · simp [insertIn, h1, lookupIn, Ne.symm h]
    · simp only [insertIn, if_neg h1, lookupIn, ih]

theorem lookupIn_insertIn_erased {α : Type} (d : α) (k : Nat) (v : α) (l : List (Nat × α)) :
    lookupIn d k (insertIn k v (eraseIn k l)) = v := by
  induction l with
  | nil => simp [insertIn, eraseIn, lookupIn]
  | cons e t ih =>
    obtain ⟨i, w⟩ := e
    by_cases h1 : i = k
    · simp only [eraseIn, if_pos h1, ih]
    · by_cases h2 : k < i
      · simp [eraseIn, h1, insertIn, h2, lookupIn]
      · simp only [eraseIn, if_neg h1, insertIn, if_neg h2, lookupIn, ih]

variable {α : Type} [DecidableEq α]

/-- Reading the key just written gives the value written. -/
@[simp] theorem SMap.get_put_same (m : SMap α) (d : α) (k : Nat) (v : α) :
    (m.put d k v).get d k = v := by
  by_cases h : v = d
  · simp [SMap.put, SMap.get, h, lookupIn_eraseIn_same]
  · simp [SMap.put, SMap.get, h, lookupIn_insertIn_erased]

/-- A write leaves every other key alone, whatever unlisted value that key has. -/
theorem SMap.get_put_other (m : SMap α) (d d' : α) {j k : Nat} (h : j ≠ k) (v : α) :
    (m.put d k v).get d' j = m.get d' j := by
  by_cases h1 : v = d
  · simp [SMap.put, SMap.get, h1, lookupIn_eraseIn_other d' h]
  · simp [SMap.put, SMap.get, h1, lookupIn_insertIn_other d' h, lookupIn_eraseIn_other d' h]

omit [DecidableEq α] in
@[simp] theorem SMap.get_empty (d : α) (k : Nat) : (SMap.empty : SMap α).get d k = d := rfl

omit [DecidableEq α] in
theorem mem_eraseIn {e : Nat × α} {k : Nat} {l : List (Nat × α)} :
    e ∈ eraseIn k l ↔ e ∈ l ∧ e.1 ≠ k := by
  induction l with
  | nil => simp [eraseIn]
  | cons a t ih =>
    obtain ⟨i, w⟩ := a
    by_cases h : i = k
    · simp only [eraseIn, if_pos h, ih, List.mem_cons]
      constructor
      · exact fun ⟨a, b⟩ => ⟨.inr a, b⟩
      · rintro ⟨rfl | a, b⟩
        · exact absurd h b
        · exact ⟨a, b⟩
    · simp only [eraseIn, if_neg h, List.mem_cons, ih]
      constructor
      · rintro (rfl | ⟨a, b⟩)
        · exact ⟨.inl rfl, h⟩
        · exact ⟨.inr a, b⟩
      · rintro ⟨rfl | a, b⟩
        · exact .inl rfl
        · exact .inr ⟨a, b⟩

omit [DecidableEq α] in
theorem mem_insertIn {e : Nat × α} {k : Nat} {v : α} {l : List (Nat × α)} :
    e ∈ insertIn k v l ↔ e = (k, v) ∨ e ∈ l := by
  induction l with
  | nil => simp [insertIn]
  | cons a t ih =>
    obtain ⟨i, w⟩ := a
    by_cases h : k < i
    · simp [insertIn, h]
    · simp only [insertIn, if_neg h, List.mem_cons, ih]
      tauto

omit [DecidableEq α] in
theorem pairwise_eraseIn {k : Nat} {l : List (Nat × α)} (h : l.Pairwise (fun a b => a.1 < b.1)) :
    (eraseIn k l).Pairwise (fun a b => a.1 < b.1) := by
  induction l with
  | nil => simp [eraseIn]
  | cons a t ih =>
    obtain ⟨i, w⟩ := a
    rw [List.pairwise_cons] at h
    by_cases h1 : i = k
    · simpa [eraseIn, h1] using ih h.2
    · simp only [eraseIn, if_neg h1, List.pairwise_cons]
      exact ⟨fun b hb => h.1 b (mem_eraseIn.1 hb).1, ih h.2⟩

omit [DecidableEq α] in
theorem pairwise_insertIn {k : Nat} {v : α} {l : List (Nat × α)} (h : l.Pairwise (fun a b => a.1 < b.1))
    (hk : ∀ e ∈ l, e.1 ≠ k) : (insertIn k v l).Pairwise (fun a b => a.1 < b.1) := by
  induction l with
  | nil => simp [insertIn]
  | cons a t ih =>
    obtain ⟨i, w⟩ := a
    rw [List.pairwise_cons] at h
    by_cases h1 : k < i
    · simp only [insertIn, if_pos h1, List.pairwise_cons, List.mem_cons]
      refine ⟨?_, h.1, h.2⟩
      rintro b (rfl | hb)
      · exact h1
      · exact lt_trans h1 (h.1 b hb)
    · have hi : i ≠ k := hk (i, w) (by simp)
      have hik : i < k := by omega
      simp only [insertIn, if_neg h1, List.pairwise_cons]
      refine ⟨?_, ih h.2 (fun e he => hk e (by simp [he]))⟩
      intro b hb
      rcases mem_insertIn.1 hb with rfl | hb
      · exact hik
      · exact h.1 b hb

/-- A write keeps the canonical form. -/
theorem SMap.put_wf (m : SMap α) (d : α) (k : Nat) (v : α) (h : m.wf d) : (m.put d k v).wf d := by
  by_cases hv : v = d
  · refine ⟨by simpa [SMap.put, hv] using pairwise_eraseIn h.1, ?_⟩
    intro e he
    simp only [SMap.put, hv, if_true] at he
    exact h.2 e (mem_eraseIn.1 he).1
  · refine ⟨?_, ?_⟩
    · simp only [SMap.put, if_neg hv]
      exact pairwise_insertIn (pairwise_eraseIn h.1) (fun e he => (mem_eraseIn.1 he).2)
    · intro e he
      simp only [SMap.put, if_neg hv] at he
      rcases mem_insertIn.1 he with rfl | he
      · exact hv
      · exact h.2 e (mem_eraseIn.1 he).1

theorem SMap.upd_wf (m : SMap α) (d : α) (k : Nat) (f : α → α) (h : m.wf d) : (m.upd d k f).wf d :=
  m.put_wf d k _ h

omit [DecidableEq α] in
theorem SMap.empty_wf (d : α) : (SMap.empty : SMap α).wf d := by
  constructor <;> simp [SMap.empty]

omit [DecidableEq α] in
theorem SMap.dropKeys_wf (m : SMap α) (d : α) (p : Nat → Bool) (h : m.wf d) : (m.dropKeys p).wf d := by
  refine ⟨h.1.filter _, fun e he => h.2 e ?_⟩
  exact (List.mem_filter.1 he).1

end Sys2Proof.Machine
end

