-- ==== Sys2Proof/Laws/State.lean ====
section
/-! SUPPORT. What each named update of the state leaves alone: one lemma per field per update, so that no later proof unfolds an
update of a record. -/

namespace Sys2Proof.Machine

/-! ### Body.rset -/

@[simp] theorem Body.rset_staged (b : Body) (k : Nat) (v : Reg32) : (b.rset k v).staged = b.staged := rfl
@[simp] theorem Body.rset_log (b : Body) (k : Nat) (v : Reg32) : (b.rset k v).log = b.log := rfl
@[simp] theorem Body.rset_grid (b : Body) (k : Nat) (v : Reg32) : (b.rset k v).grid = b.grid := rfl
@[simp] theorem Body.rset_incAt (b : Body) (k : Nat) (v : Reg32) : (b.rset k v).incAt = b.incAt := rfl
@[simp] theorem Body.rset_incOld (b : Body) (k : Nat) (v : Reg32) : (b.rset k v).incOld = b.incOld := rfl
@[simp] theorem Body.rset_ring (b : Body) (k : Nat) (v : Reg32) : (b.rset k v).ring = b.ring := rfl
@[simp] theorem Body.rset_evt (b : Body) (k : Nat) (v : Reg32) : (b.rset k v).evt = b.evt := rfl
@[simp] theorem Body.rset_host (b : Body) (k : Nat) (v : Reg32) : (b.rset k v).host = b.host := rfl
@[simp] theorem Body.rset_comps (b : Body) (k : Nat) (v : Reg32) : (b.rset k v).comps = b.comps := rfl
@[simp] theorem Body.rset_flux (b : Body) (k : Nat) (v : Reg32) : (b.rset k v).flux = b.flux := rfl
@[simp] theorem Body.rset_bias (b : Body) (k : Nat) (v : Reg32) : (b.rset k v).bias = b.bias := rfl
@[simp] theorem Body.rset_rcv (b : Body) (k : Nat) (v : Reg32) : (b.rset k v).rcv = b.rcv := rfl
@[simp] theorem Body.rset_fab (b : Body) (k : Nat) (v : Reg32) : (b.rset k v).fab = b.fab := rfl
@[simp] theorem Body.rset_engs (b : Body) (k : Nat) (v : Reg32) : (b.rset k v).engs = b.engs := rfl
@[simp] theorem Body.rset_coves (b : Body) (k : Nat) (v : Reg32) : (b.rset k v).coves = b.coves := rfl
@[simp] theorem Body.rset_ucode (b : Body) (k : Nat) (v : Reg32) : (b.rset k v).ucode = b.ucode := rfl
@[simp] theorem Body.rset_udisp (b : Body) (k : Nat) (v : Reg32) : (b.rset k v).udisp = b.udisp := rfl
@[simp] theorem Body.rset_outs (b : Body) (k : Nat) (v : Reg32) : (b.rset k v).outs = b.outs := rfl
@[simp] theorem Body.rset_fifos (b : Body) (k : Nat) (v : Reg32) : (b.rset k v).fifos = b.fifos := rfl
@[simp] theorem Body.rset_packAt (b : Body) (k : Nat) (v : Reg32) : (b.rset k v).packAt = b.packAt := rfl
@[simp] theorem Body.rset_issue (b : Body) (k : Nat) (v : Reg32) : (b.rset k v).issue = b.issue := rfl
@[simp] theorem Body.rset_held (b : Body) (k : Nat) (v : Reg32) : (b.rset k v).held = b.held := rfl
@[simp] theorem Body.rset_turns (b : Body) (k : Nat) (v : Reg32) : (b.rset k v).turns = b.turns := rfl
@[simp] theorem Body.rset_gather (b : Body) (k : Nat) (v : Reg32) : (b.rset k v).gather = b.gather := rfl
@[simp] theorem Body.rset_badDie (b : Body) (k : Nat) (v : Reg32) : (b.rset k v).badDie = b.badDie := rfl
@[simp] theorem Body.rset_badLines (b : Body) (k : Nat) (v : Reg32) : (b.rset k v).badLines = b.badLines := rfl
@[simp] theorem Body.rset_mcHits (b : Body) (k : Nat) (v : Reg32) : (b.rset k v).mcHits = b.mcHits := rfl
@[simp] theorem Body.rset_scrubAt (b : Body) (k : Nat) (v : Reg32) : (b.rset k v).scrubAt = b.scrubAt := rfl
@[simp] theorem Body.rset_scope (b : Body) (k : Nat) (v : Reg32) : (b.rset k v).scope = b.scope := rfl
@[simp] theorem Body.rset_cal (b : Body) (k : Nat) (v : Reg32) : (b.rset k v).cal = b.cal := rfl
@[simp] theorem Body.rset_fuseWr (b : Body) (k : Nat) (v : Reg32) : (b.rset k v).fuseWr = b.fuseWr := rfl
@[simp] theorem Body.rset_mcLoads (b : Body) (k : Nat) (v : Reg32) : (b.rset k v).mcLoads = b.mcLoads := rfl
@[simp] theorem Body.rset_pwr (b : Body) (k : Nat) (v : Reg32) : (b.rset k v).pwr = b.pwr := rfl
@[simp] theorem Body.rset_thm (b : Body) (k : Nat) (v : Reg32) : (b.rset k v).thm = b.thm := rfl
@[simp] theorem Body.rset_flt (b : Body) (k : Nat) (v : Reg32) : (b.rset k v).flt = b.flt := rfl
@[simp] theorem Body.rset_pcnt (b : Body) (k : Nat) (v : Reg32) : (b.rset k v).pcnt = b.pcnt := rfl
@[simp] theorem Body.rset_bw (b : Body) (k : Nat) (v : Reg32) : (b.rset k v).bw = b.bw := rfl
@[simp] theorem Body.rset_out (b : Body) (k : Nat) (v : Reg32) : (b.rset k v).out = b.out := rfl
@[simp] theorem Body.rset_free (b : Body) (k : Nat) (v : Reg32) : (b.rset k v).free = b.free := rfl

/-! ### Body.rsetFld -/

@[simp] theorem Body.rsetFld_staged (b : Body) (k lo len x : Nat) : (b.rsetFld k lo len x).staged = b.staged := rfl
@[simp] theorem Body.rsetFld_log (b : Body) (k lo len x : Nat) : (b.rsetFld k lo len x).log = b.log := rfl
@[simp] theorem Body.rsetFld_grid (b : Body) (k lo len x : Nat) : (b.rsetFld k lo len x).grid = b.grid := rfl
@[simp] theorem Body.rsetFld_incAt (b : Body) (k lo len x : Nat) : (b.rsetFld k lo len x).incAt = b.incAt := rfl
@[simp] theorem Body.rsetFld_incOld (b : Body) (k lo len x : Nat) : (b.rsetFld k lo len x).incOld = b.incOld := rfl
@[simp] theorem Body.rsetFld_ring (b : Body) (k lo len x : Nat) : (b.rsetFld k lo len x).ring = b.ring := rfl
@[simp] theorem Body.rsetFld_evt (b : Body) (k lo len x : Nat) : (b.rsetFld k lo len x).evt = b.evt := rfl
@[simp] theorem Body.rsetFld_host (b : Body) (k lo len x : Nat) : (b.rsetFld k lo len x).host = b.host := rfl
@[simp] theorem Body.rsetFld_comps (b : Body) (k lo len x : Nat) : (b.rsetFld k lo len x).comps = b.comps := rfl
@[simp] theorem Body.rsetFld_flux (b : Body) (k lo len x : Nat) : (b.rsetFld k lo len x).flux = b.flux := rfl
@[simp] theorem Body.rsetFld_bias (b : Body) (k lo len x : Nat) : (b.rsetFld k lo len x).bias = b.bias := rfl
@[simp] theorem Body.rsetFld_rcv (b : Body) (k lo len x : Nat) : (b.rsetFld k lo len x).rcv = b.rcv := rfl
@[simp] theorem Body.rsetFld_fab (b : Body) (k lo len x : Nat) : (b.rsetFld k lo len x).fab = b.fab := rfl
@[simp] theorem Body.rsetFld_engs (b : Body) (k lo len x : Nat) : (b.rsetFld k lo len x).engs = b.engs := rfl
@[simp] theorem Body.rsetFld_coves (b : Body) (k lo len x : Nat) : (b.rsetFld k lo len x).coves = b.coves := rfl
@[simp] theorem Body.rsetFld_ucode (b : Body) (k lo len x : Nat) : (b.rsetFld k lo len x).ucode = b.ucode := rfl
@[simp] theorem Body.rsetFld_udisp (b : Body) (k lo len x : Nat) : (b.rsetFld k lo len x).udisp = b.udisp := rfl
@[simp] theorem Body.rsetFld_outs (b : Body) (k lo len x : Nat) : (b.rsetFld k lo len x).outs = b.outs := rfl
@[simp] theorem Body.rsetFld_fifos (b : Body) (k lo len x : Nat) : (b.rsetFld k lo len x).fifos = b.fifos := rfl
@[simp] theorem Body.rsetFld_packAt (b : Body) (k lo len x : Nat) : (b.rsetFld k lo len x).packAt = b.packAt := rfl
@[simp] theorem Body.rsetFld_issue (b : Body) (k lo len x : Nat) : (b.rsetFld k lo len x).issue = b.issue := rfl
@[simp] theorem Body.rsetFld_held (b : Body) (k lo len x : Nat) : (b.rsetFld k lo len x).held = b.held := rfl
@[simp] theorem Body.rsetFld_turns (b : Body) (k lo len x : Nat) : (b.rsetFld k lo len x).turns = b.turns := rfl
@[simp] theorem Body.rsetFld_gather (b : Body) (k lo len x : Nat) : (b.rsetFld k lo len x).gather = b.gather := rfl
@[simp] theorem Body.rsetFld_badDie (b : Body) (k lo len x : Nat) : (b.rsetFld k lo len x).badDie = b.badDie := rfl
@[simp] theorem Body.rsetFld_badLines (b : Body) (k lo len x : Nat) : (b.rsetFld k lo len x).badLines = b.badLines := rfl
@[simp] theorem Body.rsetFld_mcHits (b : Body) (k lo len x : Nat) : (b.rsetFld k lo len x).mcHits = b.mcHits := rfl
@[simp] theorem Body.rsetFld_scrubAt (b : Body) (k lo len x : Nat) : (b.rsetFld k lo len x).scrubAt = b.scrubAt := rfl
@[simp] theorem Body.rsetFld_scope (b : Body) (k lo len x : Nat) : (b.rsetFld k lo len x).scope = b.scope := rfl
@[simp] theorem Body.rsetFld_cal (b : Body) (k lo len x : Nat) : (b.rsetFld k lo len x).cal = b.cal := rfl
@[simp] theorem Body.rsetFld_fuseWr (b : Body) (k lo len x : Nat) : (b.rsetFld k lo len x).fuseWr = b.fuseWr := rfl
@[simp] theorem Body.rsetFld_mcLoads (b : Body) (k lo len x : Nat) : (b.rsetFld k lo len x).mcLoads = b.mcLoads := rfl
@[simp] theorem Body.rsetFld_pwr (b : Body) (k lo len x : Nat) : (b.rsetFld k lo len x).pwr = b.pwr := rfl
@[simp] theorem Body.rsetFld_thm (b : Body) (k lo len x : Nat) : (b.rsetFld k lo len x).thm = b.thm := rfl
@[simp] theorem Body.rsetFld_flt (b : Body) (k lo len x : Nat) : (b.rsetFld k lo len x).flt = b.flt := rfl
@[simp] theorem Body.rsetFld_pcnt (b : Body) (k lo len x : Nat) : (b.rsetFld k lo len x).pcnt = b.pcnt := rfl
@[simp] theorem Body.rsetFld_bw (b : Body) (k lo len x : Nat) : (b.rsetFld k lo len x).bw = b.bw := rfl
@[simp] theorem Body.rsetFld_out (b : Body) (k lo len x : Nat) : (b.rsetFld k lo len x).out = b.out := rfl
@[simp] theorem Body.rsetFld_free (b : Body) (k lo len x : Nat) : (b.rsetFld k lo len x).free = b.free := rfl

/-! ### Body.rsetBit -/

@[simp] theorem Body.rsetBit_staged (b : Body) (k i : Nat) (on : Bool) : (b.rsetBit k i on).staged = b.staged := rfl
@[simp] theorem Body.rsetBit_log (b : Body) (k i : Nat) (on : Bool) : (b.rsetBit k i on).log = b.log := rfl
@[simp] theorem Body.rsetBit_grid (b : Body) (k i : Nat) (on : Bool) : (b.rsetBit k i on).grid = b.grid := rfl
@[simp] theorem Body.rsetBit_incAt (b : Body) (k i : Nat) (on : Bool) : (b.rsetBit k i on).incAt = b.incAt := rfl
@[simp] theorem Body.rsetBit_incOld (b : Body) (k i : Nat) (on : Bool) : (b.rsetBit k i on).incOld = b.incOld := rfl
@[simp] theorem Body.rsetBit_ring (b : Body) (k i : Nat) (on : Bool) : (b.rsetBit k i on).ring = b.ring := rfl
@[simp] theorem Body.rsetBit_evt (b : Body) (k i : Nat) (on : Bool) : (b.rsetBit k i on).evt = b.evt := rfl
@[simp] theorem Body.rsetBit_host (b : Body) (k i : Nat) (on : Bool) : (b.rsetBit k i on).host = b.host := rfl
@[simp] theorem Body.rsetBit_comps (b : Body) (k i : Nat) (on : Bool) : (b.rsetBit k i on).comps = b.comps := rfl
@[simp] theorem Body.rsetBit_flux (b : Body) (k i : Nat) (on : Bool) : (b.rsetBit k i on).flux = b.flux := rfl
@[simp] theorem Body.rsetBit_bias (b : Body) (k i : Nat) (on : Bool) : (b.rsetBit k i on).bias = b.bias := rfl
@[simp] theorem Body.rsetBit_rcv (b : Body) (k i : Nat) (on : Bool) : (b.rsetBit k i on).rcv = b.rcv := rfl
@[simp] theorem Body.rsetBit_fab (b : Body) (k i : Nat) (on : Bool) : (b.rsetBit k i on).fab = b.fab := rfl
@[simp] theorem Body.rsetBit_engs (b : Body) (k i : Nat) (on : Bool) : (b.rsetBit k i on).engs = b.engs := rfl
@[simp] theorem Body.rsetBit_coves (b : Body) (k i : Nat) (on : Bool) : (b.rsetBit k i on).coves = b.coves := rfl
@[simp] theorem Body.rsetBit_ucode (b : Body) (k i : Nat) (on : Bool) : (b.rsetBit k i on).ucode = b.ucode := rfl
@[simp] theorem Body.rsetBit_udisp (b : Body) (k i : Nat) (on : Bool) : (b.rsetBit k i on).udisp = b.udisp := rfl
@[simp] theorem Body.rsetBit_outs (b : Body) (k i : Nat) (on : Bool) : (b.rsetBit k i on).outs = b.outs := rfl
@[simp] theorem Body.rsetBit_fifos (b : Body) (k i : Nat) (on : Bool) : (b.rsetBit k i on).fifos = b.fifos := rfl
@[simp] theorem Body.rsetBit_packAt (b : Body) (k i : Nat) (on : Bool) : (b.rsetBit k i on).packAt = b.packAt := rfl
@[simp] theorem Body.rsetBit_issue (b : Body) (k i : Nat) (on : Bool) : (b.rsetBit k i on).issue = b.issue := rfl
@[simp] theorem Body.rsetBit_held (b : Body) (k i : Nat) (on : Bool) : (b.rsetBit k i on).held = b.held := rfl
@[simp] theorem Body.rsetBit_turns (b : Body) (k i : Nat) (on : Bool) : (b.rsetBit k i on).turns = b.turns := rfl
@[simp] theorem Body.rsetBit_gather (b : Body) (k i : Nat) (on : Bool) : (b.rsetBit k i on).gather = b.gather := rfl
@[simp] theorem Body.rsetBit_badDie (b : Body) (k i : Nat) (on : Bool) : (b.rsetBit k i on).badDie = b.badDie := rfl
@[simp] theorem Body.rsetBit_badLines (b : Body) (k i : Nat) (on : Bool) : (b.rsetBit k i on).badLines = b.badLines := rfl
@[simp] theorem Body.rsetBit_mcHits (b : Body) (k i : Nat) (on : Bool) : (b.rsetBit k i on).mcHits = b.mcHits := rfl
@[simp] theorem Body.rsetBit_scrubAt (b : Body) (k i : Nat) (on : Bool) : (b.rsetBit k i on).scrubAt = b.scrubAt := rfl
@[simp] theorem Body.rsetBit_scope (b : Body) (k i : Nat) (on : Bool) : (b.rsetBit k i on).scope = b.scope := rfl
@[simp] theorem Body.rsetBit_cal (b : Body) (k i : Nat) (on : Bool) : (b.rsetBit k i on).cal = b.cal := rfl
@[simp] theorem Body.rsetBit_fuseWr (b : Body) (k i : Nat) (on : Bool) : (b.rsetBit k i on).fuseWr = b.fuseWr := rfl
@[simp] theorem Body.rsetBit_mcLoads (b : Body) (k i : Nat) (on : Bool) : (b.rsetBit k i on).mcLoads = b.mcLoads := rfl
@[simp] theorem Body.rsetBit_pwr (b : Body) (k i : Nat) (on : Bool) : (b.rsetBit k i on).pwr = b.pwr := rfl
@[simp] theorem Body.rsetBit_thm (b : Body) (k i : Nat) (on : Bool) : (b.rsetBit k i on).thm = b.thm := rfl
@[simp] theorem Body.rsetBit_flt (b : Body) (k i : Nat) (on : Bool) : (b.rsetBit k i on).flt = b.flt := rfl
@[simp] theorem Body.rsetBit_pcnt (b : Body) (k i : Nat) (on : Bool) : (b.rsetBit k i on).pcnt = b.pcnt := rfl
@[simp] theorem Body.rsetBit_bw (b : Body) (k i : Nat) (on : Bool) : (b.rsetBit k i on).bw = b.bw := rfl
@[simp] theorem Body.rsetBit_out (b : Body) (k i : Nat) (on : Bool) : (b.rsetBit k i on).out = b.out := rfl
@[simp] theorem Body.rsetBit_free (b : Body) (k i : Nat) (on : Bool) : (b.rsetBit k i on).free = b.free := rfl

/-! ### Body.rsetPair -/

@[simp] theorem Body.rsetPair_staged (b : Body) (lo hi x : Nat) : (b.rsetPair lo hi x).staged = b.staged := rfl
@[simp] theorem Body.rsetPair_log (b : Body) (lo hi x : Nat) : (b.rsetPair lo hi x).log = b.log := rfl
@[simp] theorem Body.rsetPair_grid (b : Body) (lo hi x : Nat) : (b.rsetPair lo hi x).grid = b.grid := rfl
@[simp] theorem Body.rsetPair_incAt (b : Body) (lo hi x : Nat) : (b.rsetPair lo hi x).incAt = b.incAt := rfl
@[simp] theorem Body.rsetPair_incOld (b : Body) (lo hi x : Nat) : (b.rsetPair lo hi x).incOld = b.incOld := rfl
@[simp] theorem Body.rsetPair_ring (b : Body) (lo hi x : Nat) : (b.rsetPair lo hi x).ring = b.ring := rfl
@[simp] theorem Body.rsetPair_evt (b : Body) (lo hi x : Nat) : (b.rsetPair lo hi x).evt = b.evt := rfl
@[simp] theorem Body.rsetPair_host (b : Body) (lo hi x : Nat) : (b.rsetPair lo hi x).host = b.host := rfl
@[simp] theorem Body.rsetPair_comps (b : Body) (lo hi x : Nat) : (b.rsetPair lo hi x).comps = b.comps := rfl
@[simp] theorem Body.rsetPair_flux (b : Body) (lo hi x : Nat) : (b.rsetPair lo hi x).flux = b.flux := rfl
@[simp] theorem Body.rsetPair_bias (b : Body) (lo hi x : Nat) : (b.rsetPair lo hi x).bias = b.bias := rfl
@[simp] theorem Body.rsetPair_rcv (b : Body) (lo hi x : Nat) : (b.rsetPair lo hi x).rcv = b.rcv := rfl
@[simp] theorem Body.rsetPair_fab (b : Body) (lo hi x : Nat) : (b.rsetPair lo hi x).fab = b.fab := rfl
@[simp] theorem Body.rsetPair_engs (b : Body) (lo hi x : Nat) : (b.rsetPair lo hi x).engs = b.engs := rfl
@[simp] theorem Body.rsetPair_coves (b : Body) (lo hi x : Nat) : (b.rsetPair lo hi x).coves = b.coves := rfl
@[simp] theorem Body.rsetPair_ucode (b : Body) (lo hi x : Nat) : (b.rsetPair lo hi x).ucode = b.ucode := rfl
@[simp] theorem Body.rsetPair_udisp (b : Body) (lo hi x : Nat) : (b.rsetPair lo hi x).udisp = b.udisp := rfl
@[simp] theorem Body.rsetPair_outs (b : Body) (lo hi x : Nat) : (b.rsetPair lo hi x).outs = b.outs := rfl
@[simp] theorem Body.rsetPair_fifos (b : Body) (lo hi x : Nat) : (b.rsetPair lo hi x).fifos = b.fifos := rfl
@[simp] theorem Body.rsetPair_packAt (b : Body) (lo hi x : Nat) : (b.rsetPair lo hi x).packAt = b.packAt := rfl
@[simp] theorem Body.rsetPair_issue (b : Body) (lo hi x : Nat) : (b.rsetPair lo hi x).issue = b.issue := rfl
@[simp] theorem Body.rsetPair_held (b : Body) (lo hi x : Nat) : (b.rsetPair lo hi x).held = b.held := rfl
@[simp] theorem Body.rsetPair_turns (b : Body) (lo hi x : Nat) : (b.rsetPair lo hi x).turns = b.turns := rfl
@[simp] theorem Body.rsetPair_gather (b : Body) (lo hi x : Nat) : (b.rsetPair lo hi x).gather = b.gather := rfl
@[simp] theorem Body.rsetPair_badDie (b : Body) (lo hi x : Nat) : (b.rsetPair lo hi x).badDie = b.badDie := rfl
@[simp] theorem Body.rsetPair_badLines (b : Body) (lo hi x : Nat) : (b.rsetPair lo hi x).badLines = b.badLines := rfl
@[simp] theorem Body.rsetPair_mcHits (b : Body) (lo hi x : Nat) : (b.rsetPair lo hi x).mcHits = b.mcHits := rfl
@[simp] theorem Body.rsetPair_scrubAt (b : Body) (lo hi x : Nat) : (b.rsetPair lo hi x).scrubAt = b.scrubAt := rfl
@[simp] theorem Body.rsetPair_scope (b : Body) (lo hi x : Nat) : (b.rsetPair lo hi x).scope = b.scope := rfl
@[simp] theorem Body.rsetPair_cal (b : Body) (lo hi x : Nat) : (b.rsetPair lo hi x).cal = b.cal := rfl
@[simp] theorem Body.rsetPair_fuseWr (b : Body) (lo hi x : Nat) : (b.rsetPair lo hi x).fuseWr = b.fuseWr := rfl
@[simp] theorem Body.rsetPair_mcLoads (b : Body) (lo hi x : Nat) : (b.rsetPair lo hi x).mcLoads = b.mcLoads := rfl
@[simp] theorem Body.rsetPair_pwr (b : Body) (lo hi x : Nat) : (b.rsetPair lo hi x).pwr = b.pwr := rfl
@[simp] theorem Body.rsetPair_thm (b : Body) (lo hi x : Nat) : (b.rsetPair lo hi x).thm = b.thm := rfl
@[simp] theorem Body.rsetPair_flt (b : Body) (lo hi x : Nat) : (b.rsetPair lo hi x).flt = b.flt := rfl
@[simp] theorem Body.rsetPair_pcnt (b : Body) (lo hi x : Nat) : (b.rsetPair lo hi x).pcnt = b.pcnt := rfl
@[simp] theorem Body.rsetPair_bw (b : Body) (lo hi x : Nat) : (b.rsetPair lo hi x).bw = b.bw := rfl
@[simp] theorem Body.rsetPair_out (b : Body) (lo hi x : Nat) : (b.rsetPair lo hi x).out = b.out := rfl
@[simp] theorem Body.rsetPair_free (b : Body) (lo hi x : Nat) : (b.rsetPair lo hi x).free = b.free := rfl

/-! ### Body.stick -/

@[simp] theorem Body.stick_staged (b : Body) (k i : Nat) : (b.stick k i).staged = b.staged := rfl
@[simp] theorem Body.stick_grid (b : Body) (k i : Nat) : (b.stick k i).grid = b.grid := rfl
@[simp] theorem Body.stick_incAt (b : Body) (k i : Nat) : (b.stick k i).incAt = b.incAt := rfl
@[simp] theorem Body.stick_incOld (b : Body) (k i : Nat) : (b.stick k i).incOld = b.incOld := rfl
@[simp] theorem Body.stick_ring (b : Body) (k i : Nat) : (b.stick k i).ring = b.ring := rfl
@[simp] theorem Body.stick_evt (b : Body) (k i : Nat) : (b.stick k i).evt = b.evt := rfl
@[simp] theorem Body.stick_host (b : Body) (k i : Nat) : (b.stick k i).host = b.host := rfl
@[simp] theorem Body.stick_comps (b : Body) (k i : Nat) : (b.stick k i).comps = b.comps := rfl
@[simp] theorem Body.stick_flux (b : Body) (k i : Nat) : (b.stick k i).flux = b.flux := rfl
@[simp] theorem Body.stick_bias (b : Body) (k i : Nat) : (b.stick k i).bias = b.bias := rfl
@[simp] theorem Body.stick_rcv (b : Body) (k i : Nat) : (b.stick k i).rcv = b.rcv := rfl
@[simp] theorem Body.stick_fab (b : Body) (k i : Nat) : (b.stick k i).fab = b.fab := rfl
@[simp] theorem Body.stick_engs (b : Body) (k i : Nat) : (b.stick k i).engs = b.engs := rfl
@[simp] theorem Body.stick_coves (b : Body) (k i : Nat) : (b.stick k i).coves = b.coves := rfl
@[simp] theorem Body.stick_ucode (b : Body) (k i : Nat) : (b.stick k i).ucode = b.ucode := rfl
@[simp] theorem Body.stick_udisp (b : Body) (k i : Nat) : (b.stick k i).udisp = b.udisp := rfl
@[simp] theorem Body.stick_outs (b : Body) (k i : Nat) : (b.stick k i).outs = b.outs := rfl
@[simp] theorem Body.stick_fifos (b : Body) (k i : Nat) : (b.stick k i).fifos = b.fifos := rfl
@[simp] theorem Body.stick_packAt (b : Body) (k i : Nat) : (b.stick k i).packAt = b.packAt := rfl
@[simp] theorem Body.stick_issue (b : Body) (k i : Nat) : (b.stick k i).issue = b.issue := rfl
@[simp] theorem Body.stick_held (b : Body) (k i : Nat) : (b.stick k i).held = b.held := rfl
@[simp] theorem Body.stick_turns (b : Body) (k i : Nat) : (b.stick k i).turns = b.turns := rfl
@[simp] theorem Body.stick_gather (b : Body) (k i : Nat) : (b.stick k i).gather = b.gather := rfl
@[simp] theorem Body.stick_badDie (b : Body) (k i : Nat) : (b.stick k i).badDie = b.badDie := rfl
@[simp] theorem Body.stick_badLines (b : Body) (k i : Nat) : (b.stick k i).badLines = b.badLines := rfl
@[simp] theorem Body.stick_mcHits (b : Body) (k i : Nat) : (b.stick k i).mcHits = b.mcHits := rfl
@[simp] theorem Body.stick_scrubAt (b : Body) (k i : Nat) : (b.stick k i).scrubAt = b.scrubAt := rfl
@[simp] theorem Body.stick_scope (b : Body) (k i : Nat) : (b.stick k i).scope = b.scope := rfl
@[simp] theorem Body.stick_cal (b : Body) (k i : Nat) : (b.stick k i).cal = b.cal := rfl
@[simp] theorem Body.stick_fuseWr (b : Body) (k i : Nat) : (b.stick k i).fuseWr = b.fuseWr := rfl
@[simp] theorem Body.stick_mcLoads (b : Body) (k i : Nat) : (b.stick k i).mcLoads = b.mcLoads := rfl
@[simp] theorem Body.stick_pwr (b : Body) (k i : Nat) : (b.stick k i).pwr = b.pwr := rfl
@[simp] theorem Body.stick_thm (b : Body) (k i : Nat) : (b.stick k i).thm = b.thm := rfl
@[simp] theorem Body.stick_flt (b : Body) (k i : Nat) : (b.stick k i).flt = b.flt := rfl
@[simp] theorem Body.stick_pcnt (b : Body) (k i : Nat) : (b.stick k i).pcnt = b.pcnt := rfl
@[simp] theorem Body.stick_bw (b : Body) (k i : Nat) : (b.stick k i).bw = b.bw := rfl
@[simp] theorem Body.stick_out (b : Body) (k i : Nat) : (b.stick k i).out = b.out := rfl
@[simp] theorem Body.stick_free (b : Body) (k i : Nat) : (b.stick k i).free = b.free := rfl

/-! ### Body.count -/

@[simp] theorem Body.count_staged (b : Body) (k n : Nat) : (b.count k n).staged = b.staged := rfl
@[simp] theorem Body.count_grid (b : Body) (k n : Nat) : (b.count k n).grid = b.grid := rfl
@[simp] theorem Body.count_incAt (b : Body) (k n : Nat) : (b.count k n).incAt = b.incAt := rfl
@[simp] theorem Body.count_incOld (b : Body) (k n : Nat) : (b.count k n).incOld = b.incOld := rfl
@[simp] theorem Body.count_ring (b : Body) (k n : Nat) : (b.count k n).ring = b.ring := rfl
@[simp] theorem Body.count_evt (b : Body) (k n : Nat) : (b.count k n).evt = b.evt := rfl
@[simp] theorem Body.count_host (b : Body) (k n : Nat) : (b.count k n).host = b.host := rfl
@[simp] theorem Body.count_comps (b : Body) (k n : Nat) : (b.count k n).comps = b.comps := rfl
@[simp] theorem Body.count_flux (b : Body) (k n : Nat) : (b.count k n).flux = b.flux := rfl
@[simp] theorem Body.count_bias (b : Body) (k n : Nat) : (b.count k n).bias = b.bias := rfl
@[simp] theorem Body.count_rcv (b : Body) (k n : Nat) : (b.count k n).rcv = b.rcv := rfl
@[simp] theorem Body.count_fab (b : Body) (k n : Nat) : (b.count k n).fab = b.fab := rfl
@[simp] theorem Body.count_engs (b : Body) (k n : Nat) : (b.count k n).engs = b.engs := rfl
@[simp] theorem Body.count_coves (b : Body) (k n : Nat) : (b.count k n).coves = b.coves := rfl
@[simp] theorem Body.count_ucode (b : Body) (k n : Nat) : (b.count k n).ucode = b.ucode := rfl
@[simp] theorem Body.count_udisp (b : Body) (k n : Nat) : (b.count k n).udisp = b.udisp := rfl
@[simp] theorem Body.count_outs (b : Body) (k n : Nat) : (b.count k n).outs = b.outs := rfl
@[simp] theorem Body.count_fifos (b : Body) (k n : Nat) : (b.count k n).fifos = b.fifos := rfl
@[simp] theorem Body.count_packAt (b : Body) (k n : Nat) : (b.count k n).packAt = b.packAt := rfl
@[simp] theorem Body.count_issue (b : Body) (k n : Nat) : (b.count k n).issue = b.issue := rfl
@[simp] theorem Body.count_held (b : Body) (k n : Nat) : (b.count k n).held = b.held := rfl
@[simp] theorem Body.count_turns (b : Body) (k n : Nat) : (b.count k n).turns = b.turns := rfl
@[simp] theorem Body.count_gather (b : Body) (k n : Nat) : (b.count k n).gather = b.gather := rfl
@[simp] theorem Body.count_badDie (b : Body) (k n : Nat) : (b.count k n).badDie = b.badDie := rfl
@[simp] theorem Body.count_badLines (b : Body) (k n : Nat) : (b.count k n).badLines = b.badLines := rfl
@[simp] theorem Body.count_mcHits (b : Body) (k n : Nat) : (b.count k n).mcHits = b.mcHits := rfl
@[simp] theorem Body.count_scrubAt (b : Body) (k n : Nat) : (b.count k n).scrubAt = b.scrubAt := rfl
@[simp] theorem Body.count_scope (b : Body) (k n : Nat) : (b.count k n).scope = b.scope := rfl
@[simp] theorem Body.count_cal (b : Body) (k n : Nat) : (b.count k n).cal = b.cal := rfl
@[simp] theorem Body.count_fuseWr (b : Body) (k n : Nat) : (b.count k n).fuseWr = b.fuseWr := rfl
@[simp] theorem Body.count_mcLoads (b : Body) (k n : Nat) : (b.count k n).mcLoads = b.mcLoads := rfl
@[simp] theorem Body.count_pwr (b : Body) (k n : Nat) : (b.count k n).pwr = b.pwr := rfl
@[simp] theorem Body.count_thm (b : Body) (k n : Nat) : (b.count k n).thm = b.thm := rfl
@[simp] theorem Body.count_flt (b : Body) (k n : Nat) : (b.count k n).flt = b.flt := rfl
@[simp] theorem Body.count_pcnt (b : Body) (k n : Nat) : (b.count k n).pcnt = b.pcnt := rfl
@[simp] theorem Body.count_bw (b : Body) (k n : Nat) : (b.count k n).bw = b.bw := rfl
@[simp] theorem Body.count_out (b : Body) (k n : Nat) : (b.count k n).out = b.out := rfl
@[simp] theorem Body.count_free (b : Body) (k n : Nat) : (b.count k n).free = b.free := rfl

/-! ### Body.clearCount -/

@[simp] theorem Body.clearCount_staged (b : Body) (k : Nat) : (b.clearCount k).staged = b.staged := rfl
@[simp] theorem Body.clearCount_log (b : Body) (k : Nat) : (b.clearCount k).log = b.log := rfl
@[simp] theorem Body.clearCount_grid (b : Body) (k : Nat) : (b.clearCount k).grid = b.grid := rfl
@[simp] theorem Body.clearCount_incAt (b : Body) (k : Nat) : (b.clearCount k).incAt = b.incAt := rfl
@[simp] theorem Body.clearCount_incOld (b : Body) (k : Nat) : (b.clearCount k).incOld = b.incOld := rfl
@[simp] theorem Body.clearCount_ring (b : Body) (k : Nat) : (b.clearCount k).ring = b.ring := rfl
@[simp] theorem Body.clearCount_evt (b : Body) (k : Nat) : (b.clearCount k).evt = b.evt := rfl
@[simp] theorem Body.clearCount_host (b : Body) (k : Nat) : (b.clearCount k).host = b.host := rfl
@[simp] theorem Body.clearCount_comps (b : Body) (k : Nat) : (b.clearCount k).comps = b.comps := rfl
@[simp] theorem Body.clearCount_flux (b : Body) (k : Nat) : (b.clearCount k).flux = b.flux := rfl
@[simp] theorem Body.clearCount_bias (b : Body) (k : Nat) : (b.clearCount k).bias = b.bias := rfl
@[simp] theorem Body.clearCount_rcv (b : Body) (k : Nat) : (b.clearCount k).rcv = b.rcv := rfl
@[simp] theorem Body.clearCount_fab (b : Body) (k : Nat) : (b.clearCount k).fab = b.fab := rfl
@[simp] theorem Body.clearCount_engs (b : Body) (k : Nat) : (b.clearCount k).engs = b.engs := rfl
@[simp] theorem Body.clearCount_coves (b : Body) (k : Nat) : (b.clearCount k).coves = b.coves := rfl
@[simp] theorem Body.clearCount_ucode (b : Body) (k : Nat) : (b.clearCount k).ucode = b.ucode := rfl
@[simp] theorem Body.clearCount_udisp (b : Body) (k : Nat) : (b.clearCount k).udisp = b.udisp := rfl
@[simp] theorem Body.clearCount_outs (b : Body) (k : Nat) : (b.clearCount k).outs = b.outs := rfl
@[simp] theorem Body.clearCount_fifos (b : Body) (k : Nat) : (b.clearCount k).fifos = b.fifos := rfl
@[simp] theorem Body.clearCount_packAt (b : Body) (k : Nat) : (b.clearCount k).packAt = b.packAt := rfl
@[simp] theorem Body.clearCount_issue (b : Body) (k : Nat) : (b.clearCount k).issue = b.issue := rfl
@[simp] theorem Body.clearCount_held (b : Body) (k : Nat) : (b.clearCount k).held = b.held := rfl
@[simp] theorem Body.clearCount_turns (b : Body) (k : Nat) : (b.clearCount k).turns = b.turns := rfl
@[simp] theorem Body.clearCount_gather (b : Body) (k : Nat) : (b.clearCount k).gather = b.gather := rfl
@[simp] theorem Body.clearCount_badDie (b : Body) (k : Nat) : (b.clearCount k).badDie = b.badDie := rfl
@[simp] theorem Body.clearCount_badLines (b : Body) (k : Nat) : (b.clearCount k).badLines = b.badLines := rfl
@[simp] theorem Body.clearCount_mcHits (b : Body) (k : Nat) : (b.clearCount k).mcHits = b.mcHits := rfl
@[simp] theorem Body.clearCount_scrubAt (b : Body) (k : Nat) : (b.clearCount k).scrubAt = b.scrubAt := rfl
@[simp] theorem Body.clearCount_scope (b : Body) (k : Nat) : (b.clearCount k).scope = b.scope := rfl
@[simp] theorem Body.clearCount_cal (b : Body) (k : Nat) : (b.clearCount k).cal = b.cal := rfl
@[simp] theorem Body.clearCount_fuseWr (b : Body) (k : Nat) : (b.clearCount k).fuseWr = b.fuseWr := rfl
@[simp] theorem Body.clearCount_mcLoads (b : Body) (k : Nat) : (b.clearCount k).mcLoads = b.mcLoads := rfl
@[simp] theorem Body.clearCount_pwr (b : Body) (k : Nat) : (b.clearCount k).pwr = b.pwr := rfl
@[simp] theorem Body.clearCount_thm (b : Body) (k : Nat) : (b.clearCount k).thm = b.thm := rfl
@[simp] theorem Body.clearCount_flt (b : Body) (k : Nat) : (b.clearCount k).flt = b.flt := rfl
@[simp] theorem Body.clearCount_pcnt (b : Body) (k : Nat) : (b.clearCount k).pcnt = b.pcnt := rfl
@[simp] theorem Body.clearCount_bw (b : Body) (k : Nat) : (b.clearCount k).bw = b.bw := rfl
@[simp] theorem Body.clearCount_out (b : Body) (k : Nat) : (b.clearCount k).out = b.out := rfl
@[simp] theorem Body.clearCount_free (b : Body) (k : Nat) : (b.clearCount k).free = b.free := rfl

/-! ### Body.w1c -/

@[simp] theorem Body.w1c_staged (b : Body) (k : Nat) (mask v : Reg32) : (b.w1c k mask v).staged = b.staged := rfl
@[simp] theorem Body.w1c_log (b : Body) (k : Nat) (mask v : Reg32) : (b.w1c k mask v).log = b.log := rfl
@[simp] theorem Body.w1c_grid (b : Body) (k : Nat) (mask v : Reg32) : (b.w1c k mask v).grid = b.grid := rfl
@[simp] theorem Body.w1c_incAt (b : Body) (k : Nat) (mask v : Reg32) : (b.w1c k mask v).incAt = b.incAt := rfl
@[simp] theorem Body.w1c_incOld (b : Body) (k : Nat) (mask v : Reg32) : (b.w1c k mask v).incOld = b.incOld := rfl
@[simp] theorem Body.w1c_ring (b : Body) (k : Nat) (mask v : Reg32) : (b.w1c k mask v).ring = b.ring := rfl
@[simp] theorem Body.w1c_evt (b : Body) (k : Nat) (mask v : Reg32) : (b.w1c k mask v).evt = b.evt := rfl
@[simp] theorem Body.w1c_host (b : Body) (k : Nat) (mask v : Reg32) : (b.w1c k mask v).host = b.host := rfl
@[simp] theorem Body.w1c_comps (b : Body) (k : Nat) (mask v : Reg32) : (b.w1c k mask v).comps = b.comps := rfl
@[simp] theorem Body.w1c_flux (b : Body) (k : Nat) (mask v : Reg32) : (b.w1c k mask v).flux = b.flux := rfl
@[simp] theorem Body.w1c_bias (b : Body) (k : Nat) (mask v : Reg32) : (b.w1c k mask v).bias = b.bias := rfl
@[simp] theorem Body.w1c_rcv (b : Body) (k : Nat) (mask v : Reg32) : (b.w1c k mask v).rcv = b.rcv := rfl
@[simp] theorem Body.w1c_fab (b : Body) (k : Nat) (mask v : Reg32) : (b.w1c k mask v).fab = b.fab := rfl
@[simp] theorem Body.w1c_engs (b : Body) (k : Nat) (mask v : Reg32) : (b.w1c k mask v).engs = b.engs := rfl
@[simp] theorem Body.w1c_coves (b : Body) (k : Nat) (mask v : Reg32) : (b.w1c k mask v).coves = b.coves := rfl
@[simp] theorem Body.w1c_ucode (b : Body) (k : Nat) (mask v : Reg32) : (b.w1c k mask v).ucode = b.ucode := rfl
@[simp] theorem Body.w1c_udisp (b : Body) (k : Nat) (mask v : Reg32) : (b.w1c k mask v).udisp = b.udisp := rfl
@[simp] theorem Body.w1c_outs (b : Body) (k : Nat) (mask v : Reg32) : (b.w1c k mask v).outs = b.outs := rfl
@[simp] theorem Body.w1c_fifos (b : Body) (k : Nat) (mask v : Reg32) : (b.w1c k mask v).fifos = b.fifos := rfl
@[simp] theorem Body.w1c_packAt (b : Body) (k : Nat) (mask v : Reg32) : (b.w1c k mask v).packAt = b.packAt := rfl
@[simp] theorem Body.w1c_issue (b : Body) (k : Nat) (mask v : Reg32) : (b.w1c k mask v).issue = b.issue := rfl
@[simp] theorem Body.w1c_held (b : Body) (k : Nat) (mask v : Reg32) : (b.w1c k mask v).held = b.held := rfl
@[simp] theorem Body.w1c_turns (b : Body) (k : Nat) (mask v : Reg32) : (b.w1c k mask v).turns = b.turns := rfl
@[simp] theorem Body.w1c_gather (b : Body) (k : Nat) (mask v : Reg32) : (b.w1c k mask v).gather = b.gather := rfl
@[simp] theorem Body.w1c_badDie (b : Body) (k : Nat) (mask v : Reg32) : (b.w1c k mask v).badDie = b.badDie := rfl
@[simp] theorem Body.w1c_badLines (b : Body) (k : Nat) (mask v : Reg32) : (b.w1c k mask v).badLines = b.badLines := rfl
@[simp] theorem Body.w1c_mcHits (b : Body) (k : Nat) (mask v : Reg32) : (b.w1c k mask v).mcHits = b.mcHits := rfl
@[simp] theorem Body.w1c_scrubAt (b : Body) (k : Nat) (mask v : Reg32) : (b.w1c k mask v).scrubAt = b.scrubAt := rfl
@[simp] theorem Body.w1c_scope (b : Body) (k : Nat) (mask v : Reg32) : (b.w1c k mask v).scope = b.scope := rfl
@[simp] theorem Body.w1c_cal (b : Body) (k : Nat) (mask v : Reg32) : (b.w1c k mask v).cal = b.cal := rfl
@[simp] theorem Body.w1c_fuseWr (b : Body) (k : Nat) (mask v : Reg32) : (b.w1c k mask v).fuseWr = b.fuseWr := rfl
@[simp] theorem Body.w1c_mcLoads (b : Body) (k : Nat) (mask v : Reg32) : (b.w1c k mask v).mcLoads = b.mcLoads := rfl
@[simp] theorem Body.w1c_pwr (b : Body) (k : Nat) (mask v : Reg32) : (b.w1c k mask v).pwr = b.pwr := rfl
@[simp] theorem Body.w1c_thm (b : Body) (k : Nat) (mask v : Reg32) : (b.w1c k mask v).thm = b.thm := rfl
@[simp] theorem Body.w1c_flt (b : Body) (k : Nat) (mask v : Reg32) : (b.w1c k mask v).flt = b.flt := rfl
@[simp] theorem Body.w1c_pcnt (b : Body) (k : Nat) (mask v : Reg32) : (b.w1c k mask v).pcnt = b.pcnt := rfl
@[simp] theorem Body.w1c_bw (b : Body) (k : Nat) (mask v : Reg32) : (b.w1c k mask v).bw = b.bw := rfl
@[simp] theorem Body.w1c_out (b : Body) (k : Nat) (mask v : Reg32) : (b.w1c k mask v).out = b.out := rfl
@[simp] theorem Body.w1c_free (b : Body) (k : Nat) (mask v : Reg32) : (b.w1c k mask v).free = b.free := rfl

/-! ### Body.reject -/

@[simp] theorem Body.reject_staged (b : Body) (status : Nat) : (b.reject status).staged = b.staged := rfl
@[simp] theorem Body.reject_grid (b : Body) (status : Nat) : (b.reject status).grid = b.grid := rfl
@[simp] theorem Body.reject_incAt (b : Body) (status : Nat) : (b.reject status).incAt = b.incAt := rfl
@[simp] theorem Body.reject_incOld (b : Body) (status : Nat) : (b.reject status).incOld = b.incOld := rfl
@[simp] theorem Body.reject_ring (b : Body) (status : Nat) : (b.reject status).ring = b.ring := rfl
@[simp] theorem Body.reject_evt (b : Body) (status : Nat) : (b.reject status).evt = b.evt := rfl
@[simp] theorem Body.reject_host (b : Body) (status : Nat) : (b.reject status).host = b.host := rfl
@[simp] theorem Body.reject_comps (b : Body) (status : Nat) : (b.reject status).comps = b.comps := rfl
@[simp] theorem Body.reject_flux (b : Body) (status : Nat) : (b.reject status).flux = b.flux := rfl
@[simp] theorem Body.reject_bias (b : Body) (status : Nat) : (b.reject status).bias = b.bias := rfl
@[simp] theorem Body.reject_rcv (b : Body) (status : Nat) : (b.reject status).rcv = b.rcv := rfl
@[simp] theorem Body.reject_fab (b : Body) (status : Nat) : (b.reject status).fab = b.fab := rfl
@[simp] theorem Body.reject_engs (b : Body) (status : Nat) : (b.reject status).engs = b.engs := rfl
@[simp] theorem Body.reject_coves (b : Body) (status : Nat) : (b.reject status).coves = b.coves := rfl
@[simp] theorem Body.reject_ucode (b : Body) (status : Nat) : (b.reject status).ucode = b.ucode := rfl
@[simp] theorem Body.reject_udisp (b : Body) (status : Nat) : (b.reject status).udisp = b.udisp := rfl
@[simp] theorem Body.reject_outs (b : Body) (status : Nat) : (b.reject status).outs = b.outs := rfl
@[simp] theorem Body.reject_fifos (b : Body) (status : Nat) : (b.reject status).fifos = b.fifos := rfl
@[simp] theorem Body.reject_packAt (b : Body) (status : Nat) : (b.reject status).packAt = b.packAt := rfl
@[simp] theorem Body.reject_issue (b : Body) (status : Nat) : (b.reject status).issue = b.issue := rfl
@[simp] theorem Body.reject_held (b : Body) (status : Nat) : (b.reject status).held = b.held := rfl
@[simp] theorem Body.reject_turns (b : Body) (status : Nat) : (b.reject status).turns = b.turns := rfl
@[simp] theorem Body.reject_gather (b : Body) (status : Nat) : (b.reject status).gather = b.gather := rfl
@[simp] theorem Body.reject_badDie (b : Body) (status : Nat) : (b.reject status).badDie = b.badDie := rfl
@[simp] theorem Body.reject_badLines (b : Body) (status : Nat) : (b.reject status).badLines = b.badLines := rfl
@[simp] theorem Body.reject_mcHits (b : Body) (status : Nat) : (b.reject status).mcHits = b.mcHits := rfl
@[simp] theorem Body.reject_scrubAt (b : Body) (status : Nat) : (b.reject status).scrubAt = b.scrubAt := rfl
@[simp] theorem Body.reject_scope (b : Body) (status : Nat) : (b.reject status).scope = b.scope := rfl
@[simp] theorem Body.reject_cal (b : Body) (status : Nat) : (b.reject status).cal = b.cal := rfl
@[simp] theorem Body.reject_fuseWr (b : Body) (status : Nat) : (b.reject status).fuseWr = b.fuseWr := rfl
@[simp] theorem Body.reject_mcLoads (b : Body) (status : Nat) : (b.reject status).mcLoads = b.mcLoads := rfl
@[simp] theorem Body.reject_pwr (b : Body) (status : Nat) : (b.reject status).pwr = b.pwr := rfl
@[simp] theorem Body.reject_thm (b : Body) (status : Nat) : (b.reject status).thm = b.thm := rfl
@[simp] theorem Body.reject_flt (b : Body) (status : Nat) : (b.reject status).flt = b.flt := rfl
@[simp] theorem Body.reject_pcnt (b : Body) (status : Nat) : (b.reject status).pcnt = b.pcnt := rfl
@[simp] theorem Body.reject_bw (b : Body) (status : Nat) : (b.reject status).bw = b.bw := rfl
@[simp] theorem Body.reject_out (b : Body) (status : Nat) : (b.reject status).out = b.out := rfl
@[simp] theorem Body.reject_free (b : Body) (status : Nat) : (b.reject status).free = b.free := rfl

/-! ### Body.stage -/

@[simp] theorem Body.stage_regs (b : Body) (lo : Nat) (v : Reg32) : (b.stage lo v).regs = b.regs := rfl
@[simp] theorem Body.stage_log (b : Body) (lo : Nat) (v : Reg32) : (b.stage lo v).log = b.log := rfl
@[simp] theorem Body.stage_grid (b : Body) (lo : Nat) (v : Reg32) : (b.stage lo v).grid = b.grid := rfl
@[simp] theorem Body.stage_incAt (b : Body) (lo : Nat) (v : Reg32) : (b.stage lo v).incAt = b.incAt := rfl
@[simp] theorem Body.stage_incOld (b : Body) (lo : Nat) (v : Reg32) : (b.stage lo v).incOld = b.incOld := rfl
@[simp] theorem Body.stage_ring (b : Body) (lo : Nat) (v : Reg32) : (b.stage lo v).ring = b.ring := rfl
@[simp] theorem Body.stage_evt (b : Body) (lo : Nat) (v : Reg32) : (b.stage lo v).evt = b.evt := rfl
@[simp] theorem Body.stage_host (b : Body) (lo : Nat) (v : Reg32) : (b.stage lo v).host = b.host := rfl
@[simp] theorem Body.stage_comps (b : Body) (lo : Nat) (v : Reg32) : (b.stage lo v).comps = b.comps := rfl
@[simp] theorem Body.stage_flux (b : Body) (lo : Nat) (v : Reg32) : (b.stage lo v).flux = b.flux := rfl
@[simp] theorem Body.stage_bias (b : Body) (lo : Nat) (v : Reg32) : (b.stage lo v).bias = b.bias := rfl
@[simp] theorem Body.stage_rcv (b : Body) (lo : Nat) (v : Reg32) : (b.stage lo v).rcv = b.rcv := rfl
@[simp] theorem Body.stage_fab (b : Body) (lo : Nat) (v : Reg32) : (b.stage lo v).fab = b.fab := rfl
@[simp] theorem Body.stage_engs (b : Body) (lo : Nat) (v : Reg32) : (b.stage lo v).engs = b.engs := rfl
@[simp] theorem Body.stage_coves (b : Body) (lo : Nat) (v : Reg32) : (b.stage lo v).coves = b.coves := rfl
@[simp] theorem Body.stage_ucode (b : Body) (lo : Nat) (v : Reg32) : (b.stage lo v).ucode = b.ucode := rfl
@[simp] theorem Body.stage_udisp (b : Body) (lo : Nat) (v : Reg32) : (b.stage lo v).udisp = b.udisp := rfl
@[simp] theorem Body.stage_outs (b : Body) (lo : Nat) (v : Reg32) : (b.stage lo v).outs = b.outs := rfl
@[simp] theorem Body.stage_fifos (b : Body) (lo : Nat) (v : Reg32) : (b.stage lo v).fifos = b.fifos := rfl
@[simp] theorem Body.stage_packAt (b : Body) (lo : Nat) (v : Reg32) : (b.stage lo v).packAt = b.packAt := rfl
@[simp] theorem Body.stage_issue (b : Body) (lo : Nat) (v : Reg32) : (b.stage lo v).issue = b.issue := rfl
@[simp] theorem Body.stage_held (b : Body) (lo : Nat) (v : Reg32) : (b.stage lo v).held = b.held := rfl
@[simp] theorem Body.stage_turns (b : Body) (lo : Nat) (v : Reg32) : (b.stage lo v).turns = b.turns := rfl
@[simp] theorem Body.stage_gather (b : Body) (lo : Nat) (v : Reg32) : (b.stage lo v).gather = b.gather := rfl
@[simp] theorem Body.stage_badDie (b : Body) (lo : Nat) (v : Reg32) : (b.stage lo v).badDie = b.badDie := rfl
@[simp] theorem Body.stage_badLines (b : Body) (lo : Nat) (v : Reg32) : (b.stage lo v).badLines = b.badLines := rfl
@[simp] theorem Body.stage_mcHits (b : Body) (lo : Nat) (v : Reg32) : (b.stage lo v).mcHits = b.mcHits := rfl
@[simp] theorem Body.stage_scrubAt (b : Body) (lo : Nat) (v : Reg32) : (b.stage lo v).scrubAt = b.scrubAt := rfl
@[simp] theorem Body.stage_scope (b : Body) (lo : Nat) (v : Reg32) : (b.stage lo v).scope = b.scope := rfl
@[simp] theorem Body.stage_cal (b : Body) (lo : Nat) (v : Reg32) : (b.stage lo v).cal = b.cal := rfl
@[simp] theorem Body.stage_fuseWr (b : Body) (lo : Nat) (v : Reg32) : (b.stage lo v).fuseWr = b.fuseWr := rfl
@[simp] theorem Body.stage_mcLoads (b : Body) (lo : Nat) (v : Reg32) : (b.stage lo v).mcLoads = b.mcLoads := rfl
@[simp] theorem Body.stage_pwr (b : Body) (lo : Nat) (v : Reg32) : (b.stage lo v).pwr = b.pwr := rfl
@[simp] theorem Body.stage_thm (b : Body) (lo : Nat) (v : Reg32) : (b.stage lo v).thm = b.thm := rfl
@[simp] theorem Body.stage_flt (b : Body) (lo : Nat) (v : Reg32) : (b.stage lo v).flt = b.flt := rfl
@[simp] theorem Body.stage_pcnt (b : Body) (lo : Nat) (v : Reg32) : (b.stage lo v).pcnt = b.pcnt := rfl
@[simp] theorem Body.stage_bw (b : Body) (lo : Nat) (v : Reg32) : (b.stage lo v).bw = b.bw := rfl
@[simp] theorem Body.stage_out (b : Body) (lo : Nat) (v : Reg32) : (b.stage lo v).out = b.out := rfl
@[simp] theorem Body.stage_free (b : Body) (lo : Nat) (v : Reg32) : (b.stage lo v).free = b.free := rfl

/-! ### Body.unstage -/

@[simp] theorem Body.unstage_regs (b : Body) (lo : Nat) : (b.unstage lo).regs = b.regs := rfl
@[simp] theorem Body.unstage_log (b : Body) (lo : Nat) : (b.unstage lo).log = b.log := rfl
@[simp] theorem Body.unstage_grid (b : Body) (lo : Nat) : (b.unstage lo).grid = b.grid := rfl
@[simp] theorem Body.unstage_incAt (b : Body) (lo : Nat) : (b.unstage lo).incAt = b.incAt := rfl
@[simp] theorem Body.unstage_incOld (b : Body) (lo : Nat) : (b.unstage lo).incOld = b.incOld := rfl
@[simp] theorem Body.unstage_ring (b : Body) (lo : Nat) : (b.unstage lo).ring = b.ring := rfl
@[simp] theorem Body.unstage_evt (b : Body) (lo : Nat) : (b.unstage lo).evt = b.evt := rfl
@[simp] theorem Body.unstage_host (b : Body) (lo : Nat) : (b.unstage lo).host = b.host := rfl
@[simp] theorem Body.unstage_comps (b : Body) (lo : Nat) : (b.unstage lo).comps = b.comps := rfl
@[simp] theorem Body.unstage_flux (b : Body) (lo : Nat) : (b.unstage lo).flux = b.flux := rfl
@[simp] theorem Body.unstage_bias (b : Body) (lo : Nat) : (b.unstage lo).bias = b.bias := rfl
@[simp] theorem Body.unstage_rcv (b : Body) (lo : Nat) : (b.unstage lo).rcv = b.rcv := rfl
@[simp] theorem Body.unstage_fab (b : Body) (lo : Nat) : (b.unstage lo).fab = b.fab := rfl
@[simp] theorem Body.unstage_engs (b : Body) (lo : Nat) : (b.unstage lo).engs = b.engs := rfl
@[simp] theorem Body.unstage_coves (b : Body) (lo : Nat) : (b.unstage lo).coves = b.coves := rfl
@[simp] theorem Body.unstage_ucode (b : Body) (lo : Nat) : (b.unstage lo).ucode = b.ucode := rfl
@[simp] theorem Body.unstage_udisp (b : Body) (lo : Nat) : (b.unstage lo).udisp = b.udisp := rfl
@[simp] theorem Body.unstage_outs (b : Body) (lo : Nat) : (b.unstage lo).outs = b.outs := rfl
@[simp] theorem Body.unstage_fifos (b : Body) (lo : Nat) : (b.unstage lo).fifos = b.fifos := rfl
@[simp] theorem Body.unstage_packAt (b : Body) (lo : Nat) : (b.unstage lo).packAt = b.packAt := rfl
@[simp] theorem Body.unstage_issue (b : Body) (lo : Nat) : (b.unstage lo).issue = b.issue := rfl
@[simp] theorem Body.unstage_held (b : Body) (lo : Nat) : (b.unstage lo).held = b.held := rfl
@[simp] theorem Body.unstage_turns (b : Body) (lo : Nat) : (b.unstage lo).turns = b.turns := rfl
@[simp] theorem Body.unstage_gather (b : Body) (lo : Nat) : (b.unstage lo).gather = b.gather := rfl
@[simp] theorem Body.unstage_badDie (b : Body) (lo : Nat) : (b.unstage lo).badDie = b.badDie := rfl
@[simp] theorem Body.unstage_badLines (b : Body) (lo : Nat) : (b.unstage lo).badLines = b.badLines := rfl
@[simp] theorem Body.unstage_mcHits (b : Body) (lo : Nat) : (b.unstage lo).mcHits = b.mcHits := rfl
@[simp] theorem Body.unstage_scrubAt (b : Body) (lo : Nat) : (b.unstage lo).scrubAt = b.scrubAt := rfl
@[simp] theorem Body.unstage_scope (b : Body) (lo : Nat) : (b.unstage lo).scope = b.scope := rfl
@[simp] theorem Body.unstage_cal (b : Body) (lo : Nat) : (b.unstage lo).cal = b.cal := rfl
@[simp] theorem Body.unstage_fuseWr (b : Body) (lo : Nat) : (b.unstage lo).fuseWr = b.fuseWr := rfl
@[simp] theorem Body.unstage_mcLoads (b : Body) (lo : Nat) : (b.unstage lo).mcLoads = b.mcLoads := rfl
@[simp] theorem Body.unstage_pwr (b : Body) (lo : Nat) : (b.unstage lo).pwr = b.pwr := rfl
@[simp] theorem Body.unstage_thm (b : Body) (lo : Nat) : (b.unstage lo).thm = b.thm := rfl
@[simp] theorem Body.unstage_flt (b : Body) (lo : Nat) : (b.unstage lo).flt = b.flt := rfl
@[simp] theorem Body.unstage_pcnt (b : Body) (lo : Nat) : (b.unstage lo).pcnt = b.pcnt := rfl
@[simp] theorem Body.unstage_bw (b : Body) (lo : Nat) : (b.unstage lo).bw = b.bw := rfl
@[simp] theorem Body.unstage_out (b : Body) (lo : Nat) : (b.unstage lo).out = b.out := rfl
@[simp] theorem Body.unstage_free (b : Body) (lo : Nat) : (b.unstage lo).free = b.free := rfl

/-! ### Body.commitPair -/

@[simp] theorem Body.commitPair_log (b : Body) (lo hi : Nat) (v : Reg32) : (b.commitPair lo hi v).log = b.log := rfl
@[simp] theorem Body.commitPair_grid (b : Body) (lo hi : Nat) (v : Reg32) : (b.commitPair lo hi v).grid = b.grid := rfl
@[simp] theorem Body.commitPair_incAt (b : Body) (lo hi : Nat) (v : Reg32) : (b.commitPair lo hi v).incAt = b.incAt := rfl
@[simp] theorem Body.commitPair_incOld (b : Body) (lo hi : Nat) (v : Reg32) : (b.commitPair lo hi v).incOld = b.incOld := rfl
@[simp] theorem Body.commitPair_ring (b : Body) (lo hi : Nat) (v : Reg32) : (b.commitPair lo hi v).ring = b.ring := rfl
@[simp] theorem Body.commitPair_evt (b : Body) (lo hi : Nat) (v : Reg32) : (b.commitPair lo hi v).evt = b.evt := rfl
@[simp] theorem Body.commitPair_host (b : Body) (lo hi : Nat) (v : Reg32) : (b.commitPair lo hi v).host = b.host := rfl
@[simp] theorem Body.commitPair_comps (b : Body) (lo hi : Nat) (v : Reg32) : (b.commitPair lo hi v).comps = b.comps := rfl
@[simp] theorem Body.commitPair_flux (b : Body) (lo hi : Nat) (v : Reg32) : (b.commitPair lo hi v).flux = b.flux := rfl
@[simp] theorem Body.commitPair_bias (b : Body) (lo hi : Nat) (v : Reg32) : (b.commitPair lo hi v).bias = b.bias := rfl
@[simp] theorem Body.commitPair_rcv (b : Body) (lo hi : Nat) (v : Reg32) : (b.commitPair lo hi v).rcv = b.rcv := rfl
@[simp] theorem Body.commitPair_fab (b : Body) (lo hi : Nat) (v : Reg32) : (b.commitPair lo hi v).fab = b.fab := rfl
@[simp] theorem Body.commitPair_engs (b : Body) (lo hi : Nat) (v : Reg32) : (b.commitPair lo hi v).engs = b.engs := rfl
@[simp] theorem Body.commitPair_coves (b : Body) (lo hi : Nat) (v : Reg32) : (b.commitPair lo hi v).coves = b.coves := rfl
@[simp] theorem Body.commitPair_ucode (b : Body) (lo hi : Nat) (v : Reg32) : (b.commitPair lo hi v).ucode = b.ucode := rfl
@[simp] theorem Body.commitPair_udisp (b : Body) (lo hi : Nat) (v : Reg32) : (b.commitPair lo hi v).udisp = b.udisp := rfl
@[simp] theorem Body.commitPair_outs (b : Body) (lo hi : Nat) (v : Reg32) : (b.commitPair lo hi v).outs = b.outs := rfl
@[simp] theorem Body.commitPair_fifos (b : Body) (lo hi : Nat) (v : Reg32) : (b.commitPair lo hi v).fifos = b.fifos := rfl
@[simp] theorem Body.commitPair_packAt (b : Body) (lo hi : Nat) (v : Reg32) : (b.commitPair lo hi v).packAt = b.packAt := rfl
@[simp] theorem Body.commitPair_issue (b : Body) (lo hi : Nat) (v : Reg32) : (b.commitPair lo hi v).issue = b.issue := rfl
@[simp] theorem Body.commitPair_held (b : Body) (lo hi : Nat) (v : Reg32) : (b.commitPair lo hi v).held = b.held := rfl
@[simp] theorem Body.commitPair_turns (b : Body) (lo hi : Nat) (v : Reg32) : (b.commitPair lo hi v).turns = b.turns := rfl
@[simp] theorem Body.commitPair_gather (b : Body) (lo hi : Nat) (v : Reg32) : (b.commitPair lo hi v).gather = b.gather := rfl
@[simp] theorem Body.commitPair_badDie (b : Body) (lo hi : Nat) (v : Reg32) : (b.commitPair lo hi v).badDie = b.badDie := rfl
@[simp] theorem Body.commitPair_badLines (b : Body) (lo hi : Nat) (v : Reg32) : (b.commitPair lo hi v).badLines = b.badLines := rfl
@[simp] theorem Body.commitPair_mcHits (b : Body) (lo hi : Nat) (v : Reg32) : (b.commitPair lo hi v).mcHits = b.mcHits := rfl
@[simp] theorem Body.commitPair_scrubAt (b : Body) (lo hi : Nat) (v : Reg32) : (b.commitPair lo hi v).scrubAt = b.scrubAt := rfl
@[simp] theorem Body.commitPair_scope (b : Body) (lo hi : Nat) (v : Reg32) : (b.commitPair lo hi v).scope = b.scope := rfl
@[simp] theorem Body.commitPair_cal (b : Body) (lo hi : Nat) (v : Reg32) : (b.commitPair lo hi v).cal = b.cal := rfl
@[simp] theorem Body.commitPair_fuseWr (b : Body) (lo hi : Nat) (v : Reg32) : (b.commitPair lo hi v).fuseWr = b.fuseWr := rfl
@[simp] theorem Body.commitPair_mcLoads (b : Body) (lo hi : Nat) (v : Reg32) : (b.commitPair lo hi v).mcLoads = b.mcLoads := rfl
@[simp] theorem Body.commitPair_pwr (b : Body) (lo hi : Nat) (v : Reg32) : (b.commitPair lo hi v).pwr = b.pwr := rfl
@[simp] theorem Body.commitPair_thm (b : Body) (lo hi : Nat) (v : Reg32) : (b.commitPair lo hi v).thm = b.thm := rfl
@[simp] theorem Body.commitPair_flt (b : Body) (lo hi : Nat) (v : Reg32) : (b.commitPair lo hi v).flt = b.flt := rfl
@[simp] theorem Body.commitPair_pcnt (b : Body) (lo hi : Nat) (v : Reg32) : (b.commitPair lo hi v).pcnt = b.pcnt := rfl
@[simp] theorem Body.commitPair_bw (b : Body) (lo hi : Nat) (v : Reg32) : (b.commitPair lo hi v).bw = b.bw := rfl
@[simp] theorem Body.commitPair_out (b : Body) (lo hi : Nat) (v : Reg32) : (b.commitPair lo hi v).out = b.out := rfl
@[simp] theorem Body.commitPair_free (b : Body) (lo hi : Nat) (v : Reg32) : (b.commitPair lo hi v).free = b.free := rfl

/-! ### Body.draw -/

@[simp] theorem Body.draw_regs (b : Body) : (b.draw).regs = b.regs := rfl
@[simp] theorem Body.draw_staged (b : Body) : (b.draw).staged = b.staged := rfl
@[simp] theorem Body.draw_log (b : Body) : (b.draw).log = b.log := rfl
@[simp] theorem Body.draw_grid (b : Body) : (b.draw).grid = b.grid := rfl
@[simp] theorem Body.draw_incAt (b : Body) : (b.draw).incAt = b.incAt := rfl
@[simp] theorem Body.draw_incOld (b : Body) : (b.draw).incOld = b.incOld := rfl
@[simp] theorem Body.draw_ring (b : Body) : (b.draw).ring = b.ring := rfl
@[simp] theorem Body.draw_evt (b : Body) : (b.draw).evt = b.evt := rfl
@[simp] theorem Body.draw_host (b : Body) : (b.draw).host = b.host := rfl
@[simp] theorem Body.draw_comps (b : Body) : (b.draw).comps = b.comps := rfl
@[simp] theorem Body.draw_flux (b : Body) : (b.draw).flux = b.flux := rfl
@[simp] theorem Body.draw_bias (b : Body) : (b.draw).bias = b.bias := rfl
@[simp] theorem Body.draw_rcv (b : Body) : (b.draw).rcv = b.rcv := rfl
@[simp] theorem Body.draw_fab (b : Body) : (b.draw).fab = b.fab := rfl
@[simp] theorem Body.draw_engs (b : Body) : (b.draw).engs = b.engs := rfl
@[simp] theorem Body.draw_coves (b : Body) : (b.draw).coves = b.coves := rfl
@[simp] theorem Body.draw_ucode (b : Body) : (b.draw).ucode = b.ucode := rfl
@[simp] theorem Body.draw_udisp (b : Body) : (b.draw).udisp = b.udisp := rfl
@[simp] theorem Body.draw_outs (b : Body) : (b.draw).outs = b.outs := rfl
@[simp] theorem Body.draw_fifos (b : Body) : (b.draw).fifos = b.fifos := rfl
@[simp] theorem Body.draw_packAt (b : Body) : (b.draw).packAt = b.packAt := rfl
@[simp] theorem Body.draw_issue (b : Body) : (b.draw).issue = b.issue := rfl
@[simp] theorem Body.draw_held (b : Body) : (b.draw).held = b.held := rfl
@[simp] theorem Body.draw_turns (b : Body) : (b.draw).turns = b.turns := rfl
@[simp] theorem Body.draw_gather (b : Body) : (b.draw).gather = b.gather := rfl
@[simp] theorem Body.draw_badDie (b : Body) : (b.draw).badDie = b.badDie := rfl
@[simp] theorem Body.draw_badLines (b : Body) : (b.draw).badLines = b.badLines := rfl
@[simp] theorem Body.draw_mcHits (b : Body) : (b.draw).mcHits = b.mcHits := rfl
@[simp] theorem Body.draw_scrubAt (b : Body) : (b.draw).scrubAt = b.scrubAt := rfl
@[simp] theorem Body.draw_scope (b : Body) : (b.draw).scope = b.scope := rfl
@[simp] theorem Body.draw_cal (b : Body) : (b.draw).cal = b.cal := rfl
@[simp] theorem Body.draw_fuseWr (b : Body) : (b.draw).fuseWr = b.fuseWr := rfl
@[simp] theorem Body.draw_mcLoads (b : Body) : (b.draw).mcLoads = b.mcLoads := rfl
@[simp] theorem Body.draw_pwr (b : Body) : (b.draw).pwr = b.pwr := rfl
@[simp] theorem Body.draw_thm (b : Body) : (b.draw).thm = b.thm := rfl
@[simp] theorem Body.draw_flt (b : Body) : (b.draw).flt = b.flt := rfl
@[simp] theorem Body.draw_pcnt (b : Body) : (b.draw).pcnt = b.pcnt := rfl
@[simp] theorem Body.draw_bw (b : Body) : (b.draw).bw = b.bw := rfl
@[simp] theorem Body.draw_out (b : Body) : (b.draw).out = b.out := rfl

/-! ### Body.perf -/

@[simp] theorem Body.perf_regs (b : Body) (ev idx n : Nat) : (b.perf ev idx n).regs = b.regs := rfl
@[simp] theorem Body.perf_staged (b : Body) (ev idx n : Nat) : (b.perf ev idx n).staged = b.staged := rfl
@[simp] theorem Body.perf_grid (b : Body) (ev idx n : Nat) : (b.perf ev idx n).grid = b.grid := rfl
@[simp] theorem Body.perf_incAt (b : Body) (ev idx n : Nat) : (b.perf ev idx n).incAt = b.incAt := rfl
@[simp] theorem Body.perf_incOld (b : Body) (ev idx n : Nat) : (b.perf ev idx n).incOld = b.incOld := rfl
@[simp] theorem Body.perf_ring (b : Body) (ev idx n : Nat) : (b.perf ev idx n).ring = b.ring := rfl
@[simp] theorem Body.perf_evt (b : Body) (ev idx n : Nat) : (b.perf ev idx n).evt = b.evt := rfl
@[simp] theorem Body.perf_host (b : Body) (ev idx n : Nat) : (b.perf ev idx n).host = b.host := rfl
@[simp] theorem Body.perf_comps (b : Body) (ev idx n : Nat) : (b.perf ev idx n).comps = b.comps := rfl
@[simp] theorem Body.perf_flux (b : Body) (ev idx n : Nat) : (b.perf ev idx n).flux = b.flux := rfl
@[simp] theorem Body.perf_bias (b : Body) (ev idx n : Nat) : (b.perf ev idx n).bias = b.bias := rfl
@[simp] theorem Body.perf_rcv (b : Body) (ev idx n : Nat) : (b.perf ev idx n).rcv = b.rcv := rfl
@[simp] theorem Body.perf_fab (b : Body) (ev idx n : Nat) : (b.perf ev idx n).fab = b.fab := rfl
@[simp] theorem Body.perf_engs (b : Body) (ev idx n : Nat) : (b.perf ev idx n).engs = b.engs := rfl
@[simp] theorem Body.perf_coves (b : Body) (ev idx n : Nat) : (b.perf ev idx n).coves = b.coves := rfl
@[simp] theorem Body.perf_ucode (b : Body) (ev idx n : Nat) : (b.perf ev idx n).ucode = b.ucode := rfl
@[simp] theorem Body.perf_udisp (b : Body) (ev idx n : Nat) : (b.perf ev idx n).udisp = b.udisp := rfl
@[simp] theorem Body.perf_outs (b : Body) (ev idx n : Nat) : (b.perf ev idx n).outs = b.outs := rfl
@[simp] theorem Body.perf_fifos (b : Body) (ev idx n : Nat) : (b.perf ev idx n).fifos = b.fifos := rfl
@[simp] theorem Body.perf_packAt (b : Body) (ev idx n : Nat) : (b.perf ev idx n).packAt = b.packAt := rfl
@[simp] theorem Body.perf_issue (b : Body) (ev idx n : Nat) : (b.perf ev idx n).issue = b.issue := rfl
@[simp] theorem Body.perf_held (b : Body) (ev idx n : Nat) : (b.perf ev idx n).held = b.held := rfl
@[simp] theorem Body.perf_turns (b : Body) (ev idx n : Nat) : (b.perf ev idx n).turns = b.turns := rfl
@[simp] theorem Body.perf_gather (b : Body) (ev idx n : Nat) : (b.perf ev idx n).gather = b.gather := rfl
@[simp] theorem Body.perf_badDie (b : Body) (ev idx n : Nat) : (b.perf ev idx n).badDie = b.badDie := rfl
@[simp] theorem Body.perf_badLines (b : Body) (ev idx n : Nat) : (b.perf ev idx n).badLines = b.badLines := rfl
@[simp] theorem Body.perf_mcHits (b : Body) (ev idx n : Nat) : (b.perf ev idx n).mcHits = b.mcHits := rfl
@[simp] theorem Body.perf_scrubAt (b : Body) (ev idx n : Nat) : (b.perf ev idx n).scrubAt = b.scrubAt := rfl
@[simp] theorem Body.perf_scope (b : Body) (ev idx n : Nat) : (b.perf ev idx n).scope = b.scope := rfl
@[simp] theorem Body.perf_cal (b : Body) (ev idx n : Nat) : (b.perf ev idx n).cal = b.cal := rfl
@[simp] theorem Body.perf_fuseWr (b : Body) (ev idx n : Nat) : (b.perf ev idx n).fuseWr = b.fuseWr := rfl
@[simp] theorem Body.perf_mcLoads (b : Body) (ev idx n : Nat) : (b.perf ev idx n).mcLoads = b.mcLoads := rfl
@[simp] theorem Body.perf_pwr (b : Body) (ev idx n : Nat) : (b.perf ev idx n).pwr = b.pwr := rfl
@[simp] theorem Body.perf_thm (b : Body) (ev idx n : Nat) : (b.perf ev idx n).thm = b.thm := rfl
@[simp] theorem Body.perf_flt (b : Body) (ev idx n : Nat) : (b.perf ev idx n).flt = b.flt := rfl
@[simp] theorem Body.perf_pcnt (b : Body) (ev idx n : Nat) : (b.perf ev idx n).pcnt = b.pcnt := rfl
@[simp] theorem Body.perf_bw (b : Body) (ev idx n : Nat) : (b.perf ev idx n).bw = b.bw := rfl
@[simp] theorem Body.perf_out (b : Body) (ev idx n : Nat) : (b.perf ev idx n).out = b.out := rfl
@[simp] theorem Body.perf_free (b : Body) (ev idx n : Nat) : (b.perf ev idx n).free = b.free := rfl

/-! ### Body.emitOut -/

@[simp] theorem Body.emitOut_regs (b : Body) (o : OutItem) : (b.emitOut o).regs = b.regs := rfl
@[simp] theorem Body.emitOut_staged (b : Body) (o : OutItem) : (b.emitOut o).staged = b.staged := rfl
@[simp] theorem Body.emitOut_log (b : Body) (o : OutItem) : (b.emitOut o).log = b.log := rfl
@[simp] theorem Body.emitOut_grid (b : Body) (o : OutItem) : (b.emitOut o).grid = b.grid := rfl
@[simp] theorem Body.emitOut_incAt (b : Body) (o : OutItem) : (b.emitOut o).incAt = b.incAt := rfl
@[simp] theorem Body.emitOut_incOld (b : Body) (o : OutItem) : (b.emitOut o).incOld = b.incOld := rfl
@[simp] theorem Body.emitOut_ring (b : Body) (o : OutItem) : (b.emitOut o).ring = b.ring := rfl
@[simp] theorem Body.emitOut_evt (b : Body) (o : OutItem) : (b.emitOut o).evt = b.evt := rfl
@[simp] theorem Body.emitOut_host (b : Body) (o : OutItem) : (b.emitOut o).host = b.host := rfl
@[simp] theorem Body.emitOut_comps (b : Body) (o : OutItem) : (b.emitOut o).comps = b.comps := rfl
@[simp] theorem Body.emitOut_flux (b : Body) (o : OutItem) : (b.emitOut o).flux = b.flux := rfl
@[simp] theorem Body.emitOut_bias (b : Body) (o : OutItem) : (b.emitOut o).bias = b.bias := rfl
@[simp] theorem Body.emitOut_rcv (b : Body) (o : OutItem) : (b.emitOut o).rcv = b.rcv := rfl
@[simp] theorem Body.emitOut_fab (b : Body) (o : OutItem) : (b.emitOut o).fab = b.fab := rfl
@[simp] theorem Body.emitOut_engs (b : Body) (o : OutItem) : (b.emitOut o).engs = b.engs := rfl
@[simp] theorem Body.emitOut_coves (b : Body) (o : OutItem) : (b.emitOut o).coves = b.coves := rfl
@[simp] theorem Body.emitOut_ucode (b : Body) (o : OutItem) : (b.emitOut o).ucode = b.ucode := rfl
@[simp] theorem Body.emitOut_udisp (b : Body) (o : OutItem) : (b.emitOut o).udisp = b.udisp := rfl
@[simp] theorem Body.emitOut_outs (b : Body) (o : OutItem) : (b.emitOut o).outs = b.outs := rfl
@[simp] theorem Body.emitOut_fifos (b : Body) (o : OutItem) : (b.emitOut o).fifos = b.fifos := rfl
@[simp] theorem Body.emitOut_packAt (b : Body) (o : OutItem) : (b.emitOut o).packAt = b.packAt := rfl
@[simp] theorem Body.emitOut_issue (b : Body) (o : OutItem) : (b.emitOut o).issue = b.issue := rfl
@[simp] theorem Body.emitOut_held (b : Body) (o : OutItem) : (b.emitOut o).held = b.held := rfl
@[simp] theorem Body.emitOut_turns (b : Body) (o : OutItem) : (b.emitOut o).turns = b.turns := rfl
@[simp] theorem Body.emitOut_gather (b : Body) (o : OutItem) : (b.emitOut o).gather = b.gather := rfl
@[simp] theorem Body.emitOut_badDie (b : Body) (o : OutItem) : (b.emitOut o).badDie = b.badDie := rfl
@[simp] theorem Body.emitOut_badLines (b : Body) (o : OutItem) : (b.emitOut o).badLines = b.badLines := rfl
@[simp] theorem Body.emitOut_mcHits (b : Body) (o : OutItem) : (b.emitOut o).mcHits = b.mcHits := rfl
@[simp] theorem Body.emitOut_scrubAt (b : Body) (o : OutItem) : (b.emitOut o).scrubAt = b.scrubAt := rfl
@[simp] theorem Body.emitOut_scope (b : Body) (o : OutItem) : (b.emitOut o).scope = b.scope := rfl
@[simp] theorem Body.emitOut_cal (b : Body) (o : OutItem) : (b.emitOut o).cal = b.cal := rfl
@[simp] theorem Body.emitOut_fuseWr (b : Body) (o : OutItem) : (b.emitOut o).fuseWr = b.fuseWr := rfl
@[simp] theorem Body.emitOut_mcLoads (b : Body) (o : OutItem) : (b.emitOut o).mcLoads = b.mcLoads := rfl
@[simp] theorem Body.emitOut_pwr (b : Body) (o : OutItem) : (b.emitOut o).pwr = b.pwr := rfl
@[simp] theorem Body.emitOut_thm (b : Body) (o : OutItem) : (b.emitOut o).thm = b.thm := rfl
@[simp] theorem Body.emitOut_flt (b : Body) (o : OutItem) : (b.emitOut o).flt = b.flt := rfl
@[simp] theorem Body.emitOut_pcnt (b : Body) (o : OutItem) : (b.emitOut o).pcnt = b.pcnt := rfl
@[simp] theorem Body.emitOut_bw (b : Body) (o : OutItem) : (b.emitOut o).bw = b.bw := rfl
@[simp] theorem Body.emitOut_free (b : Body) (o : OutItem) : (b.emitOut o).free = b.free := rfl

/-! ### Body.setHring -/

@[simp] theorem Body.setHring_regs (b : Body) (r : Nat) (h : HostRing) : (b.setHring r h).regs = b.regs := rfl
@[simp] theorem Body.setHring_staged (b : Body) (r : Nat) (h : HostRing) : (b.setHring r h).staged = b.staged := rfl
@[simp] theorem Body.setHring_log (b : Body) (r : Nat) (h : HostRing) : (b.setHring r h).log = b.log := rfl
@[simp] theorem Body.setHring_grid (b : Body) (r : Nat) (h : HostRing) : (b.setHring r h).grid = b.grid := rfl
@[simp] theorem Body.setHring_incAt (b : Body) (r : Nat) (h : HostRing) : (b.setHring r h).incAt = b.incAt := rfl
@[simp] theorem Body.setHring_incOld (b : Body) (r : Nat) (h : HostRing) : (b.setHring r h).incOld = b.incOld := rfl
@[simp] theorem Body.setHring_ring (b : Body) (r : Nat) (h : HostRing) : (b.setHring r h).ring = b.ring := rfl
@[simp] theorem Body.setHring_evt (b : Body) (r : Nat) (h : HostRing) : (b.setHring r h).evt = b.evt := rfl
@[simp] theorem Body.setHring_comps (b : Body) (r : Nat) (h : HostRing) : (b.setHring r h).comps = b.comps := rfl
@[simp] theorem Body.setHring_flux (b : Body) (r : Nat) (h : HostRing) : (b.setHring r h).flux = b.flux := rfl
@[simp] theorem Body.setHring_bias (b : Body) (r : Nat) (h : HostRing) : (b.setHring r h).bias = b.bias := rfl
@[simp] theorem Body.setHring_rcv (b : Body) (r : Nat) (h : HostRing) : (b.setHring r h).rcv = b.rcv := rfl
@[simp] theorem Body.setHring_fab (b : Body) (r : Nat) (h : HostRing) : (b.setHring r h).fab = b.fab := rfl
@[simp] theorem Body.setHring_engs (b : Body) (r : Nat) (h : HostRing) : (b.setHring r h).engs = b.engs := rfl
@[simp] theorem Body.setHring_coves (b : Body) (r : Nat) (h : HostRing) : (b.setHring r h).coves = b.coves := rfl
@[simp] theorem Body.setHring_ucode (b : Body) (r : Nat) (h : HostRing) : (b.setHring r h).ucode = b.ucode := rfl
@[simp] theorem Body.setHring_udisp (b : Body) (r : Nat) (h : HostRing) : (b.setHring r h).udisp = b.udisp := rfl
@[simp] theorem Body.setHring_outs (b : Body) (r : Nat) (h : HostRing) : (b.setHring r h).outs = b.outs := rfl
@[simp] theorem Body.setHring_fifos (b : Body) (r : Nat) (h : HostRing) : (b.setHring r h).fifos = b.fifos := rfl
@[simp] theorem Body.setHring_packAt (b : Body) (r : Nat) (h : HostRing) : (b.setHring r h).packAt = b.packAt := rfl
@[simp] theorem Body.setHring_issue (b : Body) (r : Nat) (h : HostRing) : (b.setHring r h).issue = b.issue := rfl
@[simp] theorem Body.setHring_held (b : Body) (r : Nat) (h : HostRing) : (b.setHring r h).held = b.held := rfl
@[simp] theorem Body.setHring_turns (b : Body) (r : Nat) (h : HostRing) : (b.setHring r h).turns = b.turns := rfl
@[simp] theorem Body.setHring_gather (b : Body) (r : Nat) (h : HostRing) : (b.setHring r h).gather = b.gather := rfl
@[simp] theorem Body.setHring_badDie (b : Body) (r : Nat) (h : HostRing) : (b.setHring r h).badDie = b.badDie := rfl
@[simp] theorem Body.setHring_badLines (b : Body) (r : Nat) (h : HostRing) : (b.setHring r h).badLines = b.badLines := rfl
@[simp] theorem Body.setHring_mcHits (b : Body) (r : Nat) (h : HostRing) : (b.setHring r h).mcHits = b.mcHits := rfl
@[simp] theorem Body.setHring_scrubAt (b : Body) (r : Nat) (h : HostRing) : (b.setHring r h).scrubAt = b.scrubAt := rfl
@[simp] theorem Body.setHring_scope (b : Body) (r : Nat) (h : HostRing) : (b.setHring r h).scope = b.scope := rfl
@[simp] theorem Body.setHring_cal (b : Body) (r : Nat) (h : HostRing) : (b.setHring r h).cal = b.cal := rfl
@[simp] theorem Body.setHring_fuseWr (b : Body) (r : Nat) (h : HostRing) : (b.setHring r h).fuseWr = b.fuseWr := rfl
@[simp] theorem Body.setHring_mcLoads (b : Body) (r : Nat) (h : HostRing) : (b.setHring r h).mcLoads = b.mcLoads := rfl
@[simp] theorem Body.setHring_pwr (b : Body) (r : Nat) (h : HostRing) : (b.setHring r h).pwr = b.pwr := rfl
@[simp] theorem Body.setHring_thm (b : Body) (r : Nat) (h : HostRing) : (b.setHring r h).thm = b.thm := rfl
@[simp] theorem Body.setHring_flt (b : Body) (r : Nat) (h : HostRing) : (b.setHring r h).flt = b.flt := rfl
@[simp] theorem Body.setHring_pcnt (b : Body) (r : Nat) (h : HostRing) : (b.setHring r h).pcnt = b.pcnt := rfl
@[simp] theorem Body.setHring_bw (b : Body) (r : Nat) (h : HostRing) : (b.setHring r h).bw = b.bw := rfl
@[simp] theorem Body.setHring_out (b : Body) (r : Nat) (h : HostRing) : (b.setHring r h).out = b.out := rfl
@[simp] theorem Body.setHring_free (b : Body) (r : Nat) (h : HostRing) : (b.setHring r h).free = b.free := rfl

/-! ### Body.setComp -/

@[simp] theorem Body.setComp_regs (b : Body) (q : Nat) (x : Composer) : (b.setComp q x).regs = b.regs := rfl
@[simp] theorem Body.setComp_staged (b : Body) (q : Nat) (x : Composer) : (b.setComp q x).staged = b.staged := rfl
@[simp] theorem Body.setComp_log (b : Body) (q : Nat) (x : Composer) : (b.setComp q x).log = b.log := rfl
@[simp] theorem Body.setComp_grid (b : Body) (q : Nat) (x : Composer) : (b.setComp q x).grid = b.grid := rfl
@[simp] theorem Body.setComp_incAt (b : Body) (q : Nat) (x : Composer) : (b.setComp q x).incAt = b.incAt := rfl
@[simp] theorem Body.setComp_incOld (b : Body) (q : Nat) (x : Composer) : (b.setComp q x).incOld = b.incOld := rfl
@[simp] theorem Body.setComp_ring (b : Body) (q : Nat) (x : Composer) : (b.setComp q x).ring = b.ring := rfl
@[simp] theorem Body.setComp_evt (b : Body) (q : Nat) (x : Composer) : (b.setComp q x).evt = b.evt := rfl
@[simp] theorem Body.setComp_host (b : Body) (q : Nat) (x : Composer) : (b.setComp q x).host = b.host := rfl
@[simp] theorem Body.setComp_flux (b : Body) (q : Nat) (x : Composer) : (b.setComp q x).flux = b.flux := rfl
@[simp] theorem Body.setComp_bias (b : Body) (q : Nat) (x : Composer) : (b.setComp q x).bias = b.bias := rfl
@[simp] theorem Body.setComp_rcv (b : Body) (q : Nat) (x : Composer) : (b.setComp q x).rcv = b.rcv := rfl
@[simp] theorem Body.setComp_fab (b : Body) (q : Nat) (x : Composer) : (b.setComp q x).fab = b.fab := rfl
@[simp] theorem Body.setComp_engs (b : Body) (q : Nat) (x : Composer) : (b.setComp q x).engs = b.engs := rfl
@[simp] theorem Body.setComp_coves (b : Body) (q : Nat) (x : Composer) : (b.setComp q x).coves = b.coves := rfl
@[simp] theorem Body.setComp_ucode (b : Body) (q : Nat) (x : Composer) : (b.setComp q x).ucode = b.ucode := rfl
@[simp] theorem Body.setComp_udisp (b : Body) (q : Nat) (x : Composer) : (b.setComp q x).udisp = b.udisp := rfl
@[simp] theorem Body.setComp_outs (b : Body) (q : Nat) (x : Composer) : (b.setComp q x).outs = b.outs := rfl
@[simp] theorem Body.setComp_fifos (b : Body) (q : Nat) (x : Composer) : (b.setComp q x).fifos = b.fifos := rfl
@[simp] theorem Body.setComp_packAt (b : Body) (q : Nat) (x : Composer) : (b.setComp q x).packAt = b.packAt := rfl
@[simp] theorem Body.setComp_issue (b : Body) (q : Nat) (x : Composer) : (b.setComp q x).issue = b.issue := rfl
@[simp] theorem Body.setComp_held (b : Body) (q : Nat) (x : Composer) : (b.setComp q x).held = b.held := rfl
@[simp] theorem Body.setComp_turns (b : Body) (q : Nat) (x : Composer) : (b.setComp q x).turns = b.turns := rfl
@[simp] theorem Body.setComp_gather (b : Body) (q : Nat) (x : Composer) : (b.setComp q x).gather = b.gather := rfl
@[simp] theorem Body.setComp_badDie (b : Body) (q : Nat) (x : Composer) : (b.setComp q x).badDie = b.badDie := rfl
@[simp] theorem Body.setComp_badLines (b : Body) (q : Nat) (x : Composer) : (b.setComp q x).badLines = b.badLines := rfl
@[simp] theorem Body.setComp_mcHits (b : Body) (q : Nat) (x : Composer) : (b.setComp q x).mcHits = b.mcHits := rfl
@[simp] theorem Body.setComp_scrubAt (b : Body) (q : Nat) (x : Composer) : (b.setComp q x).scrubAt = b.scrubAt := rfl
@[simp] theorem Body.setComp_scope (b : Body) (q : Nat) (x : Composer) : (b.setComp q x).scope = b.scope := rfl
@[simp] theorem Body.setComp_cal (b : Body) (q : Nat) (x : Composer) : (b.setComp q x).cal = b.cal := rfl
@[simp] theorem Body.setComp_fuseWr (b : Body) (q : Nat) (x : Composer) : (b.setComp q x).fuseWr = b.fuseWr := rfl
@[simp] theorem Body.setComp_mcLoads (b : Body) (q : Nat) (x : Composer) : (b.setComp q x).mcLoads = b.mcLoads := rfl
@[simp] theorem Body.setComp_pwr (b : Body) (q : Nat) (x : Composer) : (b.setComp q x).pwr = b.pwr := rfl
@[simp] theorem Body.setComp_thm (b : Body) (q : Nat) (x : Composer) : (b.setComp q x).thm = b.thm := rfl
@[simp] theorem Body.setComp_flt (b : Body) (q : Nat) (x : Composer) : (b.setComp q x).flt = b.flt := rfl
@[simp] theorem Body.setComp_pcnt (b : Body) (q : Nat) (x : Composer) : (b.setComp q x).pcnt = b.pcnt := rfl
@[simp] theorem Body.setComp_bw (b : Body) (q : Nat) (x : Composer) : (b.setComp q x).bw = b.bw := rfl
@[simp] theorem Body.setComp_out (b : Body) (q : Nat) (x : Composer) : (b.setComp q x).out = b.out := rfl
@[simp] theorem Body.setComp_free (b : Body) (q : Nat) (x : Composer) : (b.setComp q x).free = b.free := rfl

/-! ### Body.setFlx -/

@[simp] theorem Body.setFlx_regs (b : Body) (f : Nat) (x : FluxSt) : (b.setFlx f x).regs = b.regs := rfl
@[simp] theorem Body.setFlx_staged (b : Body) (f : Nat) (x : FluxSt) : (b.setFlx f x).staged = b.staged := rfl
@[simp] theorem Body.setFlx_log (b : Body) (f : Nat) (x : FluxSt) : (b.setFlx f x).log = b.log := rfl
@[simp] theorem Body.setFlx_grid (b : Body) (f : Nat) (x : FluxSt) : (b.setFlx f x).grid = b.grid := rfl
@[simp] theorem Body.setFlx_incAt (b : Body) (f : Nat) (x : FluxSt) : (b.setFlx f x).incAt = b.incAt := rfl
@[simp] theorem Body.setFlx_incOld (b : Body) (f : Nat) (x : FluxSt) : (b.setFlx f x).incOld = b.incOld := rfl
@[simp] theorem Body.setFlx_ring (b : Body) (f : Nat) (x : FluxSt) : (b.setFlx f x).ring = b.ring := rfl
@[simp] theorem Body.setFlx_evt (b : Body) (f : Nat) (x : FluxSt) : (b.setFlx f x).evt = b.evt := rfl
@[simp] theorem Body.setFlx_host (b : Body) (f : Nat) (x : FluxSt) : (b.setFlx f x).host = b.host := rfl
@[simp] theorem Body.setFlx_comps (b : Body) (f : Nat) (x : FluxSt) : (b.setFlx f x).comps = b.comps := rfl
@[simp] theorem Body.setFlx_bias (b : Body) (f : Nat) (x : FluxSt) : (b.setFlx f x).bias = b.bias := rfl
@[simp] theorem Body.setFlx_rcv (b : Body) (f : Nat) (x : FluxSt) : (b.setFlx f x).rcv = b.rcv := rfl
@[simp] theorem Body.setFlx_fab (b : Body) (f : Nat) (x : FluxSt) : (b.setFlx f x).fab = b.fab := rfl
@[simp] theorem Body.setFlx_engs (b : Body) (f : Nat) (x : FluxSt) : (b.setFlx f x).engs = b.engs := rfl
@[simp] theorem Body.setFlx_coves (b : Body) (f : Nat) (x : FluxSt) : (b.setFlx f x).coves = b.coves := rfl
@[simp] theorem Body.setFlx_ucode (b : Body) (f : Nat) (x : FluxSt) : (b.setFlx f x).ucode = b.ucode := rfl
@[simp] theorem Body.setFlx_udisp (b : Body) (f : Nat) (x : FluxSt) : (b.setFlx f x).udisp = b.udisp := rfl
@[simp] theorem Body.setFlx_outs (b : Body) (f : Nat) (x : FluxSt) : (b.setFlx f x).outs = b.outs := rfl
@[simp] theorem Body.setFlx_fifos (b : Body) (f : Nat) (x : FluxSt) : (b.setFlx f x).fifos = b.fifos := rfl
@[simp] theorem Body.setFlx_packAt (b : Body) (f : Nat) (x : FluxSt) : (b.setFlx f x).packAt = b.packAt := rfl
@[simp] theorem Body.setFlx_issue (b : Body) (f : Nat) (x : FluxSt) : (b.setFlx f x).issue = b.issue := rfl
@[simp] theorem Body.setFlx_held (b : Body) (f : Nat) (x : FluxSt) : (b.setFlx f x).held = b.held := rfl
@[simp] theorem Body.setFlx_turns (b : Body) (f : Nat) (x : FluxSt) : (b.setFlx f x).turns = b.turns := rfl
@[simp] theorem Body.setFlx_gather (b : Body) (f : Nat) (x : FluxSt) : (b.setFlx f x).gather = b.gather := rfl
@[simp] theorem Body.setFlx_badDie (b : Body) (f : Nat) (x : FluxSt) : (b.setFlx f x).badDie = b.badDie := rfl
@[simp] theorem Body.setFlx_badLines (b : Body) (f : Nat) (x : FluxSt) : (b.setFlx f x).badLines = b.badLines := rfl
@[simp] theorem Body.setFlx_mcHits (b : Body) (f : Nat) (x : FluxSt) : (b.setFlx f x).mcHits = b.mcHits := rfl
@[simp] theorem Body.setFlx_scrubAt (b : Body) (f : Nat) (x : FluxSt) : (b.setFlx f x).scrubAt = b.scrubAt := rfl
@[simp] theorem Body.setFlx_scope (b : Body) (f : Nat) (x : FluxSt) : (b.setFlx f x).scope = b.scope := rfl
@[simp] theorem Body.setFlx_cal (b : Body) (f : Nat) (x : FluxSt) : (b.setFlx f x).cal = b.cal := rfl
@[simp] theorem Body.setFlx_fuseWr (b : Body) (f : Nat) (x : FluxSt) : (b.setFlx f x).fuseWr = b.fuseWr := rfl
@[simp] theorem Body.setFlx_mcLoads (b : Body) (f : Nat) (x : FluxSt) : (b.setFlx f x).mcLoads = b.mcLoads := rfl
@[simp] theorem Body.setFlx_pwr (b : Body) (f : Nat) (x : FluxSt) : (b.setFlx f x).pwr = b.pwr := rfl
@[simp] theorem Body.setFlx_thm (b : Body) (f : Nat) (x : FluxSt) : (b.setFlx f x).thm = b.thm := rfl
@[simp] theorem Body.setFlx_flt (b : Body) (f : Nat) (x : FluxSt) : (b.setFlx f x).flt = b.flt := rfl
@[simp] theorem Body.setFlx_pcnt (b : Body) (f : Nat) (x : FluxSt) : (b.setFlx f x).pcnt = b.pcnt := rfl
@[simp] theorem Body.setFlx_bw (b : Body) (f : Nat) (x : FluxSt) : (b.setFlx f x).bw = b.bw := rfl
@[simp] theorem Body.setFlx_out (b : Body) (f : Nat) (x : FluxSt) : (b.setFlx f x).out = b.out := rfl
@[simp] theorem Body.setFlx_free (b : Body) (f : Nat) (x : FluxSt) : (b.setFlx f x).free = b.free := rfl

/-! ### Body.setRecv -/

@[simp] theorem Body.setRecv_regs (b : Body) (n : Nat) (x : Receiver) : (b.setRecv n x).regs = b.regs := rfl
@[simp] theorem Body.setRecv_staged (b : Body) (n : Nat) (x : Receiver) : (b.setRecv n x).staged = b.staged := rfl
@[simp] theorem Body.setRecv_log (b : Body) (n : Nat) (x : Receiver) : (b.setRecv n x).log = b.log := rfl
@[simp] theorem Body.setRecv_grid (b : Body) (n : Nat) (x : Receiver) : (b.setRecv n x).grid = b.grid := rfl
@[simp] theorem Body.setRecv_incAt (b : Body) (n : Nat) (x : Receiver) : (b.setRecv n x).incAt = b.incAt := rfl
@[simp] theorem Body.setRecv_incOld (b : Body) (n : Nat) (x : Receiver) : (b.setRecv n x).incOld = b.incOld := rfl
@[simp] theorem Body.setRecv_ring (b : Body) (n : Nat) (x : Receiver) : (b.setRecv n x).ring = b.ring := rfl
@[simp] theorem Body.setRecv_evt (b : Body) (n : Nat) (x : Receiver) : (b.setRecv n x).evt = b.evt := rfl
@[simp] theorem Body.setRecv_host (b : Body) (n : Nat) (x : Receiver) : (b.setRecv n x).host = b.host := rfl
@[simp] theorem Body.setRecv_comps (b : Body) (n : Nat) (x : Receiver) : (b.setRecv n x).comps = b.comps := rfl
@[simp] theorem Body.setRecv_flux (b : Body) (n : Nat) (x : Receiver) : (b.setRecv n x).flux = b.flux := rfl
@[simp] theorem Body.setRecv_bias (b : Body) (n : Nat) (x : Receiver) : (b.setRecv n x).bias = b.bias := rfl
@[simp] theorem Body.setRecv_fab (b : Body) (n : Nat) (x : Receiver) : (b.setRecv n x).fab = b.fab := rfl
@[simp] theorem Body.setRecv_engs (b : Body) (n : Nat) (x : Receiver) : (b.setRecv n x).engs = b.engs := rfl
@[simp] theorem Body.setRecv_coves (b : Body) (n : Nat) (x : Receiver) : (b.setRecv n x).coves = b.coves := rfl
@[simp] theorem Body.setRecv_ucode (b : Body) (n : Nat) (x : Receiver) : (b.setRecv n x).ucode = b.ucode := rfl
@[simp] theorem Body.setRecv_udisp (b : Body) (n : Nat) (x : Receiver) : (b.setRecv n x).udisp = b.udisp := rfl
@[simp] theorem Body.setRecv_outs (b : Body) (n : Nat) (x : Receiver) : (b.setRecv n x).outs = b.outs := rfl
@[simp] theorem Body.setRecv_fifos (b : Body) (n : Nat) (x : Receiver) : (b.setRecv n x).fifos = b.fifos := rfl
@[simp] theorem Body.setRecv_packAt (b : Body) (n : Nat) (x : Receiver) : (b.setRecv n x).packAt = b.packAt := rfl
@[simp] theorem Body.setRecv_issue (b : Body) (n : Nat) (x : Receiver) : (b.setRecv n x).issue = b.issue := rfl
@[simp] theorem Body.setRecv_held (b : Body) (n : Nat) (x : Receiver) : (b.setRecv n x).held = b.held := rfl
@[simp] theorem Body.setRecv_turns (b : Body) (n : Nat) (x : Receiver) : (b.setRecv n x).turns = b.turns := rfl
@[simp] theorem Body.setRecv_gather (b : Body) (n : Nat) (x : Receiver) : (b.setRecv n x).gather = b.gather := rfl
@[simp] theorem Body.setRecv_badDie (b : Body) (n : Nat) (x : Receiver) : (b.setRecv n x).badDie = b.badDie := rfl
@[simp] theorem Body.setRecv_badLines (b : Body) (n : Nat) (x : Receiver) : (b.setRecv n x).badLines = b.badLines := rfl
@[simp] theorem Body.setRecv_mcHits (b : Body) (n : Nat) (x : Receiver) : (b.setRecv n x).mcHits = b.mcHits := rfl
@[simp] theorem Body.setRecv_scrubAt (b : Body) (n : Nat) (x : Receiver) : (b.setRecv n x).scrubAt = b.scrubAt := rfl
@[simp] theorem Body.setRecv_scope (b : Body) (n : Nat) (x : Receiver) : (b.setRecv n x).scope = b.scope := rfl
@[simp] theorem Body.setRecv_cal (b : Body) (n : Nat) (x : Receiver) : (b.setRecv n x).cal = b.cal := rfl
@[simp] theorem Body.setRecv_fuseWr (b : Body) (n : Nat) (x : Receiver) : (b.setRecv n x).fuseWr = b.fuseWr := rfl
@[simp] theorem Body.setRecv_mcLoads (b : Body) (n : Nat) (x : Receiver) : (b.setRecv n x).mcLoads = b.mcLoads := rfl
@[simp] theorem Body.setRecv_pwr (b : Body) (n : Nat) (x : Receiver) : (b.setRecv n x).pwr = b.pwr := rfl
@[simp] theorem Body.setRecv_thm (b : Body) (n : Nat) (x : Receiver) : (b.setRecv n x).thm = b.thm := rfl
@[simp] theorem Body.setRecv_flt (b : Body) (n : Nat) (x : Receiver) : (b.setRecv n x).flt = b.flt := rfl
@[simp] theorem Body.setRecv_pcnt (b : Body) (n : Nat) (x : Receiver) : (b.setRecv n x).pcnt = b.pcnt := rfl
@[simp] theorem Body.setRecv_bw (b : Body) (n : Nat) (x : Receiver) : (b.setRecv n x).bw = b.bw := rfl
@[simp] theorem Body.setRecv_out (b : Body) (n : Nat) (x : Receiver) : (b.setRecv n x).out = b.out := rfl
@[simp] theorem Body.setRecv_free (b : Body) (n : Nat) (x : Receiver) : (b.setRecv n x).free = b.free := rfl

/-! ### Body.setBias -/

@[simp] theorem Body.setBias_regs (b : Body) (n : Nat) (x : BiasSt) : (b.setBias n x).regs = b.regs := rfl
@[simp] theorem Body.setBias_staged (b : Body) (n : Nat) (x : BiasSt) : (b.setBias n x).staged = b.staged := rfl
@[simp] theorem Body.setBias_log (b : Body) (n : Nat) (x : BiasSt) : (b.setBias n x).log = b.log := rfl
@[simp] theorem Body.setBias_grid (b : Body) (n : Nat) (x : BiasSt) : (b.setBias n x).grid = b.grid := rfl
@[simp] theorem Body.setBias_incAt (b : Body) (n : Nat) (x : BiasSt) : (b.setBias n x).incAt = b.incAt := rfl
@[simp] theorem Body.setBias_incOld (b : Body) (n : Nat) (x : BiasSt) : (b.setBias n x).incOld = b.incOld := rfl
@[simp] theorem Body.setBias_ring (b : Body) (n : Nat) (x : BiasSt) : (b.setBias n x).ring = b.ring := rfl
@[simp] theorem Body.setBias_evt (b : Body) (n : Nat) (x : BiasSt) : (b.setBias n x).evt = b.evt := rfl
@[simp] theorem Body.setBias_host (b : Body) (n : Nat) (x : BiasSt) : (b.setBias n x).host = b.host := rfl
@[simp] theorem Body.setBias_comps (b : Body) (n : Nat) (x : BiasSt) : (b.setBias n x).comps = b.comps := rfl
@[simp] theorem Body.setBias_flux (b : Body) (n : Nat) (x : BiasSt) : (b.setBias n x).flux = b.flux := rfl
@[simp] theorem Body.setBias_rcv (b : Body) (n : Nat) (x : BiasSt) : (b.setBias n x).rcv = b.rcv := rfl
@[simp] theorem Body.setBias_fab (b : Body) (n : Nat) (x : BiasSt) : (b.setBias n x).fab = b.fab := rfl
@[simp] theorem Body.setBias_engs (b : Body) (n : Nat) (x : BiasSt) : (b.setBias n x).engs = b.engs := rfl
@[simp] theorem Body.setBias_coves (b : Body) (n : Nat) (x : BiasSt) : (b.setBias n x).coves = b.coves := rfl
@[simp] theorem Body.setBias_ucode (b : Body) (n : Nat) (x : BiasSt) : (b.setBias n x).ucode = b.ucode := rfl
@[simp] theorem Body.setBias_udisp (b : Body) (n : Nat) (x : BiasSt) : (b.setBias n x).udisp = b.udisp := rfl
@[simp] theorem Body.setBias_outs (b : Body) (n : Nat) (x : BiasSt) : (b.setBias n x).outs = b.outs := rfl
@[simp] theorem Body.setBias_fifos (b : Body) (n : Nat) (x : BiasSt) : (b.setBias n x).fifos = b.fifos := rfl
@[simp] theorem Body.setBias_packAt (b : Body) (n : Nat) (x : BiasSt) : (b.setBias n x).packAt = b.packAt := rfl
@[simp] theorem Body.setBias_issue (b : Body) (n : Nat) (x : BiasSt) : (b.setBias n x).issue = b.issue := rfl
@[simp] theorem Body.setBias_held (b : Body) (n : Nat) (x : BiasSt) : (b.setBias n x).held = b.held := rfl
@[simp] theorem Body.setBias_turns (b : Body) (n : Nat) (x : BiasSt) : (b.setBias n x).turns = b.turns := rfl
@[simp] theorem Body.setBias_gather (b : Body) (n : Nat) (x : BiasSt) : (b.setBias n x).gather = b.gather := rfl
@[simp] theorem Body.setBias_badDie (b : Body) (n : Nat) (x : BiasSt) : (b.setBias n x).badDie = b.badDie := rfl
@[simp] theorem Body.setBias_badLines (b : Body) (n : Nat) (x : BiasSt) : (b.setBias n x).badLines = b.badLines := rfl
@[simp] theorem Body.setBias_mcHits (b : Body) (n : Nat) (x : BiasSt) : (b.setBias n x).mcHits = b.mcHits := rfl
@[simp] theorem Body.setBias_scrubAt (b : Body) (n : Nat) (x : BiasSt) : (b.setBias n x).scrubAt = b.scrubAt := rfl
@[simp] theorem Body.setBias_scope (b : Body) (n : Nat) (x : BiasSt) : (b.setBias n x).scope = b.scope := rfl
@[simp] theorem Body.setBias_cal (b : Body) (n : Nat) (x : BiasSt) : (b.setBias n x).cal = b.cal := rfl
@[simp] theorem Body.setBias_fuseWr (b : Body) (n : Nat) (x : BiasSt) : (b.setBias n x).fuseWr = b.fuseWr := rfl
@[simp] theorem Body.setBias_mcLoads (b : Body) (n : Nat) (x : BiasSt) : (b.setBias n x).mcLoads = b.mcLoads := rfl
@[simp] theorem Body.setBias_pwr (b : Body) (n : Nat) (x : BiasSt) : (b.setBias n x).pwr = b.pwr := rfl
@[simp] theorem Body.setBias_thm (b : Body) (n : Nat) (x : BiasSt) : (b.setBias n x).thm = b.thm := rfl
@[simp] theorem Body.setBias_flt (b : Body) (n : Nat) (x : BiasSt) : (b.setBias n x).flt = b.flt := rfl
@[simp] theorem Body.setBias_pcnt (b : Body) (n : Nat) (x : BiasSt) : (b.setBias n x).pcnt = b.pcnt := rfl
@[simp] theorem Body.setBias_bw (b : Body) (n : Nat) (x : BiasSt) : (b.setBias n x).bw = b.bw := rfl
@[simp] theorem Body.setBias_out (b : Body) (n : Nat) (x : BiasSt) : (b.setBias n x).out = b.out := rfl
@[simp] theorem Body.setBias_free (b : Body) (n : Nat) (x : BiasSt) : (b.setBias n x).free = b.free := rfl

/-! ### onBody -/

@[simp] theorem onBody_body (f : Clock → Body → Body) (s : State) : (onBody f s).body = f s.clock s.body := rfl
@[simp] theorem onBody_mem (f : Clock → Body → Body) (s : State) : (onBody f s).mem = s.mem := rfl
@[simp] theorem onBody_clock (f : Clock → Body → Body) (s : State) : (onBody f s).clock = s.clock := rfl
@[simp] theorem onBody_pending (f : Clock → Body → Body) (s : State) : (onBody f s).pending = s.pending := rfl

end Sys2Proof.Machine
end

