-- ==== Sys2Proof/Laws/Regs.lean ====
section
/-! SUPPORT. Laws of setup registers and of their bits and fields: a read after a write, and that a write leaves the others alone. -/

namespace Sys2Proof.Machine

/-! ### Bits and fields -/

theorem getLsbD_setFld {w : Nat} (v : BitVec w) (lo len x i : Nat) (hi : i < w) :
    (setFld v lo len x).getLsbD i = if lo ≤ i ∧ i < lo + len then x.testBit (i - lo) else v.getLsbD i := by
  have hx : (x % 2 ^ len * 2 ^ lo).testBit i = (decide (lo ≤ i) && (decide (i - lo < len) && x.testBit (i - lo))) := by
    rw [Nat.testBit_mul_two_pow, Nat.testBit_mod_two_pow]
  have hm : ((2 ^ len - 1) * 2 ^ lo).testBit i = (decide (lo ≤ i) && decide (i - lo < len)) := by
    rw [Nat.testBit_mul_two_pow, Nat.testBit_two_pow_sub_one]
  simp only [setFld, fldMask, BitVec.getLsbD_or, BitVec.getLsbD_and, BitVec.getLsbD_not, BitVec.getLsbD_ofNat, hi, decide_true,
    Bool.true_and, hx, hm]
  by_cases h1 : lo ≤ i <;> by_cases h2 : i - lo < len
  · have h : lo ≤ i ∧ i < lo + len := by omega
    simp [h1, h2, h]
  · have h : ¬ (lo ≤ i ∧ i < lo + len) := by omega
    rw [if_neg h]; simp [h2]
  · have h : ¬ (lo ≤ i ∧ i < lo + len) := by omega
    rw [if_neg h]; simp [h1]
  · have h : ¬ (lo ≤ i ∧ i < lo + len) := by omega
    rw [if_neg h]; simp [h1]

/-- A bit of a value in which one bit has been replaced. -/
theorem bit_setBit {w : Nat} (v : BitVec w) (i j : Nat) (on : Bool) (hj : j < w) :
    bit (setBit v i on) j = if j = i then on else bit v j := by
  unfold bit setBit
  rw [getLsbD_setFld v i 1 _ j hj]
  by_cases h : j = i
  · subst h; cases on <;> simp
  · have : ¬ (i ≤ j ∧ j < i + 1) := by omega
    rw [if_neg this, if_neg h]

@[simp] theorem bit_setBit_same (v : Reg32) (i : Nat) (on : Bool) (hi : i < 32) : bit (setBit v i on) i = on := by
  simp [bit_setBit v i i on hi]

theorem testBit_bitsAt (x lo len i : Nat) : (bitsAt x lo len).testBit i = (decide (i < len) && x.testBit (lo + i)) := by
  rw [bitsAt, Nat.testBit_mod_two_pow, Nat.testBit_div_two_pow, Nat.add_comm]

/-- The field just replaced. -/
theorem fld_setFld_same {w : Nat} (v : BitVec w) (lo len x : Nat) (h : lo + len ≤ w) : fld (setFld v lo len x) lo len = x % 2 ^ len := by
  apply Nat.eq_of_testBit_eq
  intro i
  rw [fld, testBit_bitsAt, Nat.testBit_mod_two_pow]
  by_cases hi : i < len
  · have h1 : (setFld v lo len x).toNat.testBit (lo + i) = x.testBit i := by
      rw [← BitVec.getLsbD, getLsbD_setFld v lo len x (lo + i) (by omega)]
      have h2 : lo ≤ lo + i ∧ lo + i < lo + len := by omega
      simp [h2]
    simp [hi, h1]
  · simp [hi]

/-- A field apart from the one replaced. -/
theorem fld_setFld_other {w : Nat} (v : BitVec w) (lo len x lo2 len2 : Nat) (h : lo + len ≤ lo2 ∨ lo2 + len2 ≤ lo) :
    fld (setFld v lo len x) lo2 len2 = fld v lo2 len2 := by
  apply Nat.eq_of_testBit_eq
  intro i
  rw [fld, testBit_bitsAt, fld, testBit_bitsAt]
  by_cases hi : i < len2
  · have h1 : (setFld v lo len x).toNat.testBit (lo2 + i) = v.toNat.testBit (lo2 + i) := by
      by_cases hw : lo2 + i < w
      · have := getLsbD_setFld v lo len x (lo2 + i) hw
        have h2 : ¬ (lo ≤ lo2 + i ∧ lo2 + i < lo + len) := by omega
        simpa [BitVec.getLsbD, h2] using this
      · rw [Nat.testBit_lt_two_pow, Nat.testBit_lt_two_pow]
        · exact lt_of_lt_of_le v.isLt (Nat.pow_le_pow_right (by decide) (by omega))
        · exact lt_of_lt_of_le (setFld v lo len x).isLt (Nat.pow_le_pow_right (by decide) (by omega))
    simp [hi, h1]
  · simp [hi]

/-! ### Registers -/

@[simp] theorem Body.rget_rset (b : Body) (k : Nat) (v : Reg32) : (b.rset k v).rget k = v := SMap.get_put_same _ _ _ _

theorem Body.rget_rset_other (b : Body) {j k : Nat} (h : j ≠ k) (v : Reg32) : (b.rset k v).rget j = b.rget j :=
  SMap.get_put_other _ _ _ h _

theorem Body.rget_rset_ite (b : Body) (j k : Nat) (v : Reg32) : (b.rset k v).rget j = if j = k then v else b.rget j := by
  by_cases h : j = k
  · subst h; simp
  · simp [h, b.rget_rset_other h v]

theorem Body.rget_rsetBit (b : Body) (j k i : Nat) (on : Bool) :
    (b.rsetBit k i on).rget j = if j = k then setBit (b.rget k) i on else b.rget j := b.rget_rset_ite j k _

theorem Body.rget_rsetFld (b : Body) (j k lo len x : Nat) :
    (b.rsetFld k lo len x).rget j = if j = k then setFld (b.rget k) lo len x else b.rget j := b.rget_rset_ite j k _

theorem Body.rget_stick (b : Body) (j k i : Nat) :
    (b.stick k i).rget j = if j = k then setBit (b.rget k) i true else b.rget j := b.rget_rset_ite j k _

theorem Body.rget_reject (b : Body) (j k : Nat) :
    (b.reject k).rget j = if j = k then setBit (b.rget k) 8 true else b.rget j := b.rget_rset_ite j k _

theorem Body.rget_count (b : Body) (j k n : Nat) :
    (b.count k n).rget j = if j = k then satInc (b.rget k) n else b.rget j := b.rget_rset_ite j k _

theorem Body.rget_rsetPair (b : Body) (j lo hi x : Nat) :
    (b.rsetPair lo hi x).rget j = if j = hi then r32 (x / 2 ^ 32) else if j = lo then r32 x else b.rget j := by
  rw [Body.rsetPair, Body.rget_rset_ite, Body.rget_rset_ite]

theorem Body.rget_commitPair (b : Body) (j lo hi : Nat) (v : Reg32) :
    (b.commitPair lo hi v).rget j = if j = hi then v else if j = lo then b.lowFor lo else b.rget j := by
  show ((b.rset lo (b.lowFor lo)).rset hi v).rget j = _
  rw [Body.rget_rset_ite, Body.rget_rset_ite]

@[simp] theorem Body.rget_stage (b : Body) (k : Nat) (v : Reg32) (j : Nat) : (b.stage k v).rget j = b.rget j := rfl
@[simp] theorem Body.rget_unstage (b : Body) (k j : Nat) : (b.unstage k).rget j = b.rget j := rfl
@[simp] theorem Body.rget_draw (b : Body) (j : Nat) : b.draw.rget j = b.rget j := rfl
@[simp] theorem Body.rget_perf (b : Body) (ev idx n j : Nat) : (b.perf ev idx n).rget j = b.rget j := rfl
@[simp] theorem Body.rget_emitOut (b : Body) (o : OutItem) (j : Nat) : (b.emitOut o).rget j = b.rget j := rfl

theorem Body.rbit_rsetBit_same (b : Body) (k i : Nat) (on : Bool) (hi : i < 32) : (b.rsetBit k i on).rbit k i = on := by
  simp [Body.rbit, Body.rget_rsetBit, hi]

theorem Body.rbit_stick_same (b : Body) (k i : Nat) (hi : i < 32) : (b.stick k i).rbit k i = true := by
  simp [Body.rbit, Body.rget_stick, hi]

end Sys2Proof.Machine
end

