-- ==== Sys2Proof/Laws/Engine.lean ====
section
/-! SUPPORT. Laws of the engines: what issuing an instruction does, the state of an engine after it is replaced, the fields of an
instruction, flags put together from their bits. -/

namespace Sys2Proof.Machine

/-! ### The state of an engine -/

theorem State.eng_setEng (s : State) (g : Nat) (x : Engine) : (s.setEng g x).eng g = x := by
  simp only [State.eng, State.setEng, Body.eng, Body.setEng]
  exact SMap.get_put_same _ _ _ _

theorem SMap.put_put_same {α : Type} [DecidableEq α] (m : SMap α) (d : α) (k : Nat) (v w : α) :
    (m.put d k v).put d k w = m.put d k w := by
  have h : ∀ l : List (Nat × α), eraseIn k (eraseIn k l) = eraseIn k l := by
    intro l
    induction l with
    | nil => rfl
    | cons e t ih =>
      obtain ⟨j, u⟩ := e
      by_cases h : j = k
      · simp [eraseIn, h, ih]
      · simp [eraseIn, h, ih]
  have h2 : ∀ l : List (Nat × α), eraseIn k (insertIn k v l) = eraseIn k l := by
    intro l
    induction l with
    | nil => simp [insertIn, eraseIn]
    | cons e t ih =>
      obtain ⟨j, u⟩ := e
      by_cases h1 : k < j
      · simp [insertIn, h1, eraseIn]
      · by_cases h3 : j = k
        · subst h3; simp [insertIn, eraseIn, ih]
        · simp [insertIn, h1, eraseIn, h3, ih]
  by_cases hv : v = d <;> simp [SMap.put, hv, h, h2]

theorem State.setEng_setEng (s : State) (g : Nat) (x y : Engine) : (s.setEng g x).setEng g y = s.setEng g y := by
  simp only [State.setEng, Body.setEng]
  show State.mk _ _ _ _ = State.mk _ _ _ _
  congr 1
  exact congrArg (fun m => { s.body with engs := m }) (SMap.put_put_same _ _ _ _ _)

/-! ### Issue -/

/-- An issued instruction acts on the state after fetch. -/
theorem instr_of_issues {i : Instr} {g : Nat} {s u : State} (h : issues i g s u) (act : State → Act) :
    instr g (opcodeOf i) act s = match (act u).2 with | some c => engStop (act u).1 g c | none => (act u).1 := by
  obtain ⟨h1, h2, h3⟩ := h
  have h4 : ∀ r : Act, actEnd g r id = match r.2 with | some c => engStop r.1 g c | none => r.1 := fun r => rfl
  rw [← h4]
  simp [instr, instrNow, carryOut, h1, h2, h3, actEnd]

theorem instr_idle {g op : Nat} {s : State} (h : s.body.runs g = false) (act : State → Act) : instr g op act s = s := by
  simp [instr, h]

/-- An instruction that changes its engine alone. -/
theorem instr_reg {i : Instr} {g : Nat} {s u : State} (h : issues i g s u) (f : Engine → Engine) :
    instr g (opcodeOf i) (regAct g f) s = ended u g (f (u.eng g)) := by
  rw [instr_of_issues h]; rfl

theorem instr_regF_ok {i : Instr} {g : Nat} {s u : State} (h : issues i g s u) (f : Engine → Except Nat Engine) {x : Engine}
    (hf : f (u.eng g) = .ok x) : instr g (opcodeOf i) (regActF g f) s = ended u g x := by
  rw [instr_of_issues h]; simp only [regActF, hf]; rfl

theorem instr_regF_error {i : Instr} {g : Nat} {s u : State} (h : issues i g s u) (f : Engine → Except Nat Engine) {c : Nat}
    (hf : f (u.eng g) = .error c) : instr g (opcodeOf i) (regActF g f) s = engStop u g c := by
  rw [instr_of_issues h]; simp only [regActF, hf]

/-! ### Fields -/

theorem fld_eq_extract {w : Nat} (v : BitVec w) (lo len : Nat) : fld v lo len = (v.extractLsb' lo len).toNat := by
  rw [BitVec.extractLsb'_toNat, Nat.shiftRight_eq_div_pow]; rfl

theorem fRd_eq (f : BitVec 28) : fRd f = opRd f := fld_eq_extract f 23 5
theorem fRa_eq (f : BitVec 28) : fRa f = opRa f := fld_eq_extract f 18 5
theorem fRb_eq (f : BitVec 28) : fRb f = opRb f := fld_eq_extract f 13 5
theorem fAcc_eq (f : BitVec 28) : fAcc f = opAcc f := fld_eq_extract f 6 2
theorem fImm_eq (f : BitVec 28) : fImm f = opImm f := by
  apply BitVec.eq_of_toNat_eq
  simp [fImm, opImm, BitVec.extractLsb'_toNat]

theorem immS_eq (f : BitVec 28) : immS f = immSigned f := by rw [immS, immSigned, fImm_eq]
theorem immZ_eq (f : BitVec 28) : immZ f = immPlain f := by rw [immZ, immPlain, fImm_eq]

/-! ### Flags -/

theorem flags_ext {a b : BitVec 6} (h : ∀ i < 6, bit a i = bit b i) : a = b := by
  apply BitVec.eq_of_getLsbD_eq
  intro i hi
  exact h i hi

theorem bit_flagBits (z n c v sat acc : Bool) :
    bit (flagBits z n c v sat acc) 0 = z ∧ bit (flagBits z n c v sat acc) 1 = n ∧ bit (flagBits z n c v sat acc) 2 = c ∧
    bit (flagBits z n c v sat acc) 3 = v ∧ bit (flagBits z n c v sat acc) 4 = sat ∧ bit (flagBits z n c v sat acc) 5 = acc := by
  cases z <;> cases n <;> cases c <;> cases v <;> cases sat <;> cases acc <;> decide

/-- Flags are put together from their bits. -/
theorem flags_eq (fl : BitVec 6) (z n c v sat acc : Bool) (h0 : bit fl 0 = z) (h1 : bit fl 1 = n) (h2 : bit fl 2 = c)
    (h3 : bit fl 3 = v) (h4 : bit fl 4 = sat) (h5 : bit fl 5 = acc) : fl = flagBits z n c v sat acc := by
  obtain ⟨k0, k1, k2, k3, k4, k5⟩ := bit_flagBits z n c v sat acc
  apply flags_ext
  intro i hi
  have : i = 0 ∨ i = 1 ∨ i = 2 ∨ i = 3 ∨ i = 4 ∨ i = 5 := by omega
  rcases this with rfl | rfl | rfl | rfl | rfl | rfl <;> simp_all

/-- A flag of flags in which one has been replaced. -/
theorem bit_setBit6 (fl : BitVec 6) (i j : Nat) (on : Bool) (hj : j < 6) :
    bit (setBit fl i on) j = if j = i then on else bit fl j := bit_setBit fl i j on hj

/-! ### Fetch -/

/-- What a read leads to, where it meets no uncorrectable error. -/
theorem readThen_ok {r : Word × Act} {w : Word} {s : State} (h : r = (w, s, none)) (k : Word → State → Act) : readThen r k = k w s := by
  rw [h]; rfl

/-- The microwords of a routine are read without a trace where no error stands in the control store. -/
theorem readRoutine_clean {s : State} {g op : Nat} (h : s.storeBad g = false) : readRoutine s g op = (s, none) := by
  simp [readRoutine, h]

/-- A location without an error is read without a trace. -/
theorem readAt_clean {s : State} {g a d : Nat} (hc : s.body.copies g a d = [d]) (h : s.mem.errAt d = 0) :
    readAt s g a d = (s.mem.word d, s, none) := by
  simp [readAt, hc, h, Body.noteRead, Mem.afterRead]

theorem readStore_clean {s : State} {g u : Nat} {disp : Bool}
    (h : s.mem.errAt (storeKey (g / 12) (s.body.phys g % 12 / 2) disp u) = 0) : readStore s g disp u = (s, none) := by
  simp [readStore, h, Body.noteRead, Mem.afterRead]

theorem copies_shared (b : Body) (g d : Nat) : b.copies g 0x100000 d = [d] := by simp [Body.copies, isLocal]

end Sys2Proof.Machine
end

