-- ==== Sys2Proof/Laws/Keeps.lean ====
section
/-! SUPPORT. What the shared operations over memory keep: the canonical form, every fuse bit, the clocks and the queue of commands. -/

namespace Sys2Proof.Machine

/-! ### The sparse table -/

theorem SMap.get_dropKeys {α : Type} (m : SMap α) (d : α) (p : Nat → Bool) (k : Nat) :
    (m.dropKeys p).get d k = if p k then d else m.get d k := by
  obtain ⟨l⟩ := m
  simp only [SMap.get, SMap.dropKeys]
  induction l with
  | nil => simp [lookupIn]
  | cons e t ih =>
    obtain ⟨j, v⟩ := e
    by_cases hj : j = k
    · subst hj
      by_cases hp : p j = true
      · simp [hp, List.filter] at ih ⊢; exact ih
      · simp [hp, List.filter, lookupIn]
    · by_cases hp : p j = true
      · simp [hp, List.filter, lookupIn, hj] at ih ⊢; exact ih
      · simp [hp, List.filter, lookupIn, hj] at ih ⊢; exact ih

theorem SMap.mapVals_wf {α : Type} [DecidableEq α] (m : SMap α) (d : α) (f : α → α) (h : m.wf d) : (m.mapVals d f).wf d := by
  refine ⟨?_, fun e he => by simpa using (List.mem_filter.1 he).2⟩
  refine List.Pairwise.filter _ (List.pairwise_map.2 ?_)
  exact h.1

/-! ### Memories -/

theorem Mem.putWord_wf (m : Mem) (a : Nat) (w : Word) (h : m.wf) : (m.putWord a w).wf :=
  ⟨SMap.put_wf _ _ _ _ h.1, h.2.1, SMap.put_wf _ _ _ _ h.2.2.1, h.2.2.2⟩

theorem Mem.putBytes_wf (m : Mem) (a : Nat) (l : List Byte) (h : m.wf) : (m.putBytes a l).wf := by
  induction l generalizing m a with
  | nil => exact h
  | cons x t ih => exact ih _ _ ⟨h.1, SMap.put_wf _ _ _ _ h.2.1, h.2.2⟩

theorem Mem.putLine_wf (m : Mem) (a : Nat) (l : BitVec 512) (h : m.wf) : (m.putLine a l).wf := by
  have h' := m.putBytes_wf a (lineBytes l) h
  exact ⟨h'.1, h'.2.1, SMap.put_wf _ _ _ _ h'.2.2.1, h'.2.2.2⟩

theorem Mem.afterRead_wf (m : Mem) (a : Nat) (h : m.wf) : (m.afterRead a).wf := by
  unfold Mem.afterRead
  split
  · exact ⟨h.1, h.2.1, SMap.put_wf _ _ _ _ h.2.2.1, h.2.2.2⟩
  · exact h

theorem Mem.blow_wf (m : Mem) (w : Nat) (v : BitVec 64) (h : m.wf) : (m.blow w v).wf :=
  ⟨h.1, h.2.1, h.2.2.1, SMap.put_wf _ _ _ _ h.2.2.2⟩

theorem Mem.afterReset_wf (m : Mem) (keep : Bool) (h : m.wf) : (m.afterReset keep).wf := by
  refine ⟨SMap.empty_wf _, ?_, ?_, h.2.2.2⟩
  · cases keep
    · exact SMap.empty_wf _
    · exact h.2.1
  · cases keep
    · exact SMap.empty_wf _
    · exact SMap.dropKeys_wf m.err 0 (fun k => decide (0xF000000000 ≤ k)) h.2.2.1

@[simp] theorem Mem.putBytes_fuse (m : Mem) (a : Nat) (l : List Byte) : (m.putBytes a l).fuse = m.fuse := by
  induction l generalizing m a with
  | nil => rfl
  | cons x t ih => exact ih _ _
@[simp] theorem Mem.putWord_fuse (m : Mem) (a : Nat) (w : Word) : (m.putWord a w).fuse = m.fuse := rfl
@[simp] theorem Mem.putLine_fuse (m : Mem) (a : Nat) (l : BitVec 512) : (m.putLine a l).fuse = m.fuse := m.putBytes_fuse _ _
@[simp] theorem Mem.afterReset_fuse (m : Mem) (keep : Bool) : (m.afterReset keep).fuse = m.fuse := rfl
@[simp] theorem Mem.afterRead_fuse (m : Mem) (a : Nat) : (m.afterRead a).fuse = m.fuse := by
  unfold Mem.afterRead; split <;> rfl

/-- A word just written reads back, and every other word reads as before. -/
@[simp] theorem Mem.word_putWord (m : Mem) (a : Nat) (w : Word) : (m.putWord a w).word a = w := SMap.get_put_same _ _ _ _
theorem Mem.word_putWord_other (m : Mem) {a b : Nat} (h : b ≠ a) (w : Word) : (m.putWord a w).word b = m.word b :=
  SMap.get_put_other _ _ _ h _

/-- Bytes before the range written read as before. -/
theorem Mem.byte_putBytes_below (m : Mem) (a : Nat) (l : List Byte) (b : Nat) (h : b < a) : (m.putBytes a l).byte b = m.byte b := by
  induction l generalizing m a with
  | nil => rfl
  | cons x t ih =>
    refine (ih _ (a + 1) (by omega)).trans ?_
    exact SMap.get_put_other _ _ _ (by omega) _

/-- Bytes behind the range written read as before. -/
theorem Mem.byte_putBytes_above (m : Mem) (a : Nat) (l : List Byte) (b : Nat) (h : a + l.length ≤ b) : (m.putBytes a l).byte b = m.byte b := by
  induction l generalizing m a with
  | nil => rfl
  | cons x t ih =>
    simp only [List.length_cons] at h
    refine (ih _ (a + 1) (by omega)).trans ?_
    exact SMap.get_put_other _ _ _ (by omega) _

/-- A byte of the range written reads as the byte written there. -/
theorem Mem.byte_putBytes (m : Mem) (a : Nat) (l : List Byte) (i : Nat) (h : i < l.length) : (m.putBytes a l).byte (a + i) = l[i] := by
  induction l generalizing m a i with
  | nil => simp at h
  | cons x t ih =>
    cases i with
    | zero =>
      refine (Mem.byte_putBytes_below _ (a + 1) t a (by omega)).trans ?_
      exact SMap.get_put_same _ _ _ _
    | succ i =>
      have := ih { m with dev := m.dev.put devDefault a x } (a + 1) i (by simpa using h)
      rw [show a + (i + 1) = a + 1 + i by omega]
      exact this

/-! ### Fuses -/

theorem Mem.fusesKept_refl (m : Mem) : m.fusesKept m := fun _ _ h => h
theorem Mem.fusesKept_trans {l m n : Mem} (h : l.fusesKept m) (k : m.fusesKept n) : l.fusesKept n := fun w i x => k w i (h w i x)
theorem Mem.fusesKept_of_eq {m n : Mem} (h : n.fuse = m.fuse) : m.fusesKept n := by
  intro w i x
  simpa [Mem.fuseWord, h] using x

theorem Mem.fuseWord_blow (m : Mem) (j w : Nat) (v : BitVec 64) :
    (m.blow w v).fuseWord j = if j = w then m.fuseWord w ||| v else m.fuseWord j := by
  by_cases h : j = w
  · subst h; simp [Mem.blow, Mem.fuseWord]
  · simp only [if_neg h, Mem.blow, Mem.fuseWord]
    exact SMap.get_put_other _ _ _ h _

theorem Mem.blow_fusesKept (m : Mem) (w : Nat) (v : BitVec 64) : m.fusesKept (m.blow w v) := by
  intro j i x
  rw [m.fuseWord_blow]
  split
  · subst j; simp [bit] at x ⊢; exact Or.inl x
  · exact x

/-! ### What an operation keeps -/

/-- From `s` to `t` no command leaves or joins the queue, the clocks stand, the canonical form of the memories and every fuse bit are kept. -/
def Keeps (s t : State) : Prop :=
  t.pending = s.pending ∧ t.clock = s.clock ∧ (s.mem.wf → t.mem.wf) ∧ s.mem.fusesKept t.mem

theorem Keeps.refl (s : State) : Keeps s s := ⟨rfl, rfl, id, s.mem.fusesKept_refl⟩
theorem Keeps.trans {s t u : State} (h : Keeps s t) (k : Keeps t u) : Keeps s u :=
  ⟨k.1.trans h.1, k.2.1.trans h.2.1, fun w => k.2.2.1 (h.2.2.1 w), Mem.fusesKept_trans h.2.2.2 k.2.2.2⟩
theorem Keeps.body (s : State) (b : Body) : Keeps s { s with body := b } := ⟨rfl, rfl, id, s.mem.fusesKept_refl⟩
theorem Keeps.then_body {s t : State} (h : Keeps s t) (b : Body) : Keeps s { t with body := b } := h.trans (Keeps.body t b)
theorem Keeps.onBody (f : Clock → Body → Body) (s : State) : Keeps s (onBody f s) := Keeps.body s _
theorem Keeps.ite {s t u : State} (c : Prop) [Decidable c] (h : Keeps s t) (k : Keeps s u) : Keeps s (if c then t else u) := by
  split
  · exact h
  · exact k

/-- A fold of operations that keep, keeps. -/
theorem Keeps.foldl {α : Type} (f : State → α → State) (hf : ∀ s a, Keeps s (f s a)) (l : List α) (s : State) : Keeps s (l.foldl f s) := by
  induction l generalizing s with
  | nil => exact Keeps.refl s
  | cons a t ih => exact (hf s a).trans (ih _)

/-- A command whose effect is on the body answers a next state, and keeps. -/
theorem nextBody_keeps (f : Clock → Body → Body) (s : State) : ∃ t, nextBody f s = .next t ∧ Keeps s t :=
  ⟨_, rfl, Keeps.onBody f s⟩

/-! ### On-die words -/

theorem storeWord_keeps (s : State) (a : Nat) (w : Word) : Keeps s (storeWord s a w) :=
  ⟨rfl, rfl, s.mem.putWord_wf a w, Mem.fusesKept_of_eq rfl⟩

theorem storeWords_keeps (s : State) (a : Nat) (ws : List Word) : Keeps s (storeWords s a ws) := by
  induction ws generalizing s a with
  | nil => exact Keeps.refl s
  | cons w t ih => exact (storeWord_keeps s a w).trans (ih _ _)

theorem storeTwins_keeps (s : State) (e w : Nat) (ws : List Word) : Keeps s (storeTwins s e w ws) :=
  (storeWords_keeps _ _ _).trans (storeWords_keeps _ _ _)

/-! ### Lines of device memory -/

theorem mcRead_keeps (s : State) (k off : Nat) : Keeps s (mcRead s k off).2 := by
  unfold mcRead
  split
  · exact Keeps.refl s
  · exact ⟨rfl, rfl, s.mem.afterRead_wf _, Mem.fusesKept_of_eq (by simp)⟩

theorem devRead_keeps (s : State) (a : Nat) : Keeps s (devRead s a).2 := mcRead_keeps s _ _

theorem devWrite_keeps (s : State) (a : Nat) (l : BitVec 512) : Keeps s (devWrite s a l) := by
  unfold devWrite
  simp only
  split
  · exact Keeps.refl s
  · exact ⟨rfl, rfl, s.mem.putLine_wf _ _, Mem.fusesKept_of_eq (by simp)⟩

theorem devWrites_keeps (s : State) (a : Nat) (ls : List (BitVec 512)) : Keeps s (devWrites s a ls) := by
  induction ls generalizing s a with
  | nil => exact Keeps.refl s
  | cons l t ih => exact (devWrite_keeps s a l).trans (ih _ _)

theorem devReads_keeps (s : State) (a n : Nat) : Keeps s (devReads s a n).2.1 := by
  induction n generalizing s a with
  | zero => exact Keeps.refl s
  | succ n ih =>
    unfold devReads
    simp only
    split
    · exact devRead_keeps s a
    · exact (devRead_keeps s a).trans (ih _ _)

theorem imagePut_keeps (s : State) (n p w : Nat) (x : Word) : Keeps s (imagePut s n p w x) := by
  unfold imagePut
  simp only
  split
  · exact devRead_keeps s _
  · exact (devRead_keeps s _).trans (devWrite_keeps _ _ _)

theorem localPut_keeps (g : Nat) (s : State) (w : Nat) (x : Word) : Keeps s (localPut g s w x) := by
  unfold localPut
  split
  · exact (storeTwins_keeps _ _ _ _).trans (imagePut_keeps _ _ _ _ _)
  · exact storeWord_keeps _ _ _

/-! ### Descriptors -/

theorem finish_keeps (r : Nat) (d : Desc) (status d0 d1 : Nat) (s : State) : Keeps s (finish r d status d0 d1 s) := Keeps.body s _

theorem startKind_keeps (r seq : Nat) (mine : Desc → Bool) (f : State → Desc → State) (hf : ∀ s d, Keeps s (f s d)) (s : State) :
    Keeps s (startKind r seq mine f s) := by
  unfold startKind
  split
  · split
    · exact Keeps.refl s
    · split
      · exact Keeps.body s _
      · exact (Keeps.body s _).trans (hf _ _)
  · exact Keeps.refl s

theorem startOrLook_keeps (r seq : Nat) (mine : Desc → Bool) (start look : State → Desc → State) (hs : ∀ s d, Keeps s (start s d))
    (hl : ∀ s d, Keeps s (look s d)) (s : State) : Keeps s (startOrLook r seq mine start look s) := by
  unfold startOrLook
  have h := startKind_keeps r seq mine start hs s
  simp only
  split
  · split
    · exact h.trans (hl _ _)
    · exact h
  · exact h

theorem srcLine_keeps (s : State) (dev : Bool) (a : Nat) (data : Option (BitVec 512)) : Keeps s (srcLine s dev a data).2 := by
  unfold srcLine
  split
  · split
    · exact Keeps.refl s
    · simp only
      split <;> exact devRead_keeps s a
  · split
    · exact Keeps.refl s
    · split
      · exact Keeps.body s _
      · exact Keeps.refl s

theorem takeLines_keeps (put : State → Nat → Word → State) (hp : ∀ s w x, Keeps s (put s w x)) (dev : Bool) (n a w left : Nat)
    (src : List (Option (BitVec 512))) (s : State) : Keeps s (takeLines put dev n a w left src s).1 := by
  induction n generalizing a w left src s with
  | zero => exact Keeps.refl s
  | succ n ih =>
    unfold takeLines
    split
    · exact Keeps.refl s
    · simp only
      have h := srcLine_keeps s dev a (src.headD none)
      split
      · exact h
      · split
        · exact h
        · exact (h.trans (Keeps.foldl _ (fun s (e : Word × Nat) => hp s e.2 e.1) _ _)).trans (ih _ _ _ _ _)

theorem loadDesc_keeps (r : Nat) (src : List (Option (BitVec 512))) (bad : Bool) (limit status : Nat) (put : State → Nat → Word → State)
    (hp : ∀ s w x, Keeps s (put s w x)) (s : State) (d : Desc) : Keeps s (loadDesc r src bad limit status put s d) := by
  unfold loadDesc
  split
  · exact finish_keeps _ _ _ _ _ _
  · split
    · exact finish_keeps _ _ _ _ _ _
    · split
      · exact finish_keeps _ _ _ _ _ _
      · split
        · exact finish_keeps _ _ _ _ _ _
        · exact (takeLines_keeps put hp _ _ _ _ _ _ _).trans (finish_keeps _ _ _ _ _ _)

theorem readImage_keeps (dev : Bool) (n a : Nat) (src : List (Option (BitVec 512))) (s : State) : Keeps s (readImage dev n a src s).2 := by
  induction n generalizing a src s with
  | zero => exact Keeps.refl s
  | succ n ih =>
    unfold readImage
    simp only
    have h := srcLine_keeps s dev a (src.headD none)
    split
    · exact h
    · exact h.trans (ih _ _ _)

/-! ### Engines -/

theorem setEng_keeps (s : State) (g : Nat) (x : Engine) : Keeps s (s.setEng g x) := Keeps.body s _

/-! ### Fuse writes and resets -/

theorem fuseEnd_keeps (x : FuseWrite) (status d0 : Nat) (s : State) : Keeps s (fuseEnd x status d0 s) := by
  unfold fuseEnd
  simp only
  split
  · split
    · exact (Keeps.body s _).trans (finish_keeps _ _ _ _ _ _)
    · exact Keeps.body s _
  · exact Keeps.body s _

theorem fuseStep_keeps (x : FuseWrite) (s : State) : Keeps s (fuseStep x s) := by
  have hn : ∀ y : FuseWrite, Keeps s (fuseNext y s) := by
    intro y
    unfold fuseNext
    split
    · exact Keeps.body s _
    · exact fuseEnd_keeps _ _ _ _
  unfold fuseStep
  simp only
  split
  · exact fuseEnd_keeps _ _ _ _
  · split
    · exact hn _
    · split
      · exact fuseEnd_keeps _ _ _ _
      · split
        · exact hn _
        · exact fuseEnd_keeps _ _ _ _

/-- A word in progress that is lost or completed when the device goes down clears no fuse bit. -/
theorem fuseLoseWord_keeps (s : State) : Keeps s (fuseLoseWord s) := by
  unfold fuseLoseWord
  split
  · split
    · exact ⟨rfl, rfl, s.mem.blow_wf _ _, s.mem.blow_fusesKept _ _⟩
    · exact Keeps.refl s
  · exact Keeps.refl s

theorem fuseFinishWord_keeps (s : State) : Keeps s (fuseFinishWord s) := by
  unfold fuseFinishWord
  split
  · split
    · exact ⟨rfl, rfl, s.mem.blow_wf _ _, s.mem.blow_fusesKept _ _⟩
    · exact Keeps.refl s
  · exact Keeps.refl s

end Sys2Proof.Machine
end

