-- ==== Sys2Proof/Laws/Ops.lean ====
section
/-! SUPPORT. What the shared operations on the body can do, said once: publishing, fault records, the completion of a descriptor. -/

namespace Sys2Proof.Machine

/-! ### Publishing (R325 to R328) -/

theorem publish_open (b : Body) (c : Clock) (ch : Nat) (lin : BitVec 64) (delay : Nat) (imported : Bool) (h : lin.getLsbD ch = false) :
    b.publish c ch lin delay imported =
      { b with evt := { b.evt with flight := mergeFlight ⟨ch, lin, c.cyc + delay + 2, imported⟩ b.evt.flight } } := by
  simp [Body.publish, bit, h]

theorem publish_loop (b : Body) (c : Clock) (ch : Nat) (lin : BitVec 64) (delay : Nat) (imported : Bool) (h : lin.getLsbD ch = true) :
    b.publish c ch lin delay imported = b.suppress ch := by
  simp [Body.publish, bit, h]

/-- After a publication an event of its channel and cycle is on its way, and carries its lineage. -/
theorem mergeFlight_has (e : RouterEv) (l : List RouterEv) :
    ∃ x ∈ mergeFlight e l, x.ch = e.ch ∧ x.due = e.due ∧ ∀ i, e.lin.getLsbD i = true → x.lin.getLsbD i = true := by
  induction l with
  | nil => exact ⟨e, by simp [mergeFlight], rfl, rfl, fun _ h => h⟩
  | cons y t ih =>
    by_cases h : y.ch = e.ch ∧ y.due = e.due
    · refine ⟨{ y with lin := y.lin ||| e.lin, imported := y.imported && e.imported }, by simp [mergeFlight, h], h.1, h.2, ?_⟩
      intro i hi
      simp [hi]
    · obtain ⟨x, hx, hr⟩ := ih
      exact ⟨x, by simp [mergeFlight, h, hx], hr⟩

/-- Events of other channels or cycles are neither lost nor made by a publication. -/
theorem mergeFlight_other (e x : RouterEv) (l : List RouterEv) (h : ¬ (x.ch = e.ch ∧ x.due = e.due)) : x ∈ mergeFlight e l ↔ x ∈ l := by
  induction l with
  | nil =>
    simp only [mergeFlight, List.mem_singleton, List.not_mem_nil, iff_false]
    rintro rfl
    exact h ⟨rfl, rfl⟩
  | cons y t ih =>
    by_cases hy : y.ch = e.ch ∧ y.due = e.due
    · simp only [mergeFlight, if_pos hy, List.mem_cons]
      have h1 : x ≠ y := by rintro rfl; exact h hy
      have h2 : x ≠ { y with lin := y.lin ||| e.lin, imported := y.imported && e.imported } := by
        rintro rfl; exact h ⟨hy.1, hy.2⟩
      simp [h1, h2]
    · simp only [mergeFlight, if_neg hy, List.mem_cons, ih]

/-! ### Fault records (R296, R414, R415) -/

theorem fault_taken (b : Body) (c : Clock) (code d0 d1 : Nat) (h : b.faultRingOk = true) :
    b.fault c code d0 d1 = b.setHring (b.rfld HST_CTL 8 8) { b.hring (b.rfld HST_CTL 8 8) with
      recs := insertFault ⟨0x81, 0, 0, 0, r32 (code + d0), BitVec.ofNat 64 d1, BitVec.ofNat 64 c.now, false, none, none⟩ (b.hring (b.rfld HST_CTL 8 8)).recs } := by
  simp [Body.fault, h]

theorem fault_dropped (b : Body) (c : Clock) (code d0 d1 : Nat) (h : b.faultRingOk = false) (he : b.rbit HST_CTL 16 = true) :
    b.fault c code d0 d1 = b.count FAULT_DROP 1 := by
  simp [Body.fault, h, he]

theorem fault_disabled (b : Body) (c : Clock) (code d0 d1 : Nat) (he : b.rbit HST_CTL 16 = false) :
    b.fault c code d0 d1 = b := by
  simp [Body.fault, Body.faultRingOk, he]

/-- A fault record changes no setup register but the count of lost ones. -/
theorem rget_fault (b : Body) (c : Clock) (code d0 d1 k : Nat) (h : k ≠ FAULT_DROP) : (b.fault c code d0 d1).rget k = b.rget k := by
  cases he : b.rbit HST_CTL 16
  · rw [fault_disabled _ _ _ _ _ he]
  cases hr : b.faultRingOk
  · rw [fault_dropped _ _ _ _ _ hr he, Body.rget_count]; simp [h]
  · rw [fault_taken _ _ _ _ _ hr]; rfl

/-! ### Host rings -/

@[simp] theorem hring_setHring (b : Body) (r : Nat) (x : HostRing) : (b.setHring r x).hring r = x := SMap.get_put_same _ _ _ _
theorem hring_setHring_other (b : Body) {q r : Nat} (h : q ≠ r) (x : HostRing) : (b.setHring r x).hring q = b.hring q :=
  SMap.get_put_other _ _ _ h _
@[simp] theorem rget_setHring (b : Body) (r : Nat) (x : HostRing) (k : Nat) : (b.setHring r x).rget k = b.rget k := rfl

/-- Completing a descriptor ends it, and does nothing else (R276, R280, R292). -/
theorem complete_endsDesc (b : Body) (c : Clock) (r : Nat) (d : Desc) (status d0 d1 : Nat) :
    endsDesc b (b.complete c r d status d0 d1) c r d status (BitVec.ofNat 32 d0) (BitVec.ofNat 64 d1) := by
  have hk : d.kind = d.fld 0 8 := rfl
  have hf : ∀ i, d.flag i = d.raw.getLsbD (8 + i) := fun _ => rfl
  have hc : r32 (d.fld 4 32) = d.raw.extractLsb' 32 32 := by
    apply BitVec.eq_of_toNat_eq
    simp [r32, Desc.fld, fld, bitsAt, Nat.shiftRight_eq_div_pow]
  have ht : BitVec.ofNat 64 c.now = c.tt.extractLsb' 32 64 := by
    apply BitVec.eq_of_toNat_eq
    simp [Clock.now, Nat.shiftRight_eq_div_pow]
  unfold Body.complete
  simp only [hf]
  split
  · rename_i h
    refine ⟨fun q hq => ?_, ?_, ?_, ?_, ?_⟩
    · simp [Body.dropDesc, Body.setDesc, hring_setHring_other _ hq]
    · simp [Body.dropDesc, Body.setDesc]
    · rw [if_pos (by simpa using h)]; simp [Body.dropDesc, Body.setDesc]
    · intro x hx ho
      simp only [Body.dropDesc, Body.setDesc, hring_setHring, List.mem_filter, List.mem_map] at hx
      obtain ⟨⟨y, _, rfl⟩, _⟩ := hx
      by_cases hy : y.order = d.order <;> simp [hy] at ho ⊢
    · intro x hx ho hs
      simp only [Body.dropDesc, Body.setDesc, hring_setHring, List.mem_filter, List.mem_map]
      exact ⟨⟨x, hx, by simp [ho]⟩, by simp [hs]⟩
  · rename_i h
    refine ⟨fun q hq => ?_, ?_, ?_, ?_, ?_⟩
    · simp [Body.setDesc, hring_setHring_other _ hq]
    · simp [Body.setDesc]
    · rw [if_neg (by simpa using h)]
      simp [Body.setDesc, recordOf, hk, ht, r32]
      exact hc
    · intro x hx ho
      simp only [Body.setDesc, hring_setHring, List.mem_map] at hx
      obtain ⟨y, _, rfl⟩ := hx
      by_cases hy : y.order = d.order <;> simp [hy] at ho ⊢
    · intro x hx ho _
      simp only [Body.setDesc, hring_setHring, List.mem_map]
      exact ⟨x, hx, by simp [ho]⟩

/-- Completing a descriptor changes the host rings alone. -/
theorem complete_withRings (b : Body) (c : Clock) (r : Nat) (d : Desc) (status d0 d1 : Nat) :
    b.complete c r d status d0 d1 = b.withRings (b.complete c r d status d0 d1) := by
  unfold Body.complete
  simp only
  split <;> rfl

/-- A descriptor that may start, of the kind of the command and with no reserved bit set, becomes active and acts (R277, R280). -/
theorem startKind_ready {r seq : Nat} {mine : Desc → Bool} {f : State → Desc → State} {s : State} {d : Desc}
    (h : s.body.startable r seq = some d) (hm : mine d = true) (hr : d.reserved = false) :
    startKind r seq mine f s = f { s with body := s.body.setDesc r { d with st := .active } } { d with st := .active } := by
  simp [startKind, h, hm, hr]

/-- One with a reserved bit set ends with BAD_FIELD (R280). -/
theorem startKind_reserved {r seq : Nat} {mine : Desc → Bool} {f : State → Desc → State} {s : State} {d : Desc}
    (h : s.body.startable r seq = some d) (hm : mine d = true) (hr : d.reserved = true) :
    startKind r seq mine f s = { s with body := s.body.complete s.clock r d 2 0 0 } := by
  simp [startKind, h, hm, hr]

/-- A command whose descriptor may not start changes nothing. -/
theorem startKind_none {r seq : Nat} {mine : Desc → Bool} {f : State → Desc → State} {s : State} (h : s.body.startable r seq = none) :
    startKind r seq mine f s = s := by
  simp [startKind, h]

end Sys2Proof.Machine
end

