-- ==== Sys2Proof/Laws/PerInstr.lean ====
section
/-! SUPPORT. Per-command laws: for each command that runs an instruction word of an engine, decoding the encoded word gives the
command back (R209, R210); the other commands encode no word. -/

namespace Sys2Proof.Laws

/-- A command that encodes a word runs on an engine, and that engine's decoding of the word is the command. -/
def Codec.Statement (i : Instr) : Prop :=
  ∀ w, encodeYosum i = some w → ∃ e, yosumEngine i = some e ∧ decodeYosum e (yosumUpto i) w = some i

theorem Codec.noWord {i : Instr} (h : yosumParts i = none) : Codec.Statement i := by
  intro w hw
  simp [encodeYosum, h] at hw

/-- The opcode and the operand bits of a word put together from them. -/
theorem Codec.split_word (op : Nat) (h : op < 256) (f : BitVec 28) :
    (((BitVec.ofNat 8 op ++ f : Word) >>> 28).toNat = op) ∧ BitVec.ofNat 28 (BitVec.ofNat 8 op ++ f : Word).toNat = f := by
  have hf := f.isLt
  have e : (BitVec.ofNat 8 op ++ f : Word).toNat = op * 2 ^ 28 + f.toNat := by
    rw [BitVec.toNat_append, ← Nat.shiftLeft_add_eq_or_of_lt hf, Nat.shiftLeft_eq, BitVec.toNat_ofNat, Nat.mod_eq_of_lt h]
  constructor
  · rw [BitVec.toNat_ushiftRight, e, Nat.shiftRight_eq_div_pow]; omega
  · rw [e]; apply BitVec.eq_of_toNat_eq; rw [BitVec.toNat_ofNat]; omega

theorem Codec.word {i : Instr} {op : Nat} {e : Fin 192} {f : BitVec 28} (h : op < 256) (hp : yosumParts i = some (op, f))
    (he : yosumEngine i = some e) (hd : yosumOp op e f (yosumUpto i) = some i) : Codec.Statement i := by
  intro w hw
  simp only [encodeYosum, hp, Option.some.injEq] at hw
  subst hw
  refine ⟨e, he, ?_⟩
  simp only [decodeYosum, (Codec.split_word op h f).1, (Codec.split_word op h f).2, hd]

theorem Codec.registerWrite (x0 : Nat) (x1 : Nat) (x2 : Nat) : Codec.Statement (.registerWrite x0 x1 x2) := Codec.noWord rfl
theorem Codec.tideNowLoRead : Codec.Statement .tideNowLoRead := Codec.noWord rfl
theorem Codec.slotPeekRead : Codec.Statement .slotPeekRead := Codec.noWord rfl
theorem Codec.dtResultLoRead (x0 : Fin 8) : Codec.Statement (.dtResultLoRead x0) := Codec.noWord rfl
theorem Codec.fuseRdLoRead : Codec.Statement .fuseRdLoRead := Codec.noWord rfl
theorem Codec.tileErrTtLoRead : Codec.Statement .tileErrTtLoRead := Codec.noWord rfl
theorem Codec.pcntLoRead (x0 : Fin 32) : Codec.Statement (.pcntLoRead x0) := Codec.noWord rfl
theorem Codec.pcntHiWrite (x0 : Fin 32) (x1 : Reg32) : Codec.Statement (.pcntHiWrite x0 x1) := Codec.noWord rfl
theorem Codec.tideIncWrite (x0 : Reg32) : Codec.Statement (.tideIncWrite x0) := Codec.noWord rfl
theorem Codec.anchor (x0 : Reg32) : Codec.Statement (.anchor x0) := Codec.noWord rfl
theorem Codec.anchorInstant : Codec.Statement .anchorInstant := Codec.noWord rfl
theorem Codec.gridCmdStart (x0 : Reg32) : Codec.Statement (.gridCmdStart x0) := Codec.noWord rfl
theorem Codec.gridCmdStop (x0 : Reg32) : Codec.Statement (.gridCmdStop x0) := Codec.noWord rfl
theorem Codec.finalCommit : Codec.Statement .finalCommit := Codec.noWord rfl
theorem Codec.announceSend : Codec.Statement .announceSend := Codec.noWord rfl
theorem Codec.slackHorizon : Codec.Statement .slackHorizon := Codec.noWord rfl
theorem Codec.verdictSend : Codec.Statement .verdictSend := Codec.noWord rfl
theorem Codec.verdictMiss : Codec.Statement .verdictMiss := Codec.noWord rfl
theorem Codec.shotStart : Codec.Statement .shotStart := Codec.noWord rfl
theorem Codec.slackStart : Codec.Statement .slackStart := Codec.noWord rfl
theorem Codec.slackCommit : Codec.Statement .slackCommit := Codec.noWord rfl
theorem Codec.slackOverrun : Codec.Statement .slackOverrun := Codec.noWord rfl
theorem Codec.almTargetHiWrite (x0 : Fin 32) (x1 : Reg32) : Codec.Statement (.almTargetHiWrite x0 x1) := Codec.noWord rfl
theorem Codec.alarmFire (x0 : Fin 32) : Codec.Statement (.alarmFire x0) := Codec.noWord rfl
theorem Codec.capture (x0 : Fin 16) (x1 : CapSrc) : Codec.Statement (.capture x0 x1) := Codec.noWord rfl
theorem Codec.ack (x0 : Fin 16) (x1 : Reg32) : Codec.Statement (.ack x0 x1) := Codec.noWord rfl
theorem Codec.coreEn (x0 : PortRef) (x1 : Reg32) : Codec.Statement (.coreEn x0 x1) := Codec.noWord rfl
theorem Codec.coreReady (x0 : PortRef) : Codec.Statement (.coreReady x0) := Codec.noWord rfl
theorem Codec.cntClr (x0 : Nat) (x1 : Reg32) : Codec.Statement (.cntClr x0 x1) := Codec.noWord rfl
theorem Codec.timeSend : Codec.Statement .timeSend := Codec.noWord rfl
theorem Codec.delayReqSend (x0 : Bool) : Codec.Statement (.delayReqSend x0) := Codec.noWord rfl
theorem Codec.loopSend : Codec.Statement .loopSend := Codec.noWord rfl
theorem Codec.timeFrame (x0 : Rx) : Codec.Statement (.timeFrame x0) := Codec.noWord rfl
theorem Codec.delayReq (x0 : Rx) : Codec.Statement (.delayReq x0) := Codec.noWord rfl
theorem Codec.delayResp (x0 : Rx) : Codec.Statement (.delayResp x0) := Codec.noWord rfl
theorem Codec.loopFrame (x0 : Rx) : Codec.Statement (.loopFrame x0) := Codec.noWord rfl
theorem Codec.announce (x0 : Rx) : Codec.Statement (.announce x0) := Codec.noWord rfl
theorem Codec.holdVote (x0 : Rx) : Codec.Statement (.holdVote x0) := Codec.noWord rfl
theorem Codec.verdict (x0 : Rx) : Codec.Statement (.verdict x0) := Codec.noWord rfl
theorem Codec.decisionFrame (x0 : Rx) : Codec.Statement (.decisionFrame x0) := Codec.noWord rfl
theorem Codec.eventFrame (x0 : Rx) : Codec.Statement (.eventFrame x0) := Codec.noWord rfl
theorem Codec.anchorFrame (x0 : Rx) : Codec.Statement (.anchorFrame x0) := Codec.noWord rfl
theorem Codec.takeoverFrame (x0 : Rx) : Codec.Statement (.takeoverFrame x0) := Codec.noWord rfl
theorem Codec.linkFrame (x0 : Rx) : Codec.Statement (.linkFrame x0) := Codec.noWord rfl
theorem Codec.linkUp (x0 : Bool) : Codec.Statement (.linkUp x0) := Codec.noWord rfl
theorem Codec.servoStage : Codec.Statement .servoStage := Codec.noWord rfl
theorem Codec.lhSilent : Codec.Statement .lhSilent := Codec.noWord rfl
theorem Codec.ringBreak (x0 : Bool) : Codec.Statement (.ringBreak x0) := Codec.noWord rfl
theorem Codec.unwrap : Codec.Statement .unwrap := Codec.noWord rfl
theorem Codec.asymConfirm (x0 : Reg32) : Codec.Statement (.asymConfirm x0) := Codec.noWord rfl
theorem Codec.remeasure (x0 : Reg32) : Codec.Statement (.remeasure x0) := Codec.noWord rfl
theorem Codec.ringEn (x0 : Reg32) : Codec.Statement (.ringEn x0) := Codec.noWord rfl
theorem Codec.carrierHiWrite (x0 : Fin 80) (x1 : Reg32) : Codec.Statement (.carrierHiWrite x0 x1) := Codec.noWord rfl
theorem Codec.pulse (x0 : Fin 16) (x1 : Word) (x2 : Word) (x3 : Word) (x4 : Word) : Codec.Statement (.pulse x0 x1 x2 x3 x4) := Codec.noWord rfl
theorem Codec.forkArm (x0 : Fin 16) (x1 : Word) (x2 : Word) (x3 : Word) (x4 : Word) : Codec.Statement (.forkArm x0 x1 x2 x3 x4) := Codec.noWord rfl
theorem Codec.const (x0 : Fin 16) (x1 : Word) (x2 : Word) (x3 : Word) (x4 : Word) : Codec.Statement (.const x0 x1 x2 x3 x4) := Codec.noWord rfl
theorem Codec.setFreq (x0 : Fin 16) (x1 : Word) (x2 : Word) (x3 : Word) (x4 : Word) : Codec.Statement (.setFreq x0 x1 x2 x3 x4) := Codec.noWord rfl
theorem Codec.setFrame (x0 : Fin 16) (x1 : Word) (x2 : Word) (x3 : Word) (x4 : Word) : Codec.Statement (.setFrame x0 x1 x2 x3 x4) := Codec.noWord rfl
theorem Codec.shiftFrame (x0 : Fin 16) (x1 : Word) (x2 : Word) (x3 : Word) (x4 : Word) : Codec.Statement (.shiftFrame x0 x1 x2 x3 x4) := Codec.noWord rfl
theorem Codec.forkShift (x0 : Fin 16) (x1 : Word) (x2 : Word) (x3 : Word) (x4 : Word) : Codec.Statement (.forkShift x0 x1 x2 x3 x4) := Codec.noWord rfl
theorem Codec.fluxPulse (x0 : Fin 16) (x1 : Word) (x2 : Word) (x3 : Word) (x4 : Word) : Codec.Statement (.fluxPulse x0 x1 x2 x3 x4) := Codec.noWord rfl
theorem Codec.fluxForkArm (x0 : Fin 16) (x1 : Word) (x2 : Word) (x3 : Word) (x4 : Word) : Codec.Statement (.fluxForkArm x0 x1 x2 x3 x4) := Codec.noWord rfl
theorem Codec.ramp (x0 : Fin 16) (x1 : Word) (x2 : Word) (x3 : Word) (x4 : Word) : Codec.Statement (.ramp x0 x1 x2 x3 x4) := Codec.noWord rfl
theorem Codec.setLevel (x0 : Fin 16) (x1 : Word) (x2 : Word) (x3 : Word) (x4 : Word) : Codec.Statement (.setLevel x0 x1 x2 x3 x4) := Codec.noWord rfl
theorem Codec.shiftLevel (x0 : Fin 16) (x1 : Word) (x2 : Word) (x3 : Word) (x4 : Word) : Codec.Statement (.shiftLevel x0 x1 x2 x3 x4) := Codec.noWord rfl
theorem Codec.fluxForkShift (x0 : Fin 16) (x1 : Word) (x2 : Word) (x3 : Word) (x4 : Word) : Codec.Statement (.fluxForkShift x0 x1 x2 x3 x4) := Codec.noWord rfl
theorem Codec.pulseStart (x0 : Fin 112) (x1 : Fin 16) : Codec.Statement (.pulseStart x0 x1) := Codec.noWord rfl
theorem Codec.slotUpdate (x0 : Fin 112) (x1 : Fin 16) : Codec.Statement (.slotUpdate x0 x1) := Codec.noWord rfl
theorem Codec.levelUpdate (x0 : Fin 32) : Codec.Statement (.levelUpdate x0) := Codec.noWord rfl
theorem Codec.forkSelect (x0 : Fin 112) (x1 : Fin 16) : Codec.Statement (.forkSelect x0 x1) := Codec.noWord rfl
theorem Codec.commandRetire (x0 : Fin 112) : Codec.Statement (.commandRetire x0) := Codec.noWord rfl
theorem Codec.coefCommit (x0 : Fin 32) (x1 : Reg32) : Codec.Statement (.coefCommit x0 x1) := Codec.noWord rfl
theorem Codec.biasCodeWrite (x0 : Fin 16) (x1 : Reg32) : Codec.Statement (.biasCodeWrite x0 x1) := Codec.noWord rfl
theorem Codec.biasEn (x0 : Fin 16) (x1 : Reg32) : Codec.Statement (.biasEn x0 x1) := Codec.noWord rfl
theorem Codec.rangeChange (x0 : Fin 16) : Codec.Statement (.rangeChange x0) := Codec.noWord rfl
theorem Codec.pwmFrame (x0 : Fin 16) : Codec.Statement (.pwmFrame x0) := Codec.noWord rfl
theorem Codec.biasStateEnd (x0 : Fin 16) : Codec.Statement (.biasStateEnd x0) := Codec.noWord rfl
theorem Codec.dgHoldEnd (x0 : Fin 16) : Codec.Statement (.dgHoldEnd x0) := Codec.noWord rfl
theorem Codec.biasSense (x0 : Fin 16) (x1 : BitVec 16) (x2 : BitVec 24) : Codec.Statement (.biasSense x0 x1 x2) := Codec.noWord rfl
theorem Codec.measure (x0 : Fin 16) (x1 : Word) (x2 : Word) (x3 : Word) (x4 : Word) : Codec.Statement (.measure x0 x1 x2 x3 x4) := Codec.noWord rfl
theorem Codec.windowSetFreq (x0 : Fin 16) (x1 : Word) (x2 : Word) (x3 : Word) (x4 : Word) : Codec.Statement (.windowSetFreq x0 x1 x2 x3 x4) := Codec.noWord rfl
theorem Codec.windowSetFrame (x0 : Fin 16) (x1 : Word) (x2 : Word) (x3 : Word) (x4 : Word) : Codec.Statement (.windowSetFrame x0 x1 x2 x3 x4) := Codec.noWord rfl
theorem Codec.windowShiftFrame (x0 : Fin 16) (x1 : Word) (x2 : Word) (x3 : Word) (x4 : Word) : Codec.Statement (.windowShiftFrame x0 x1 x2 x3 x4) := Codec.noWord rfl
theorem Codec.windowOpen (x0 : Fin 16) : Codec.Statement (.windowOpen x0) := Codec.noWord rfl
theorem Codec.demodUpdate (x0 : Fin 16) : Codec.Statement (.demodUpdate x0) := Codec.noWord rfl
theorem Codec.windowClose (x0 : Fin 16) (x1 : Nat) (x2 : BitVec 16) : Codec.Statement (.windowClose x0 x1 x2) := Codec.noWord rfl
theorem Codec.avgClr (x0 : Fin 16) (x1 : Reg32) : Codec.Statement (.avgClr x0 x1) := Codec.noWord rfl
theorem Codec.avgNWrite (x0 : Fin 16) (x1 : Reg32) : Codec.Statement (.avgNWrite x0 x1) := Codec.noWord rfl
theorem Codec.resultWord (x0 : Fin 16) : Codec.Statement (.resultWord x0) := Codec.noWord rfl
theorem Codec.mergePass : Codec.Statement .mergePass := Codec.noWord rfl
theorem Codec.tableLookup (x0 : Fin 8) : Codec.Statement (.tableLookup x0) := Codec.noWord rfl
theorem Codec.tableResultLand (x0 : Fin 8) : Codec.Statement (.tableResultLand x0) := Codec.noWord rfl
theorem Codec.tableEn (x0 : Fin 8) (x1 : Reg32) : Codec.Statement (.tableEn x0 x1) := Codec.noWord rfl
theorem Codec.arm (x0 : Fin 192) : Codec.Statement (.arm x0) := Codec.noWord rfl
theorem Codec.start (x0 : Fin 192) : Codec.Statement (.start x0) := Codec.noWord rfl
theorem Codec.stop (x0 : Fin 192) : Codec.Statement (.stop x0) := Codec.noWord rfl
theorem Codec.engineStopAct (x0 : Fin 192) : Codec.Statement (.engineStopAct x0) := Codec.noWord rfl
theorem Codec.clearFault (x0 : Fin 192) : Codec.Statement (.clearFault x0) := Codec.noWord rfl
theorem Codec.guardedWrite (x0 : Fin 16) (x1 : Reg32) : Codec.Statement (.guardedWrite x0 x1) := Codec.noWord rfl
theorem Codec.imageBuildDone (x0 : Fin 16) : Codec.Statement (.imageBuildDone x0) := Codec.noWord rfl
theorem Codec.reloadBaseHiWrite (x0 : Fin 16) (x1 : Reg32) : Codec.Statement (.reloadBaseHiWrite x0 x1) := Codec.noWord rfl
theorem Codec.twinMismatch (x0 : Fin 192) : Codec.Statement (.twinMismatch x0) := Codec.noWord rfl
theorem Codec.reloadDone (x0 : Fin 16) : Codec.Statement (.reloadDone x0) := Codec.noWord rfl
theorem Codec.controlStoreRewrite (x0 : Fin 16) (x1 : Fin 6) (x2 : Bool) (x3 : Nat) : Codec.Statement (.controlStoreRewrite x0 x1 x2 x3) := Codec.noWord rfl
theorem Codec.eventEntry (x0 : Fin 192) : Codec.Statement (.eventEntry x0) := Codec.noWord rfl
theorem Codec.nop (x0 : Fin 192) (x1 : BitVec 28) : Codec.Statement (.nop x0 x1) := Codec.word (by decide) rfl rfl rfl
theorem Codec.halt (x0 : Fin 192) (x1 : BitVec 28) : Codec.Statement (.halt x0 x1) := Codec.word (by decide) rfl rfl rfl
theorem Codec.add (x0 : Fin 192) (x1 : BitVec 28) : Codec.Statement (.add x0 x1) := Codec.word (by decide) rfl rfl rfl
theorem Codec.sub (x0 : Fin 192) (x1 : BitVec 28) : Codec.Statement (.sub x0 x1) := Codec.word (by decide) rfl rfl rfl
theorem Codec.and (x0 : Fin 192) (x1 : BitVec 28) : Codec.Statement (.and x0 x1) := Codec.word (by decide) rfl rfl rfl
theorem Codec.or (x0 : Fin 192) (x1 : BitVec 28) : Codec.Statement (.or x0 x1) := Codec.word (by decide) rfl rfl rfl
theorem Codec.xor (x0 : Fin 192) (x1 : BitVec 28) : Codec.Statement (.xor x0 x1) := Codec.word (by decide) rfl rfl rfl
theorem Codec.shl (x0 : Fin 192) (x1 : BitVec 28) : Codec.Statement (.shl x0 x1) := Codec.word (by decide) rfl rfl rfl
theorem Codec.shr (x0 : Fin 192) (x1 : BitVec 28) : Codec.Statement (.shr x0 x1) := Codec.word (by decide) rfl rfl rfl
theorem Codec.sra (x0 : Fin 192) (x1 : BitVec 28) : Codec.Statement (.sra x0 x1) := Codec.word (by decide) rfl rfl rfl
theorem Codec.min (x0 : Fin 192) (x1 : BitVec 28) : Codec.Statement (.min x0 x1) := Codec.word (by decide) rfl rfl rfl
theorem Codec.max (x0 : Fin 192) (x1 : BitVec 28) : Codec.Statement (.max x0 x1) := Codec.word (by decide) rfl rfl rfl
theorem Codec.adds (x0 : Fin 192) (x1 : BitVec 28) : Codec.Statement (.adds x0 x1) := Codec.word (by decide) rfl rfl rfl
theorem Codec.cmp (x0 : Fin 192) (x1 : BitVec 28) : Codec.Statement (.cmp x0 x1) := Codec.word (by decide) rfl rfl rfl
theorem Codec.tst (x0 : Fin 192) (x1 : BitVec 28) : Codec.Statement (.tst x0 x1) := Codec.word (by decide) rfl rfl rfl
theorem Codec.ext (x0 : Fin 192) (x1 : BitVec 28) : Codec.Statement (.ext x0 x1) := Codec.word (by decide) rfl rfl rfl
theorem Codec.ins (x0 : Fin 192) (x1 : BitVec 28) : Codec.Statement (.ins x0 x1) := Codec.word (by decide) rfl rfl rfl
theorem Codec.cadd (x0 : Fin 192) (x1 : BitVec 28) : Codec.Statement (.cadd x0 x1) := Codec.word (by decide) rfl rfl rfl
theorem Codec.addi (x0 : Fin 192) (x1 : BitVec 28) : Codec.Statement (.addi x0 x1) := Codec.word (by decide) rfl rfl rfl
theorem Codec.andi (x0 : Fin 192) (x1 : BitVec 28) : Codec.Statement (.andi x0 x1) := Codec.word (by decide) rfl rfl rfl
theorem Codec.ori (x0 : Fin 192) (x1 : BitVec 28) : Codec.Statement (.ori x0 x1) := Codec.word (by decide) rfl rfl rfl
theorem Codec.xori (x0 : Fin 192) (x1 : BitVec 28) : Codec.Statement (.xori x0 x1) := Codec.word (by decide) rfl rfl rfl
theorem Codec.shli (x0 : Fin 192) (x1 : BitVec 28) : Codec.Statement (.shli x0 x1) := Codec.word (by decide) rfl rfl rfl
theorem Codec.shri (x0 : Fin 192) (x1 : BitVec 28) : Codec.Statement (.shri x0 x1) := Codec.word (by decide) rfl rfl rfl
theorem Codec.srai (x0 : Fin 192) (x1 : BitVec 28) : Codec.Statement (.srai x0 x1) := Codec.word (by decide) rfl rfl rfl
theorem Codec.cmpi (x0 : Fin 192) (x1 : BitVec 28) : Codec.Statement (.cmpi x0 x1) := Codec.word (by decide) rfl rfl rfl
theorem Codec.tsti (x0 : Fin 192) (x1 : BitVec 28) : Codec.Statement (.tsti x0 x1) := Codec.word (by decide) rfl rfl rfl
theorem Codec.li (x0 : Fin 192) (x1 : BitVec 28) : Codec.Statement (.li x0 x1) := Codec.word (by decide) rfl rfl rfl
theorem Codec.lih (x0 : Fin 192) (x1 : BitVec 28) : Codec.Statement (.lih x0 x1) := Codec.word (by decide) rfl rfl rfl
theorem Codec.movs (x0 : Fin 192) (x1 : BitVec 28) : Codec.Statement (.movs x0 x1) := Codec.word (by decide) rfl rfl rfl
theorem Codec.movsw (x0 : Fin 192) (x1 : BitVec 28) : Codec.Statement (.movsw x0 x1) := Codec.word (by decide) rfl rfl rfl
theorem Codec.mac (x0 : Fin 192) (x1 : BitVec 28) : Codec.Statement (.mac x0 x1) := Codec.word (by decide) rfl rfl rfl
theorem Codec.msu (x0 : Fin 192) (x1 : BitVec 28) : Codec.Statement (.msu x0 x1) := Codec.word (by decide) rfl rfl rfl
theorem Codec.cmac (x0 : Fin 192) (x1 : BitVec 28) : Codec.Statement (.cmac x0 x1) := Codec.word (by decide) rfl rfl rfl
theorem Codec.cmacj (x0 : Fin 192) (x1 : BitVec 28) : Codec.Statement (.cmacj x0 x1) := Codec.word (by decide) rfl rfl rfl
theorem Codec.cmsu (x0 : Fin 192) (x1 : BitVec 28) : Codec.Statement (.cmsu x0 x1) := Codec.word (by decide) rfl rfl rfl
theorem Codec.cmsuj (x0 : Fin 192) (x1 : BitVec 28) : Codec.Statement (.cmsuj x0 x1) := Codec.word (by decide) rfl rfl rfl
theorem Codec.macm (x0 : Fin 192) (x1 : BitVec 28) : Codec.Statement (.macm x0 x1) := Codec.word (by decide) rfl rfl rfl
theorem Codec.cmacm (x0 : Fin 192) (x1 : BitVec 28) : Codec.Statement (.cmacm x0 x1) := Codec.word (by decide) rfl rfl rfl
theorem Codec.nrw (x0 : Fin 192) (x1 : BitVec 28) : Codec.Statement (.nrw x0 x1) := Codec.word (by decide) rfl rfl rfl
theorem Codec.cnrw (x0 : Fin 192) (x1 : BitVec 28) : Codec.Statement (.cnrw x0 x1) := Codec.word (by decide) rfl rfl rfl
theorem Codec.clra (x0 : Fin 192) (x1 : BitVec 28) : Codec.Statement (.clra x0 x1) := Codec.word (by decide) rfl rfl rfl
theorem Codec.rda (x0 : Fin 192) (x1 : BitVec 28) : Codec.Statement (.rda x0 x1) := Codec.word (by decide) rfl rfl rfl
theorem Codec.wra (x0 : Fin 192) (x1 : BitVec 28) : Codec.Statement (.wra x0 x1) := Codec.word (by decide) rfl rfl rfl
theorem Codec.wrah (x0 : Fin 192) (x1 : BitVec 28) : Codec.Statement (.wrah x0 x1) := Codec.word (by decide) rfl rfl rfl
theorem Codec.ld (x0 : Fin 192) (x1 : BitVec 28) : Codec.Statement (.ld x0 x1) := Codec.word (by decide) rfl rfl rfl
theorem Codec.st (x0 : Fin 192) (x1 : BitVec 28) : Codec.Statement (.st x0 x1) := Codec.word (by decide) rfl rfl rfl
theorem Codec.ld2 (x0 : Fin 192) (x1 : BitVec 28) : Codec.Statement (.ld2 x0 x1) := Codec.word (by decide) rfl rfl rfl
theorem Codec.st2 (x0 : Fin 192) (x1 : BitVec 28) : Codec.Statement (.st2 x0 x1) := Codec.word (by decide) rfl rfl rfl
theorem Codec.ldo (x0 : Fin 192) (x1 : BitVec 28) : Codec.Statement (.ldo x0 x1) := Codec.word (by decide) rfl rfl rfl
theorem Codec.sto (x0 : Fin 192) (x1 : BitVec 28) : Codec.Statement (.sto x0 x1) := Codec.word (by decide) rfl rfl rfl
theorem Codec.seta (x0 : Fin 192) (x1 : BitVec 28) : Codec.Statement (.seta x0 x1) := Codec.word (by decide) rfl rfl rfl
theorem Codec.setp (x0 : Fin 192) (x1 : BitVec 28) : Codec.Statement (.setp x0 x1) := Codec.word (by decide) rfl rfl rfl
theorem Codec.geta (x0 : Fin 192) (x1 : BitVec 28) : Codec.Statement (.geta x0 x1) := Codec.word (by decide) rfl rfl rfl
theorem Codec.bdot (x0 : Fin 192) (x1 : BitVec 28) (x2 : Nat) : Codec.Statement (.bdot x0 x1 x2) := Codec.word (by decide) rfl rfl rfl
theorem Codec.bscale (x0 : Fin 192) (x1 : BitVec 28) (x2 : Nat) : Codec.Statement (.bscale x0 x1 x2) := Codec.word (by decide) rfl rfl rfl
theorem Codec.bacc (x0 : Fin 192) (x1 : BitVec 28) (x2 : Nat) : Codec.Statement (.bacc x0 x1 x2) := Codec.word (by decide) rfl rfl rfl
theorem Codec.bcopy (x0 : Fin 192) (x1 : BitVec 28) (x2 : Nat) : Codec.Statement (.bcopy x0 x1 x2) := Codec.word (by decide) rfl rfl rfl
theorem Codec.bhist (x0 : Fin 192) (x1 : BitVec 28) (x2 : Nat) : Codec.Statement (.bhist x0 x1 x2) := Codec.word (by decide) rfl rfl rfl
theorem Codec.bfly (x0 : Fin 192) (x1 : BitVec 28) (x2 : Nat) : Codec.Statement (.bfly x0 x1 x2) := Codec.word (by decide) rfl rfl rfl
theorem Codec.bemit (x0 : Fin 192) (x1 : BitVec 28) (x2 : Nat) : Codec.Statement (.bemit x0 x1 x2) := Codec.word (by decide) rfl rfl rfl
theorem Codec.pissue (x0 : Fin 192) (x1 : BitVec 28) : Codec.Statement (.pissue x0 x1) := Codec.word (by decide) rfl rfl rfl
theorem Codec.wissue (x0 : Fin 192) (x1 : BitVec 28) : Codec.Statement (.wissue x0 x1) := Codec.word (by decide) rfl rfl rfl
theorem Codec.pissuem (x0 : Fin 192) (x1 : BitVec 28) : Codec.Statement (.pissuem x0 x1) := Codec.word (by decide) rfl rfl rfl
theorem Codec.wissuem (x0 : Fin 192) (x1 : BitVec 28) : Codec.Statement (.wissuem x0 x1) := Codec.word (by decide) rfl rfl rfl
theorem Codec.publish (x0 : Fin 192) (x1 : BitVec 28) : Codec.Statement (.publish x0 x1) := Codec.word (by decide) rfl rfl rfl
theorem Codec.await (x0 : Fin 192) (x1 : BitVec 28) : Codec.Statement (.await x0 x1) := Codec.word (by decide) rfl rfl rfl
theorem Codec.awaitComplete (x0 : Fin 192) : Codec.Statement (.awaitComplete x0) := Codec.noWord rfl
theorem Codec.awaitDeadline (x0 : Fin 192) : Codec.Statement (.awaitDeadline x0) := Codec.noWord rfl
theorem Codec.signal (x0 : Fin 192) (x1 : BitVec 28) : Codec.Statement (.signal x0 x1) := Codec.word (by decide) rfl rfl rfl
theorem Codec.waitev (x0 : Fin 192) (x1 : BitVec 28) : Codec.Statement (.waitev x0 x1) := Codec.word (by decide) rfl rfl rfl
theorem Codec.waitevComplete (x0 : Fin 192) : Codec.Statement (.waitevComplete x0) := Codec.noWord rfl
theorem Codec.waitevDeadline (x0 : Fin 192) : Codec.Statement (.waitevDeadline x0) := Codec.noWord rfl
theorem Codec.rete (x0 : Fin 192) (x1 : BitVec 28) : Codec.Statement (.rete x0 x1) := Codec.word (by decide) rfl rfl rfl
theorem Codec.emit (x0 : Fin 192) (x1 : BitVec 28) : Codec.Statement (.emit x0 x1) := Codec.word (by decide) rfl rfl rfl
theorem Codec.commit (x0 : Fin 192) (x1 : BitVec 28) : Codec.Statement (.commit x0 x1) := Codec.word (by decide) rfl rfl rfl
theorem Codec.abort (x0 : Fin 192) (x1 : BitVec 28) : Codec.Statement (.abort x0 x1) := Codec.word (by decide) rfl rfl rfl
theorem Codec.br (x0 : Fin 192) (x1 : BitVec 28) : Codec.Statement (.br x0 x1) := Codec.word (by decide) rfl rfl rfl
theorem Codec.brr (x0 : Fin 192) (x1 : BitVec 28) : Codec.Statement (.brr x0 x1) := Codec.word (by decide) rfl rfl rfl
theorem Codec.call (x0 : Fin 192) (x1 : BitVec 28) : Codec.Statement (.call x0 x1) := Codec.word (by decide) rfl rfl rfl
theorem Codec.ret (x0 : Fin 192) (x1 : BitVec 28) : Codec.Statement (.ret x0 x1) := Codec.word (by decide) rfl rfl rfl
theorem Codec.dbnz (x0 : Fin 192) (x1 : BitVec 28) : Codec.Statement (.dbnz x0 x1) := Codec.word (by decide) rfl rfl rfl
theorem Codec.patchedOpcode (x0 : Fin 192) (x1 : Word) (x2 : Nat) : Codec.Statement (.patchedOpcode x0 x1 x2) := Codec.noWord rfl
theorem Codec.illegalOp (x0 : Fin 192) (x1 : BitVec 8) : Codec.Statement (.illegalOp x0 x1) := Codec.noWord rfl
theorem Codec.pollTick : Codec.Statement .pollTick := Codec.noWord rfl
theorem Codec.summaryReturn (x0 : Option (BitVec 512)) : Codec.Statement (.summaryReturn x0) := Codec.noWord rfl
theorem Codec.pollEnd (x0 : Option (List (BitVec 64))) : Codec.Statement (.pollEnd x0) := Codec.noWord rfl
theorem Codec.glbNudge (x0 : Reg32) : Codec.Statement (.glbNudge x0) := Codec.noWord rfl
theorem Codec.reEn (x0 : Reg32) : Codec.Statement (.reEn x0) := Codec.noWord rfl
theorem Codec.ringEnable (x0 : Fin 256) (x1 : Reg32) : Codec.Statement (.ringEnable x0 x1) := Codec.noWord rfl
theorem Codec.ringAbort (x0 : Fin 256) (x1 : Reg32) : Codec.Statement (.ringAbort x0 x1) := Codec.noWord rfl
theorem Codec.descriptorFetch (x0 : Option (List (BitVec 512))) : Codec.Statement (.descriptorFetch x0) := Codec.noWord rfl
theorem Codec.nopDescriptor (x0 : Fin 256) (x1 : Reg32) : Codec.Statement (.nopDescriptor x0 x1) := Codec.noWord rfl
theorem Codec.loadProgram (x0 : Fin 256) (x1 : Reg32) (x2 : List (Option (BitVec 512))) : Codec.Statement (.loadProgram x0 x1 x2) := Codec.noWord rfl
theorem Codec.loadEnvelope (x0 : Fin 256) (x1 : Reg32) (x2 : List (Option (BitVec 512))) : Codec.Statement (.loadEnvelope x0 x1 x2) := Codec.noWord rfl
theorem Codec.loadKernel (x0 : Fin 256) (x1 : Reg32) (x2 : List (Option (BitVec 512))) : Codec.Statement (.loadKernel x0 x1 x2) := Codec.noWord rfl
theorem Codec.loadTable (x0 : Fin 256) (x1 : Reg32) (x2 : List (Option (BitVec 512))) : Codec.Statement (.loadTable x0 x1 x2) := Codec.noWord rfl
theorem Codec.loadMicrocode (x0 : Fin 256) (x1 : Reg32) (x2 : List (Option (BitVec 512))) : Codec.Statement (.loadMicrocode x0 x1 x2) := Codec.noWord rfl
theorem Codec.mcLoadEnd (x0 : Fin 256) (x1 : Reg32) (x2 : BitVec 16) : Codec.Statement (.mcLoadEnd x0 x1 x2) := Codec.noWord rfl
theorem Codec.copy (x0 : Fin 256) (x1 : Reg32) (x2 : List (Option (BitVec 512))) : Codec.Statement (.copy x0 x1 x2) := Codec.noWord rfl
theorem Codec.resultBind (x0 : Fin 256) (x1 : Reg32) : Codec.Statement (.resultBind x0 x1) := Codec.noWord rfl
theorem Codec.bindKeepStaged (x0 : Fin 256) (x1 : Reg32) : Codec.Statement (.bindKeepStaged x0 x1) := Codec.noWord rfl
theorem Codec.unbind (x0 : Fin 256) (x1 : Reg32) : Codec.Statement (.unbind x0 x1) := Codec.noWord rfl
theorem Codec.engine (x0 : Fin 256) (x1 : Reg32) : Codec.Statement (.engine x0 x1) := Codec.noWord rfl
theorem Codec.gridStart (x0 : Fin 256) (x1 : Reg32) : Codec.Statement (.gridStart x0 x1) := Codec.noWord rfl
theorem Codec.gridStop (x0 : Fin 256) (x1 : Reg32) : Codec.Statement (.gridStop x0 x1) := Codec.noWord rfl
theorem Codec.waitStopped (x0 : Fin 256) (x1 : Reg32) : Codec.Statement (.waitStopped x0 x1) := Codec.noWord rfl
theorem Codec.descTimeout (x0 : Fin 256) (x1 : Reg32) : Codec.Statement (.descTimeout x0 x1) := Codec.noWord rfl
theorem Codec.writes (x0 : Fin 256) (x1 : Reg32) : Codec.Statement (.writes x0 x1) := Codec.noWord rfl
theorem Codec.timeControlDue : Codec.Statement .timeControlDue := Codec.noWord rfl
theorem Codec.timeControlAnchor (x0 : Fin 256) (x1 : Reg32) : Codec.Statement (.timeControlAnchor x0 x1) := Codec.noWord rfl
theorem Codec.calibrate (x0 : Fin 256) (x1 : Reg32) : Codec.Statement (.calibrate x0 x1) := Codec.noWord rfl
theorem Codec.calStart (x0 : List (Option (BitVec 512))) : Codec.Statement (.calStart x0) := Codec.noWord rfl
theorem Codec.calEnd (x0 : Fin 4) (x1 : List Reg32) (x2 : Bool) (x3 : BitVec 16) (x4 : BitVec 16) (x5 : BitVec 16) (x6 : Bool) : Codec.Statement (.calEnd x0 x1 x2 x3 x4 x5 x6) := Codec.noWord rfl
theorem Codec.fuseCommit (x0 : Fin 256) (x1 : Reg32) (x2 : List (Option (BitVec 512))) : Codec.Statement (.fuseCommit x0 x1 x2) := Codec.noWord rfl
theorem Codec.fuseCommitKey (x0 : Fin 256) (x1 : Reg32) (x2 : List (Option (BitVec 512))) : Codec.Statement (.fuseCommitKey x0 x1 x2) := Codec.noWord rfl
theorem Codec.fuseWordWritten (x0 : BitVec 64) : Codec.Statement (.fuseWordWritten x0) := Codec.noWord rfl
theorem Codec.scopeArm (x0 : Fin 256) (x1 : Reg32) : Codec.Statement (.scopeArm x0 x1) := Codec.noWord rfl
theorem Codec.scopeDisarm (x0 : Fin 256) (x1 : Reg32) : Codec.Statement (.scopeDisarm x0 x1) := Codec.noWord rfl
theorem Codec.scopeForce (x0 : Fin 256) (x1 : Reg32) : Codec.Statement (.scopeForce x0 x1) := Codec.noWord rfl
theorem Codec.query (x0 : Fin 256) (x1 : Reg32) : Codec.Statement (.query x0 x1) := Codec.noWord rfl
theorem Codec.fence (x0 : Fin 256) (x1 : Reg32) : Codec.Statement (.fence x0 x1) := Codec.noWord rfl
theorem Codec.fenceDone (x0 : Fin 256) (x1 : Reg32) : Codec.Statement (.fenceDone x0 x1) := Codec.noWord rfl
theorem Codec.completionWrite (x0 : Fin 256) : Codec.Statement (.completionWrite x0) := Codec.noWord rfl
theorem Codec.irqModTime (x0 : Fin 256) : Codec.Statement (.irqModTime x0) := Codec.noWord rfl
theorem Codec.msixUnmask (x0 : Fin 64) (x1 : Reg32) : Codec.Statement (.msixUnmask x0 x1) := Codec.noWord rfl
theorem Codec.hostReset : Codec.Statement .hostReset := Codec.noWord rfl
theorem Codec.bar2Access (x0 : Bool) (x1 : BitVec 28) (x2 : Nat) (x3 : List Byte) : Codec.Statement (.bar2Access x0 x1 x2 x3) := Codec.noWord rfl
theorem Codec.flush (x0 : Fin 16) (x1 : Fin 16) (x2 : Reg32) : Codec.Statement (.flush x0 x1 x2) := Codec.noWord rfl
theorem Codec.packPacket (x0 : Fin 16) : Codec.Statement (.packPacket x0) := Codec.noWord rfl
theorem Codec.drainPacket (x0 : Fin 16) (x1 : Fin 16) : Codec.Statement (.drainPacket x0 x1) := Codec.noWord rfl
theorem Codec.memTrainingDone (x0 : BitVec 4) (x1 : Fin 6) (x2 : Fin 4) : Codec.Statement (.memTrainingDone x0 x1 x2) := Codec.noWord rfl
theorem Codec.driftTrack : Codec.Statement .driftTrack := Codec.noWord rfl
theorem Codec.scrubRead (x0 : Fin 4) (x1 : Nat) (x2 : Bool) : Codec.Statement (.scrubRead x0 x1 x2) := Codec.noWord rfl
theorem Codec.interfaceFail (x0 : Fin 4) (x1 : Bool) (x2 : Bool) : Codec.Statement (.interfaceFail x0 x1 x2) := Codec.noWord rfl
theorem Codec.eventDelivery : Codec.Statement .eventDelivery := Codec.noWord rfl
theorem Codec.evFire (x0 : Bool) (x1 : Reg32) : Codec.Statement (.evFire x0 x1) := Codec.noWord rfl
theorem Codec.tiClr (x0 : Fin 192) (x1 : Reg32) : Codec.Statement (.tiClr x0 x1) := Codec.noWord rfl
theorem Codec.trgEdge (x0 : Fin 8) (x1 : Bool) : Codec.Statement (.trgEdge x0 x1) := Codec.noWord rfl
theorem Codec.markerEnd (x0 : Fin 8) : Codec.Statement (.markerEnd x0) := Codec.noWord rfl
theorem Codec.legacyRise (x0 : Fin 8) (x1 : Bool) : Codec.Statement (.legacyRise x0 x1) := Codec.noWord rfl
theorem Codec.legacyFall (x0 : Fin 8) (x1 : Bool) : Codec.Statement (.legacyFall x0 x1) := Codec.noWord rfl
theorem Codec.unitArm (x0 : Fin 16) (x1 : Reg32) : Codec.Statement (.unitArm x0 x1) := Codec.noWord rfl
theorem Codec.unitDisarm (x0 : Fin 16) (x1 : Reg32) : Codec.Statement (.unitDisarm x0 x1) := Codec.noWord rfl
theorem Codec.unitForce (x0 : Fin 16) (x1 : Reg32) : Codec.Statement (.unitForce x0 x1) := Codec.noWord rfl
theorem Codec.scopeLine (x0 : Fin 16) (x1 x2 : Nat) : Codec.Statement (.scopeLine x0 x1 x2) := Codec.noWord rfl
theorem Codec.scopeRecordEnd (x0 : Fin 16) : Codec.Statement (.scopeRecordEnd x0) := Codec.noWord rfl
theorem Codec.deviceReset (x0 : Reg32) : Codec.Statement (.deviceReset x0) := Codec.noWord rfl
theorem Codec.powerOn : Codec.Statement .powerOn := Codec.noWord rfl
theorem Codec.coldStart : Codec.Statement .coldStart := Codec.noWord rfl
theorem Codec.perstAssert : Codec.Statement .perstAssert := Codec.noWord rfl
theorem Codec.perstDeassert (x0 : Bool) : Codec.Statement (.perstDeassert x0) := Codec.noWord rfl
theorem Codec.railFault (x0 : Fin 17) (x1 : Bool) (x2 : Bool) (x3 : BitVec 3) (x4 : BitVec 36) (x5 : Nat) : Codec.Statement (.railFault x0 x1 x2 x3 x4 x5) := Codec.noWord rfl
theorem Codec.boot (x0 : Bool) (x1 : Bool) (x2 : Bool) (x3 : Bool) (x4 : BitVec 64) (x5 : BitVec 14) (x6 : Bool) (x7 : BitVec 3) (x8 : List (BitVec 11)) : Codec.Statement (.boot x0 x1 x2 x3 x4 x5 x6 x7 x8) := Codec.noWord rfl
theorem Codec.go (x0 : Reg32) : Codec.Statement (.go x0) := Codec.noWord rfl
theorem Codec.fwCheckDone (x0 : Option (List Byte)) (x1 : Nat) : Codec.Statement (.fwCheckDone x0 x1) := Codec.noWord rfl
theorem Codec.fwReady : Codec.Statement .fwReady := Codec.noWord rfl
theorem Codec.neapReq (x0 : Reg32) : Codec.Statement (.neapReq x0) := Codec.noWord rfl
theorem Codec.readState : Codec.Statement .readState := Codec.noWord rfl
theorem Codec.readTemp : Codec.Statement .readTemp := Codec.noWord rfl
theorem Codec.wake (x0 : Bool) : Codec.Statement (.wake x0) := Codec.noWord rfl
theorem Codec.neap : Codec.Statement .neap := Codec.noWord rfl
theorem Codec.reset : Codec.Statement .reset := Codec.noWord rfl
theorem Codec.readRails : Codec.Statement .readRails := Codec.noWord rfl
theorem Codec.readLeg : Codec.Statement .readLeg := Codec.noWord rfl
theorem Codec.writeLegSw (x0 : BitVec 8) : Codec.Statement (.writeLegSw x0) := Codec.noWord rfl
theorem Codec.tempSample (x0 : Fin 24) (x1 : BitVec 11) : Codec.Statement (.tempSample x0 x1) := Codec.noWord rfl
theorem Codec.housekeeping (x0 : List (BitVec 11)) (x1 : BitVec 17) : Codec.Statement (.housekeeping x0 x1) := Codec.noWord rfl
theorem Codec.fallback : Codec.Statement .fallback := Codec.noWord rfl
theorem Codec.dwellEnd (x0 : Fin 24) : Codec.Statement (.dwellEnd x0) := Codec.noWord rfl
theorem Codec.riseEval (x0 : Fin 4) : Codec.Statement (.riseEval x0) := Codec.noWord rfl
theorem Codec.throttleStep : Codec.Statement .throttleStep := Codec.noWord rfl
theorem Codec.powerSample (x0 : BitVec 16) : Codec.Statement (.powerSample x0) := Codec.noWord rfl
theorem Codec.park (x0 : ParkRef) : Codec.Statement (.park x0) := Codec.noWord rfl
theorem Codec.harbourFail : Codec.Statement .harbourFail := Codec.noWord rfl
theorem Codec.refLoss (x0 : Bool) (x1 : Bool) : Codec.Statement (.refLoss x0 x1) := Codec.noWord rfl
theorem Codec.refRevert : Codec.Statement .refRevert := Codec.noWord rfl
theorem Codec.tileFail (x0 : Fin 4) (x1 : Bool) (x2 : Bool) (x3 : BitVec 3) (x4 : Bool) (x5 : BitVec 36) (x6 : Nat) : Codec.Statement (.tileFail x0 x1 x2 x3 x4 x5 x6) := Codec.noWord rfl
theorem Codec.snap (x0 : Reg32) : Codec.Statement (.snap x0) := Codec.noWord rfl
theorem Codec.clrAll (x0 : Reg32) : Codec.Statement (.clrAll x0) := Codec.noWord rfl
theorem Codec.bwEn (x0 : Fin 8) (x1 : Reg32) : Codec.Statement (.bwEn x0 x1) := Codec.noWord rfl
theorem Codec.bwWindow (x0 : Fin 8) : Codec.Statement (.bwWindow x0) := Codec.noWord rfl
theorem Codec.lossOfVaux : Codec.Statement .lossOfVaux := Codec.noWord rfl
theorem Codec.referenceReturn (x0 : Bool) (x1 : Bool) : Codec.Statement (.referenceReturn x0 x1) := Codec.noWord rfl
theorem Codec.frameDiscard (x0 : Rx) (x1 : BitVec 32) (x2 : Bool) : Codec.Statement (.frameDiscard x0 x1 x2) := Codec.noWord rfl
theorem Codec.badKind (x0 : Fin 256) (x1 : Reg32) : Codec.Statement (.badKind x0 x1) := Codec.noWord rfl
theorem Codec.reservedCommand (x0 : Bool) (x1 : Fin 16) (x2 : Word) (x3 : Word) (x4 : Word) (x5 : Word) : Codec.Statement (.reservedCommand x0 x1 x2 x3 x4 x5) := Codec.noWord rfl
theorem Codec.neapExit : Codec.Statement .neapExit := Codec.noWord rfl

end Sys2Proof.Laws
end

