-- ==== Sys2Proof/Tests/Slice0.lean ====
section
/-! SUPPORT. The model's own tests: commands on small states against the spec's words, an ill-formed term for each check of `Instr.wf`,
engine instruction words written out from R209, and for each statement with premises states that meet the premises of its clauses. -/

/-- The state with its body changed: a helper of the tests. -/
def Sys2Proof.Machine.State.on (s : Sys2Proof.Machine.State) (f : Sys2Proof.Machine.Body → Sys2Proof.Machine.Body) : Sys2Proof.Machine.State :=
  { s with body := f s.body }

namespace Sys2Proof.Tests

open Sys2Proof Sys2Proof.Machine

set_option Elab.async false

/-! ### States -/

/-- The state after a command; the state itself where there is none. -/
def after (i : Instr) (s : State) : State := match exec i s with | .next t => t | _ => s

/-- Reset with Tide Time and Phase Count set and some registers written. -/
def at_ (tt ph : Nat) (ws : List (Nat × Reg32)) : State :=
  { State.reset with
    clock := ⟨BitVec.ofNat 64 ph, BitVec.ofNat 96 (tt * 2 ^ 32), true, ph⟩
    body := ws.foldl (fun b w => b.rset w.1 w.2) Body.reset }

/-- Some registers of the state after a command. -/
def regsAfter (i : Instr) (s : State) (ks : List Nat) : List Nat := ks.map (fun k => ((after i s).body.rget k).toNat)

/-- An anchored device, its grid running. -/
def running (tt ph : Nat) (ws : List (Nat × Reg32)) : State := at_ tt ph ((TIDE_STATUS, 3) :: ws)

/-! ### Well-formed commands -/

theorem wf_registerWrite : (Instr.registerWrite 0x4 4 0).wf = true ∧ (Instr.registerWrite (2 ^ 24) 4 0).wf = false ∧
    (Instr.registerWrite 4 0 0).wf = false ∧ (Instr.registerWrite 0 4097 0).wf = false ∧ (Instr.registerWrite 6 1 256).wf = false ∧
    (Instr.registerWrite 6 3 255).wf = true := by decide +kernel
theorem wf_capture : (Instr.capture 0 (.chan 63)).wf = true ∧ (Instr.capture 0 (.chan 64)).wf = false ∧
    (Instr.capture 0 (.pin 8 false 0)).wf = false := by decide
theorem wf_ports : (Instr.coreEn (.dp 79) 1).wf = true ∧ (Instr.coreEn (.dp 80) 1).wf = false ∧ (Instr.coreEn (.fx 32) 1).wf = false ∧
    (Instr.coreReady (.rx 16)).wf = false ∧ (Instr.park (.cove 15)).wf = true ∧ (Instr.park (.cove 16)).wf = false ∧
    (Instr.park (.port (.dp 80))).wf = false := by decide
theorem wf_cntClr : (Instr.cntClr (2 ^ 24) 1).wf = false ∧ (Instr.cntClr 2 1).wf = false := by decide
theorem wf_controlStoreRewrite : (Instr.controlStoreRewrite 0 0 true 255).wf = true ∧ (Instr.controlStoreRewrite 0 0 true 256).wf = false ∧
    (Instr.controlStoreRewrite 0 0 false 4096).wf = false := by decide
theorem wf_blocks : ∀ row ∈ ([.bdot, .bscale, .bacc, .bcopy, .bhist, .bfly, .bemit] : List (Fin 192 → BitVec 28 → Nat → Instr)),
    (row 0 0 65536).wf = true ∧ (row 0 0 65537).wf = false ∧ (Instr.patchedOpcode 0 0 65537).wf = false := by decide
theorem wf_lengths : (Instr.pollEnd (some (List.replicate 257 0))).wf = false ∧ (Instr.bar2Access false 0 0 []).wf = false ∧
    (Instr.bar2Access false 0 4097 []).wf = false ∧ (Instr.bar2Access true 0 2 [1]).wf = false ∧
    (Instr.bar2Access true 0 1 [1]).wf = true := by decide +kernel
theorem wf_temperatures : (Instr.housekeeping (List.replicate 24 0) 0).wf = true ∧ (Instr.housekeeping [] 0).wf = false ∧
    (Instr.boot true true true true 0 0 true 0 []).wf = false ∧ (Instr.calEnd 0 (List.replicate 1025 0) false 0 0 0 false).wf = false := by
  decide +kernel

/-! ### The whole machine -/

theorem witness_StepRunsFrontCommand : step { State.reset with pending := [.pollTick, .nop 0 0] } = exec .pollTick { State.reset with pending := [.nop 0 0] } := rfl
theorem witness_EmptyQueuePassesACycle :
    (State.reset.pending = [] ∧ State.reset.clock.on = true ∧ State.reset.body.pwr.mode ≠ .entry ∧ State.reset.body.host.landings = [] ∧
      State.reset.body.host.heldWrites = []) ∧
    (let s := { State.reset with clock := { State.reset.clock with on := false } }; s.pending = [] ∧ s.clock.on = false) := by decide +kernel
/-- R24: with the reset increment of 1 ns in a core cycle, a cycle adds 2⁻⁸·2³²·2⁸ units of 2⁻³² ns: one nanosecond. -/
theorem test_cycle_adds_one_ns : ∃ t, step State.reset = .next t ∧ t.clock.tt = 2 ^ 32 ∧ t.clock.phase = 1 := by
  refine ⟨_, rfl, ?_⟩; decide +kernel
theorem witness_StepKeepsMemoryCanonical : State.reset.mem.wf ∧
    ∃ t, step { State.reset with pending := [.fuseWordWritten 0] } = .next t := by
  refine ⟨by decide +kernel, _, rfl⟩
theorem witness_OnlyAnchoringMovesTime : (Instr.shotStart ≠ .anchorInstant) ∧ ∃ t, exec .shotStart State.reset = .next t := ⟨by decide, _, rfl⟩
theorem witness_EngineWordsDecodeToThemselves :
    encodeYosum (.addi 7 (3#5 ++ 1#5 ++ 0x3FFFF#18)) = some (0x20#8 ++ 3#5 ++ 1#5 ++ 0x3FFFF#18) := by decide +kernel

/-! ### Engine instruction words, written out from R209 -/

/-- ADD G3, G1, G2 (format A). -/
theorem word_add : decodeYosum 0 0 (0x10#8 ++ 3#5 ++ 1#5 ++ 2#5 ++ 0#13) = some (.add 0 (3#5 ++ 1#5 ++ 2#5 ++ 0#13)) := by decide +kernel
/-- ADDI G3, G1, −1 (format B). -/
theorem word_addi : decodeYosum 7 0 (0x20#8 ++ 3#5 ++ 1#5 ++ 0x3FFFF#18) = some (.addi 7 (3#5 ++ 1#5 ++ 0x3FFFF#18)) := by decide +kernel
/-- LI G4, 5. -/
theorem word_li : decodeYosum 7 0 (0x30#8 ++ 4#5 ++ 5#23) = some (.li 7 (4#5 ++ 5#23)) := by decide +kernel
/-- MAC AC2, G1, G2. -/
theorem word_mac : decodeYosum 191 0 (0x40#8 ++ 0#5 ++ 1#5 ++ 2#5 ++ 0#5 ++ 2#2 ++ 0#6) = some (.mac 191 (0#5 ++ 1#5 ++ 2#5 ++ 0#5 ++ 2#2 ++ 0#6)) := by
  decide +kernel
/-- LD G5, A3 with NU (format M). -/
theorem word_ld : decodeYosum 3 0 (0x50#8 ++ 5#5 ++ 3#3 ++ 1#1 ++ 0#19) = some (.ld 3 (5#5 ++ 3#3 ++ 1#1 ++ 0#19)) := by decide +kernel
/-- BR on condition 1 to 0x100010 (format J). -/
theorem word_br : decodeYosum 3 0 (0x90#8 ++ 1#4 ++ 0x100010#24) = some (.br 3 (1#4 ++ 0x100010#24)) := by decide +kernel
theorem word_halt : decodeYosum 3 0 (0x01#8 ++ 0#28) = some (.halt 3 0) := by decide +kernel
/-- PUBLISH slot 9 from G7. -/
theorem word_publish : decodeYosum 3 0 (0x78#8 ++ 0#5 ++ 7#5 ++ 0#8 ++ 9#10) = some (.publish 3 (0#5 ++ 7#5 ++ 0#8 ++ 9#10)) := by decide +kernel
/-- No row of the opcode table gives bits. -/
theorem word_table : decodeTableWord 32 0 = none := by decide

/-! ### Setup registers -/

theorem witness_RegisterWritesAndAccessCodes :
    (regInfo 0x3FFFFC = none) ∧
    regsAfter (.registerWrite GRID_PERIOD 4 4000) (at_ 0 0 [(SHOT_LEN, 0)]) [GRID_PERIOD] = [4000] ∧
    regsAfter (.registerWrite GRID_PERIOD 4 3999) (at_ 0 0 [(SHOT_LEN, 0)]) [GRID_PERIOD, TIDE_STATUS] = [10000, 0x100] ∧
    regsAfter (.registerWrite TIDE_STATUS 4 0x100) (at_ 0 0 [(TIDE_STATUS, 0xF01)]) [TIDE_STATUS] = [0xE01] ∧
    regsAfter (.registerWrite TIDE_SET_HI 4 7) (after (.registerWrite TIDE_SET_LO 4 9) (at_ 0 0 [])) [TIDE_SET_LO, TIDE_SET_HI] = [9, 7] := by
  decide +kernel
theorem witness_PollIntervalJudged :
    regsAfter (.registerWrite POLL_INTERVAL 4 249) (at_ 0 0 []) [POLL_INTERVAL, HST_STATUS] = [1000, 0x100] ∧
    regsAfter (.registerWrite POLL_INTERVAL 4 250) (at_ 0 0 []) [POLL_INTERVAL, HST_STATUS] = [250, 0] ∧
    regsAfter (.registerWrite POLL_INTERVAL 4 1000000) (at_ 0 0 []) [POLL_INTERVAL] = [1000000] ∧
    regsAfter (.registerWrite POLL_INTERVAL 4 1000001) (at_ 0 0 []) [POLL_INTERVAL] = [1000] ∧
    (let s := (at_ 0 5 [(HST_CTL, 1)]).on (fun b => { b with host := { b.host with nextTick := some 5 } })
     s.body.rbit HST_CTL 0 = true ∧ (5 : Nat) ≤ s.clock.cyc ∧ (after .pollTick s).body.host.nextTick = some 1005) := by decide +kernel
theorem witness_CounterClears :
    regsAfter (.cntClr DEC_CTL 1) (at_ 0 0 [(PUB_COUNT, 5), (SPRING_PEAK, 3)]) [PUB_COUNT, SPRING_PEAK] = [0, 0] ∧
    regsAfter (.cntClr EV_CTL 1) (at_ 0 0 [(LOOP_COUNT, 5), (CH_COUNT 63, 2)]) [LOOP_COUNT, CH_COUNT 63] = [0, 0] ∧
    regsAfter (.cntClr FUSE_CTL 1) (at_ 0 0 [(CAL_DONE_COUNT, 5)]) [CAL_DONE_COUNT] = [0] := by decide +kernel
theorem witness_PerformanceUnit :
    ((after (.pcntHiWrite 31 2) (after (.registerWrite (PCNT_LO 31) 4 3) (at_ 0 0 []))).body.pcntOf 31 = 2 * 2 ^ 32 + 3) ∧
    (let s := (at_ 0 0 []).on (fun b => { b with pcnt := b.pcnt.put 0 31 (2 ^ 32 + 7) })
     s.body.log.snapped = false ∧ regsAfter (.snap 2) s [PSNAP_LO 31, PSNAP_HI 31, PERF_CTL] = [7, 1, 0] ∧ (after (.clrAll 4) s).body.pcntOf 31 = 0) ∧
    (let s := at_ 0 9 []
     s.body.rbit (BW_CFG 0) 10 = false ∧ regsAfter (.bwEn 0 0x408) s [BW_CFG 0, BW_MIN 0] = [0x408, 0xFFFFFFFF] ∧
     regsAfter (.bwEn 0 0x409) s [BW_CFG 0, PERF_STATUS] = [0, 0x100] ∧
     regsAfter (.bwEn 0 0x008) (after (.bwEn 0 0x408) s) [BW_CFG 0] = [8]) ∧
    (let s := (at_ 0 128 [(BW_CFG 7, 0x400), (BW_WIN 7, 64), (TIDE_STATUS, 1), (BW_MIN 7, 0xFFFFFFFF)]).on
        (fun b => { b with bw := b.bw.put ⟨0, 0, false, 0, none⟩ 7 ⟨12, 3, false, 64, none⟩ })
     s.body.rbit (BW_CFG 7) 10 = true ∧ s.body.anchored = true ∧ s.clock.phase.toNat % 64 = 0 ∧
     regsAfter (.bwWindow 7) s [BW_LAST 7, BW_PEAK 7, BW_MIN 7, BW_WINDOWS 7] = [12, 12, 12, 1]) := by decide +kernel
theorem test_reads_snapshot :
    regsAfter .tideNowLoRead (at_ (2 ^ 32 + 5) (2 ^ 32 + 6) []) [TIDE_NOW_LO, TIDE_NOW_HI, PHASE_NOW_LO, PHASE_NOW_HI] = [5, 1, 6, 1] ∧
    (let s := (at_ 0 0 []).on (fun b => { b with pcnt := b.pcnt.put 0 3 (2 ^ 32 + 7) })
     regsAfter (.pcntLoRead 3) s [PCNT_HI 3] = [1] ∧ (after (.pcntLoRead 3) s).body.out = [.regValue (PCNT_LO 3) 7]) := by decide +kernel

/-! ### Tide Time, the shot grid, alarms, captures -/

theorem witness_TideIncrementJudged :
    regsAfter (.tideIncWrite 0x00FF0000) (at_ 0 0 []) [TIDE_INC, TIDE_STATUS] = [0x00FF0000, 0x10] ∧
    regsAfter (.tideIncWrite 0x01010000) (at_ 0 0 []) [TIDE_INC] = [0x01010000] ∧
    regsAfter (.tideIncWrite 0x01010001) (at_ 0 0 []) [TIDE_INC, TIDE_STATUS] = [0x01000000, 0x100] ∧
    regsAfter (.tideIncWrite 0x00FEFFFF) (at_ 0 0 []) [TIDE_INC, TIDE_STATUS] = [0x01000000, 0x100] ∧
    regsAfter (.tideIncWrite 0x01000001) (at_ 0 0 [(TIDE_CTL, 1)]) [TIDE_INC, TIDE_STATUS] = [0x01000000, 0x100] := by decide +kernel
theorem witness_AnchoringAndItsInstant :
    (let s := at_ 0 10 [(TIDE_STATUS, 1)]
     s.body.gridRun = false ∧ s.body.comps.entries = [] ∧ s.body.rcv.entries = [] ∧ s.body.grid.anchorAt = none ∧ s.body.ringEn = false ∧
     (after (.anchor 2) s).body.grid.anchorAt = some 1000010) ∧
    (let s := at_ 0 10 [(TIDE_STATUS, 1), (RING_CTL, 0x53), (RING_STATUS, 0x10)]
     s.body.ringEn = true ∧ s.body.rbit RING_STATUS 4 = true ∧ (after (.anchor 2) s).body.grid.anchorAt = some 1000010 ∧
     (after (.anchor 2) s).body.ring.txA.length = 1 ∧
     regsAfter (.anchor 2) (at_ 0 10 [(RING_CTL, 0x43)]) [TIDE_STATUS] = [0x100]) ∧
    regsAfter (.anchor 2) (running 0 10 []) [TIDE_STATUS] = [0x103] ∧
    ((at_ 0 10 []).body.anchorDue (at_ 0 10 []).clock = false) ∧
    (let s := (at_ 50 10 [(TIDE_SET_LO, 9), (TIDE_STATUS, 1)]).on (fun b => { b with grid := { b.grid with anchorAt := some 10 } })
     s.body.anchorDue s.clock = true ∧ s.body.grid.anchorSet = none ∧ (after .anchorInstant s).clock.tt = 9 * 2 ^ 32 ∧
     (after .anchorInstant s).clock.phase = 0 ∧ (after .anchorInstant s).body.anchored = true) := by decide +kernel
theorem witness_GridCommands :
    (let s := at_ 96001 0 [(TIDE_STATUS, 1), (GRID_PERIOD, 100000), (SHOT_LEN, 1000)]
     s.body.anchored = true ∧ s.body.gridRun = false ∧ 0 < (s.body.rget GRID_PERIOD).toNat ∧ (after (.gridCmdStart 1) s).body.grid.next = 200000) ∧
    (let s := at_ 96000 0 [(TIDE_STATUS, 1), (GRID_PERIOD, 100000), (SHOT_LEN, 1000)]
     (after (.gridCmdStart 1) s).body.grid.next = 100000) ∧
    regsAfter (.gridCmdStart 1) (at_ 0 0 []) [TIDE_STATUS] = [0x100] ∧ regsAfter (.gridCmdStart 3) (at_ 0 0 [(TIDE_STATUS, 1)]) [TIDE_STATUS] = [0x101] ∧
    ((running 0 0 []).body.gridRun = true ∧ (after (.gridCmdStop 2) (running 0 0 [])).body.grid.stopping = true) ∧
    (let s := (running 0 7 []).on (fun b => { b with grid := { b.grid with win := .slack, stopping := true } })
     s.body.gridRun = true ∧ s.body.grid.ann = false ∧ s.body.quiet s.clock = true ∧ (after .finalCommit s).body.gridRun = false) ∧
    (let s := (running 0 7 []).on (fun b => { b with grid := { b.grid with win := .slack, stopping := true, ann := true } })
     (after .finalCommit s).body.gridRun = true) := by decide +kernel
/-- A running grid with the next boundary at 10,000 ns. -/
def gridAt (tt : Nat) (f : Grid → Grid) : State :=
  (running tt tt [(GRID_PERIOD, 20000), (SHOT_LEN, 5000)]).on (fun b => { b with grid := f { b.grid with win := .slack, next := 10000, bound := 0 } })
theorem witness_GridBoundaries :
    ((gridAt 7000 id).body.ringEn = false ∧ (gridAt 7000 id).body.gridRun = true ∧ (gridAt 7000 id).body.grid.stopping = false ∧
      (gridAt 7000 id).body.grid.next ≤ 7000 + 3000 ∧ (after .announceSend (gridAt 7000 id)).body.grid.ann = true) ∧
    after .announceSend (gridAt 6999 id) = gridAt 6999 id ∧
    (let s := gridAt 8000 ({ · with ann := true })
     s.body.grid.next ≤ 8000 + 2000 ∧ s.body.grid.horizon = false ∧ s.body.holdReasons.2 = 0 ∧ (after .slackHorizon s).body.grid.horizon = true) ∧
    (after .slackHorizon (gridAt 7999 ({ · with ann := true }))).body.grid.horizon = false ∧
    (let s := gridAt 9000 ({ · with ann := true, horizon := true })
     s.body.grid.verdict = none ∧ s.body.grid.next ≤ 9000 + 1000 ∧ (after .verdictSend s).body.grid.verdict = some false) ∧
    (after .verdictSend (gridAt 8999 ({ · with ann := true, horizon := true }))).body.grid.verdict = none ∧
    (let s := gridAt 9936 ({ · with ann := true, horizon := true })
     s.body.grid.next ≤ 9936 + 64 ∧ (after .verdictMiss s).body.grid.verdict = some true ∧ regsAfter .verdictMiss s [TIDE_STATUS] = [0x803]) ∧
    (after .verdictMiss (gridAt 9935 ({ · with ann := true, horizon := true }))).body.grid.verdict = none ∧
    (let s := (gridAt 9936 id).on (fun b => b.rset RING_CTL 0x43)
     s.body.ringEn = true ∧ s.body.rbit RING_STATUS 4 = false ∧ s.body.grid.ann = false ∧ (after .verdictMiss s).body.grid.verdict = some true) := by
  decide +kernel
theorem witness_ShotStarts :
    (let s := gridAt 10000 ({ · with ann := true, horizon := true, verdict := some false })
     s.body.gridRun = true ∧ s.body.grid.win ≠ .shot ∧ s.body.tideBreak = false ∧ s.body.oddTwin 8 = false ∧ s.body.engState 8 = 0 ∧
     (after .shotStart s).body.grid.win = .shot ∧ (after .shotStart s).body.epoch = 1 ∧ (after .shotStart s).body.grid.next = 30000) ∧
    (let s := (gridAt 10000 ({ · with ann := true, horizon := true, verdict := some false })).on
        (fun b => (b.rset (ENG_STATUS 8) 1).rset (ENG_ENTRY 8) 0x100020)
     s.body.engState 8 = 1 ∧ s.body.oddTwin 8 = false ∧ (∀ n : Fin 16, s.body.guarded n = false) ∧
     ((after .shotStart s).body.eng 8).pc = 0x100020 ∧ (after .shotStart s).body.engState 8 = 2) ∧
    (let s := gridAt 9999 ({ · with ann := true, horizon := true, verdict := some false })
     after .shotStart s = s) := by decide +kernel
theorem witness_SlackWindow :
    (let s := gridAt 5000 ({ · with win := .shot, shotFin := 5000 })
     s.body.rbit TIDE_CTL 15 = false ∧ (after .slackStart s).body.grid.win = .slack) ∧
    (let s := gridAt 4999 ({ · with win := .shot, shotFin := 5000 }); after .slackStart s = s) ∧
    (let s := (gridAt 7000 ({ · with done := false })).on (fun b => (b.rset TIDE_INC 0x01000001).rset TIDE_STATUS 0x13)
     s.body.quiet s.clock = true ∧ 7000 + 3000 ≤ s.body.grid.next ∧ s.body.rbit TIDE_STATUS 4 = true ∧ s.body.incAt ≠ some s.clock.cyc ∧
     (after .slackCommit s).body.grid.done = true ∧ regsAfter .slackCommit s [TIDE_INC_ACT] = [0x01000001]) ∧
    (let s := gridAt 6000 ({ · with done := false })
     s.body.rbit TIDE_STATUS 4 = false ∧ regsAfter .slackCommit s [TIDE_INC_ACT] = [0x01000000]) ∧
    (let s := gridAt 6000 ({ · with done := true }); after .slackCommit s = s) ∧
    (let s := gridAt 7000 ({ · with done := false })
     s.body.grid.stopping = false ∧ s.body.grid.next ≤ 7000 + 3000 ∧ regsAfter .slackOverrun s [TIDE_STATUS] = [0x203]) ∧
    (let s := gridAt 6999 ({ · with done := false }); after .slackOverrun s = s) := by decide +kernel
theorem witness_AlarmsArmAndFire :
    ((at_ 100 0 []).body.alarmDue (at_ 100 0 []).clock 31 = false ∧
      regsAfter (.almTargetHiWrite 31 0) (after (.registerWrite (ALM_TARGET_LO 31) 4 100) (at_ 100 0 [(ALM_CTL 31, 1)])) [ALM_CTL 31, ALM_TARGET_LO 31] =
        [0x03000001, 100] ∧
      regsAfter (.almTargetHiWrite 31 0) (after (.registerWrite (ALM_TARGET_LO 31) 4 101) (at_ 100 0 [(ALM_CTL 31, 1)])) [ALM_CTL 31] = [0x01000001]) ∧
    (let s := at_ 100 0 [(ALM_CTL 0, 0x01000001), (ALM_TARGET_LO 0, 100)]
     s.body.alarmDue s.clock 0 = true ∧ regsAfter (.alarmFire 0) s [ALM_CTL 0] = [1]) ∧
    (let s := at_ 99 0 [(ALM_CTL 0, 0x01000001), (ALM_TARGET_LO 0, 100)]
     s.body.alarmDue s.clock 0 = false ∧ after (.alarmFire 0) s = s) ∧
    (let s := at_ 130 0 [(ALM_CTL 0, 0x01000001), (ALM_TARGET_LO 0, 100), (ALM_PERIOD 0, 10)]
     s.body.alarmDue s.clock 0 = true ∧ regsAfter (.alarmFire 0) s [ALM_CTL 0, ALM_TARGET_LO 0] = [0x05000001, 140]) := by decide +kernel
theorem witness_CapturesKeepTheFirst :
    (let s := (at_ 7 6 [(CAP_CTL 15, 0x000001F9)]).on (fun b => { b with log := { b.log with delivered := [(63, 0)] } })
     s.body.captures 15 (.chan 63) = true ∧ s.body.captures 15 (.chan 62) = false ∧
     regsAfter (.capture 15 (.chan 63)) s [CAP_CTL 15, CAP_TT_LO 15, CAP_PC_LO 15] = [0x000101F9, 7, 6] ∧
     (let t := after (.capture 15 (.chan 63)) s
      t.body.captures 15 (.chan 63) = true ∧ regsAfter (.capture 15 (.chan 63)) t [CAP_CTL 15] = [0x000301F9] ∧
      t.body.log.capMiss.get none 15 = some (0, false, false) ∧ regsAfter (.ack 15 0x800001F9) t [CAP_CTL 15] = [0x000101F9] ∧
      regsAfter (.ack 15 0x800001F9) (after (.capture 15 (.chan 63)) t) [CAP_CTL 15] = [0x000301F9] ∧
      regsAfter (.ack 15 0x200F9) (after (.capture 15 (.chan 63)) t) [CAP_CTL 15] = [0x000300F9] ∧
      (let u := t.on (fun b => { b with log := .empty })
       u.body.log.capMiss.get none 15 = none ∧ regsAfter (.ack 15 0x800001F9) u [CAP_CTL 15] = [0x000001F9]))) ∧
    regsAfter (.ack 15 6) (at_ 7 6 []) [TIDE_STATUS] = [0x100] := by decide +kernel
theorem witness_ConverterCores :
    (let s := at_ 0 100 [(BOOT_STATUS, 5)]
     (1 : Reg32) &&& 0xF2 = s.body.rget (PORT_CTL 79) &&& 0xF2 ∧ s.body.fwReady = true ∧ s.body.portHeld (.dp 79) = false ∧
     s.body.calOn (PortRef.dp 79).cls (PortRef.dp 79).idx = false ∧ (s.body.comp 79).core = ⟨none, false⟩ ∧ s.body.thm.parked = [] ∧
     regsAfter (.coreEn (.dp 79) 1) s [PORT_CTL 79, PORT_STATUS 79] = [1, 5] ∧ (after (.coreEn (.dp 79) 1) s).body.core (.dp 79) = ⟨some 100, false⟩) ∧
    (let s := at_ 0 20100 [(PORT_CTL 79, 1), (PORT_STATUS 79, 1)]
     let s := s.on (fun b => b.setComp 79 { b.comp 79 with core := ⟨some 100, false⟩ })
     regsAfter (.coreReady (.dp 79)) s [PORT_STATUS 79] = [3] ∧
     regsAfter (.coreReady (.dp 79)) { s with clock := { s.clock with cyc := 20099 } } [PORT_STATUS 79] = [1] ∧
     s.body.gridRun = false ∧ regsAfter (.coreEn (.dp 79) 0) s [PORT_CTL 79, PORT_STATUS 79] = [0, 0] ∧
     regsAfter (.coreEn (.dp 79) 0) (s.on (fun b => b.rset TIDE_STATUS 3)) [PORT_CTL 79, PORT_STATUS 79] = [0, 1]) ∧
    (let s := at_ 0 100 [(BOOT_STATUS, 5)]
     s.body.portHeld (.fx 31) = false ∧ s.body.core (.fx 31) = ⟨none, false⟩ ∧ (after (.coreEn (.fx 31) 1) s).body.core (.fx 31) = ⟨some 100, false⟩ ∧
     s.body.portHeld (.rx 15) = false ∧ (after (.coreEn (.rx 15) (s.body.rget (PortRef.rx 15).ctl &&& 0xF01FE ||| 1)) s).body.core (.rx 15) = ⟨some 100, false⟩ ∧
     (let t := { after (.coreEn (.fx 31) 1) s with clock := { s.clock with cyc := 20100 } }
      regsAfter (.coreReady (.fx 31)) t [FLX_STATUS 31] = [7])) ∧
    (let s := at_ 0 100 [(BOOT_STATUS, 5), (FLT_STATUS, 0x10000)]
     s.body.portHeld (.dp 0) = true ∧ regsAfter (.coreEn (.dp 0) 1) s [PORT_STATUS 0] = [0x104]) := by decide +kernel

/-! ### The Tide Ring -/

/-- Device 3 of a ring at Tide Time and cycle `n`, device 1 its known Lighthouse. -/
def onRing (n : Nat) (ws : List (Nat × Reg32)) : State :=
  (at_ n n ([(RING_CTL, 0x43), (RING_STATUS, 0x100003)] ++ ws)).on (fun b => { b with ring := { b.ring with lhKnown := true } })
/-- A broadcast of device 1 that arrives on ring A. -/
def fromLh (arg : BitVec 12) (d1 d2 : BitVec 64) (d3 : BitVec 32) : Rx := ⟨false, ⟨0, 1, 0, true, false, false, 0, 0, 5, arg, d1, d2, d3⟩, 0⟩

theorem witness_RingSends :
    (let s := onRing 5000 [(SYNC_CFG, 1)]
     s.body.canSend = true ∧ s.body.rbit RING_STATUS 3 = false ∧ (s.body.sendBoth 1 0 true 0 0 0 0).ring.txA.length = 1 ∧
     s.body.gridRun = false ∧ s.body.ring.lastReqA + 1000 * 1 ≤ 5000 ∧ (after (.delayReqSend false) s).body.ring.txA.length = 1) ∧
    (let s := onRing 999 [(SYNC_CFG, 1)]; after (.delayReqSend false) s = s) ∧
    (at_ 0 0 []).body.canSend = false ∧
    ([] : List TxEntry).Pairwise (fun x y => frameClass x.frame.type.toNat ≤ frameClass y.frame.type.toNat) ∧
    (let s := onRing 1000 [(SYNC_CFG, 1), (RING_STATUS, 0x300010)]
     s.body.ringEn = true ∧ s.body.rbit RING_STATUS 4 = true ∧ s.body.ring.lastTimeSent + 1000 ≤ 1000 ∧ s.body.nearAnnounce s.clock = false ∧
     (after .timeSend s).body.ring.lastTimeSent = 1000) ∧
    (let s := (onRing 1000 [(TIDE_STATUS, 3), (RING_STATUS, 0x300010)]).on (fun b => { b with grid := { b.grid with win := .slack, shotFin := 900 } })
     s.body.gridRun = true ∧ s.body.ring.lastReqA < s.body.grid.shotFin ∧ (after (.delayReqSend false) s).body.ring.lastReqA = 1000 ∧
     s.body.ring.lastLoop < s.body.grid.shotFin ∧ s.body.rbit RING_STATUS 3 = false ∧ s.body.ring.status.entries = [] ∧ (after .loopSend s).body.ring.txA.length = 1) := by decide +kernel

theorem witness_TimeFrames :
    (let rx := fromLh 0 992 0 1000
     let s := onRing 1000 [(SERVO_CFG, 0x80000)]
     s.body.ringEn = true ∧ rx.frame.src.toNat ≠ s.body.devId ∧ rx.frame.term = (s.body.rget RING_STATUS).extractLsb' 24 8 ∧
     s.body.seenBefore s.clock (rx.typed 1) = none ∧ s.body.rbit RING_STATUS 4 = false ∧
     rx.frame.src = (s.body.rget RING_STATUS).extractLsb' 20 4 ∧ s.body.tideBreak = false ∧
     regsAfter (.timeFrame rx) s [TIME_OFFSET] = [128] ∧ (after (.timeFrame rx) s).body.rbit RING_STATUS 5 = true ∧
     (after (.timeFrame rx) s).body.ring.txA.length = 1) ∧
    (let rx := fromLh 1 0 0 0
     let s := onRing 1001 [(TIDE_STATUS, 1)]
     s.body.anchored = true ∧ (after (.timeFrame rx) s).body.tideBreak = true) ∧
    (let rx := fromLh 1 0 0 1000
     (after (.timeFrame rx) (onRing 1000 [(TIDE_STATUS, 1)])).body.tideBreak = false) ∧
    (let rx := fromLh 0 0 0 0
     (after (.delayReq rx) (onRing 1000 [])).body.ring.txB.length = 1) ∧
    (let rx := fromLh 0 7 0 0
     let s := (onRing 1000 []).on (fun b => { b with ring := { b.ring with reqB := some (7, some 15900) } })
     s.body.ring.reqB = some (rx.frame.d1.extractLsb' 0 16, some 15900) ∧ (after (.delayResp rx) s).body.ring.rttUp = [100]) ∧
    (let rx : Rx := { fromLh 0 7 0 0 with ringB := true, frame := { (fromLh 0 7 0 0).frame with src := 3 } }
     let s := (onRing 1000 []).on (fun b => { b with ring := { b.ring with loopDepB := some 15900, loopA := some (130, 10) } })
     rx.frame.src.toNat = s.body.devId ∧ regsAfter (.loopFrame rx) s [LOOP_ASYM] = [20]) ∧
    (let s := (onRing 5000 [(TIDE_CTL, 1), (SERVO_CFG, 0x8000)]).on (fun b => { b with ring := { b.ring with offs := [8, 8] } })
     s.body.ring.offs.sum.natAbs ≤ 8 * 2 ∧ s.body.rbit RING_STATUS 6 = false ∧ regsAfter .servoStage s [TIDE_INC, TIDE_STATUS] = [0x01000000, 0x10] ∧
     after .servoStage { s with clock := { s.clock with cyc := 4999 } } = { s with clock := { s.clock with cyc := 4999 } }) ∧
    (let s := onRing 1000 [(TIDE_CTL, 1)]; after .servoStage s = s) ∧
    (let rx := { fromLh 0 992 0 1000 with ringB := true }
     let s := onRing 1000 [(SERVO_CFG, 0x80000)]
     let t := after (.timeFrame rx) s
     t.body.ring.timeHeld.length = 1 ∧ t.body.ring.offs = [] ∧ t.body.seenBefore t.clock ((fromLh 0 992 0 1000).typed 1) ≠ none ∧
     regsAfter (.timeFrame (fromLh 0 991 0 1000)) t [TIME_OFFSET] = [144] ∧ (after (.timeFrame (fromLh 0 991 0 1000)) t).body.ring.timeHeld = [] ∧
     (after (.timeFrame (fromLh 0 991 0 1000)) t).body.ring.offs = [144]) ∧
    (let rx := fromLh 0 0 0 0
     rx.frame.crc + 1 ≠ rx.frame.crc ∧ (onRing 0 []).body.ringEn = true ∧
     regsAfter (.frameDiscard rx (rx.frame.crc + 1) true) (onRing 0 [(CRC_ERR_A, 0xFFFFFFFF)]) [CRC_ERR_A] = [0xFFFFFFFF] ∧
     regsAfter (.frameDiscard rx rx.frame.crc false) (onRing 0 []) [FRAME_DROP] = [1]) := by decide +kernel

/-- A wrapped device whose ring-A input has been back in lock for 1 ms. -/
def mended (ws : List (Nat × Reg32)) : State :=
  (onRing 1000000 ((RING_STATUS, 0x9) :: ws)).on (fun b => { b with ring := { b.ring with brokenA := true } })
/-- With the far end in lock as long (R76: that device's own state) the device unwraps, at once or at the next commit point. -/
theorem witness_Unwrap (h : Config.farLock false 1000000 = true) :
    (after .unwrap (mended [])).body.rbit RING_STATUS 3 = false ∧ (after .unwrap (mended [(TIDE_STATUS, 3)])).body.ring.unwrapStaged = true := by
  have a : (mended []).body.unwrap (mended []).clock = (mended []).body.unwrapNow.freeze (mended []).clock := by
    have hc : (mended []).clock.cyc = 1000000 := by decide +kernel
    unfold Body.unwrap
    simp only [hc, h]
    rw [if_pos (by decide +kernel), if_neg (by decide +kernel)]
  have b : (mended [(TIDE_STATUS, 3)]).body.unwrap (mended [(TIDE_STATUS, 3)]).clock =
      (let b := (mended [(TIDE_STATUS, 3)]).body; { b with ring := { b.ring with unwrapStaged := true } }) := by
    have hc : (mended [(TIDE_STATUS, 3)]).clock.cyc = 1000000 := by decide +kernel
    unfold Body.unwrap
    simp only [hc, h]
    rw [if_pos (by decide +kernel), if_pos (by decide +kernel)]
  refine ⟨?_, ?_⟩
  · change ((mended []).body.unwrap (mended []).clock).rbit RING_STATUS 3 = false
    rw [a]; decide +kernel
  · change ((mended [(TIDE_STATUS, 3)]).body.unwrap (mended [(TIDE_STATUS, 3)]).clock).ring.unwrapStaged = true
    rw [b]
theorem witness_UnwrapPremises :
    (mended []).body.rbit RING_STATUS 3 = true ∧ (mended []).body.ring.brokenA = true ∧ (mended []).body.ring.brokenB = false ∧
    (mended []).body.rbit RING_STATUS 0 = true ∧ (mended []).body.ring.lockSinceA + 1000000 ≤ (mended []).clock.cyc ∧
    (mended []).body.gridRun = false ∧ (mended [(TIDE_STATUS, 3)]).body.gridRun = true := by decide +kernel
theorem witness_RingControl :
    ((after (.linkUp true) (onRing 9 [(RING_STATUS, 0)])).body.rbit RING_STATUS 1 = true) ∧
    (let s := onRing 9 [(RING_CTL, 0x143)]
     (after (.ringBreak false) s).body.rbit RING_STATUS 0 = false ∧ (after (.ringBreak false) s).body.rbit RING_STATUS 3 = true) ∧
    (after (.ringBreak false) (at_ 0 0 []) = at_ 0 0 []) ∧
    (after .unwrap (onRing 9 [(RING_STATUS, 1)]) = onRing 9 [(RING_STATUS, 1)]) ∧
    (let s := (onRing 0 [(ASYM_UP, 0xFFFF)]).on (fun b => { b with ring := { b.ring with newUp := 8, newDn := 8 } })
     s.body.asymMismatch = false ∧ (after (.asymConfirm 1) s).body.ring.useUp = -1) ∧
    (let s := (onRing 0 []).on (fun b => { b with ring := { b.ring with nbUp := some 1 } })
     s.body.asymMismatch = true ∧ (after (.asymConfirm 1) s).body.rbit RING_STATUS 8 = true) ∧
    (let s := at_ 0 0 []
     s.body.ringEn = false ∧ (after (.ringEn 0x55) s).body.rbit RING_STATUS 4 = true ∧ regsAfter (.ringEn 0x55) s [RING_CTL] = [0x55] ∧
     (after (.ringEn 0x70) s).body.rbit RING_STATUS 8 = true) ∧
    (let s := (onRing 0 []).on (fun b => { b with ring := { b.ring with rttUp := [1], newUp := 1 } })
     (0x243 : Reg32) &&& 0x1FF = s.body.rget RING_CTL &&& 0x1FF ∧ (after (.remeasure 0x243) s).body.ring.rttUp = []) ∧
    (let s := onRing 1000 [(RING_CTL, 0x63), (SYNC_CFG, 0x100), (TIDE_STATUS, 1)]
     s.body.role = 2 ∧ s.body.ring.lastLh + 1000 * 1 ≤ 1000 ∧ s.body.anchored = true ∧ (after .lhSilent s).body.rbit RING_STATUS 4 = true) := by
  decide +kernel

/-- The body after acceptance, for a frame of a given TYPE. -/
def heard (rx : Rx) (ty : BitVec 4) (s : State) : Body := (s.body.accept s.clock (rx.typed ty) false).body

theorem witness_RingProtocolFrames :
    (let rx := fromLh 0 20000 (1#16 ++ 30000#32 ++ 0#16) 6000
     let s := onRing 1000 [(TIDE_STATUS, 3)]
     (s.body.accept s.clock (rx.typed 5) false).deliver = true ∧ (heard rx 5 s).fromLh (rx.typed 5).frame = true ∧
     (heard rx 5 s).actingLh = false ∧ (heard rx 5 s).gridRun = true ∧ ((heard rx 5 s).epoch + 1) % 65536 = 1 ∧
     (after (.announce rx) s).body.grid.next = 20000 ∧ regsAfter (.announce rx) s [GRID_MIRROR_PERIOD, GRID_MIRROR_SHOTLEN] = [30000, 6000]) ∧
    (let rx := fromLh 0 20000 (0#16 ++ 2#16 ++ 2#4 ++ 0#28) 0
     let s := (onRing 1000 [(TIDE_STATUS, 3), (RING_STATUS, 0x300010)]).on (fun b => { b with grid := { b.grid with ann := true, next := 20000 } })
     (s.body.accept s.clock (rx.typed 6) false).deliver = true ∧ (s.body.accept s.clock (rx.typed 6) false).body.actingLh = true ∧
     (after (.holdVote rx) s).body.grid.voteMask = 2) ∧
    (let s := (onRing 1000 [(TIDE_STATUS, 3)]).on (fun b => { b with grid := { b.grid with ann := true, next := 20000 } })
     (heard (fromLh 0 20000 0 0) 7 s).grid.ann = true ∧ (heard (fromLh 0 20000 0 0) 7 s).grid.verdict = none ∧
     (after (.verdict (fromLh 0 20000 0 0)) s).body.grid.verdict = some false ∧
     (after (.verdict (fromLh 1 20000 (0#16 ++ 5#16 ++ 0#32) 0)) s).body.grid.verdict = some true ∧
     regsAfter (.verdict (fromLh 1 20000 (0#16 ++ 5#16 ++ 0#32) 0)) s [HOLD_LAST] = [5] ∧
     (after (.verdict (fromLh 0 20000 0 0)) (s.on (fun b => { b with grid := { b.grid with voted := 1 } }))).body.rbit RING_STATUS 17 = true) ∧
    (let rx := fromLh 1 (4#16 ++ 100#36 ++ 0#12) (9#10 ++ 7#8 ++ 0#46) 0
     let s := (onRing 1000 []).on (fun b => { b with ring := { b.ring with status := b.ring.status.put none 1 (some 0) } })
     (∃ e ∈ (heard rx 8 s).ring.status.entries, e.1 = 1) ∧
     ((after (.decisionFrame rx) s).body.fab.mirror.get .reset 1033).value = 7 ∧ (heard rx 8 s).importFree false = true ∧
     (let t := after (.decisionFrame rx) s
      let rx2 : Rx := { rx with frame := { rx.frame with seq := 6, d2 := 9#10 ++ 8#8 ++ 0#46 } }
      (heard rx2 8 t).importFree false = false ∧ (after (.decisionFrame rx2) t).body.fab.imports.length = 1 ∧
      ((after (.decisionFrame rx2) t).body.fab.mirror.get .reset 1033).value = 7)) ∧
    (let rx := fromLh 0 1 (63#6 ++ 0#58) 0
     let s := onRing 1000 [(EV_IMPORT_HI, 0x80000000)]
     (after (.eventFrame rx) s).body.evt.flight.length = 1 ∧ (after (.eventFrame rx) (onRing 1000 [])).body.evt.flight = []) ∧
    (let rx := fromLh 0 3 0 9
     let s := onRing 1000 []
     (after (.anchorFrame rx) s).body.grid.anchorSet = some (3#64 ++ 9#32)) ∧
    (let rx : Rx := { fromLh 0 0 0 0 with frame := { (fromLh 0 0 0 0).frame with term := 1, src := 2 } }
     let s := onRing 1000 []
     (s.body.accept s.clock (rx.typed 0xB) false).deliver = true ∧
     ((after (.takeoverFrame rx) s).body.rget RING_STATUS).extractLsb' 20 4 = 2#4 ∧
     ((after (.takeoverFrame rx) s).body.rget RING_STATUS).extractLsb' 24 8 = 1#8) ∧
    (let rx := fromLh 0 (0#11 ++ 7#5 ++ 0#48) 0 0
     (after (.linkFrame rx) (onRing 1000 [])).body.ring.status.get none 1 = some 7) := by decide +kernel

/-! ### Drive, probe, flux and bias outputs -/

/-- Words 1 and 2 of a pulse command: OP, tone slot, PORT, length of a D or P pulse. -/
def pw1 (op slot port : Nat) : Word := BitVec.ofNat 4 op ++ 0#4 ++ BitVec.ofNat 4 slot ++ BitVec.ofNat 4 port ++ 0#20
def pw2 (len : Nat) : Word := 0#5 ++ BitVec.ofNat 16 len ++ 0#15

theorem witness_PulseCommandsEnter :
    (let s := at_ 1000 1000 [(TIDE_STATUS, 1)]
     s.body.targets 0 0 = [0] ∧ (s.body.comp 0).queue.length < 256 ∧
     s.body.firstFail s.clock [0] 1040 1040 (pw1 1 3 0) (pw2 4) 0 = none ∧
     ((after (.pulse 0 1040 (pw1 1 3 0) (pw2 4) 0) s).body.comp 0).queue = [⟨1040, 0, 3, 4, 1040, pw1 1 3 0, pw2 4, 0, .queued⟩] ∧
     ((after (.pulse 0 1040 (pw1 1 3 0) (pw2 4) 0) s).body.comp 0).horizon 3 = ⟨16640, 16704⟩ ∧
     s.body.firstFail s.clock [0] 1039 1039 (pw1 1 3 0) (pw2 4) 0 = some 0 ∧ s.body.check1 0 (pw1 1 3 0) (pw2 4) 0 = true ∧
     s.body.waitingArm 0 3 = none ∧
     regsAfter (.pulse 0 1039 (pw1 1 3 0) (pw2 4) 0) s [SHOT_FLAGS 0, SHOT_FLAGS 0 + 4, SHOT_FLAGS 0 + 8, PORT_STATUS 0] = [1, 1, 1, 0x10004] ∧
     s.body.firstFail s.clock [0] 1040 1040 (pw1 1 4 0) (pw2 4) 0 = some 5 ∧
     s.body.targets 0 7 = [] ∧ regsAfter (.pulse 0 1040 (pw1 1 0 7) 0 0) s [BAD_ISSUE_COUNT 0] = [1]) ∧
    (let s := (at_ 1000 1000 [(TIDE_STATUS, 1)]).on (fun b => b.setComp 0 { b.comp 0 with queue := List.replicate 256 ⟨2000, 0, 1, 1, 0, 0, 0, 0, .queued⟩ })
     (256 ≤ (s.body.comp 0).queue.length) ∧ after (.pulse 0 1040 (pw1 1 3 0) (pw2 4) 0) s = s) := by decide +kernel

/-- One queued command on a port. -/
def queued (q tt : Nat) (x : PulseCmd) (ws : List (Nat × Reg32)) : State :=
  (at_ tt tt ws).on (fun b => b.setComp q { b.comp q with queue := [x] })

theorem witness_QueuedCommandsFire :
    (let x : PulseCmd := ⟨50, 0, 2, 0, 50, pw1 5 2 0, 0, 0x3FFFF, .queued⟩
     (queued 7 50 x []).body.unfired 7 2 = [x] ∧ regsAfter (.slotUpdate 7 2) (queued 7 50 x []) [SLOT_FRAME 7 2] = [0x3FFFF] ∧
     after (.slotUpdate 7 2) (queued 7 49 x []) = queued 7 49 x []) ∧
    (let x : PulseCmd := ⟨50, 0, 2, 0, 50, pw1 6 2 0, 0, 0x3FFFF, .queued⟩
     regsAfter (.slotUpdate 7 2) (queued 7 50 x [(SLOT_FRAME 7 2, 1)]) [SLOT_FRAME 7 2] = [0]) ∧
    (let x : PulseCmd := ⟨50, 15, 2, 4, 50, pw1 1 2 0, pw2 4, 0, .queued⟩
     (queued 7 50 x []).body.fireDue (queued 7 50 x []).clock 16 50 15 = true ∧ (queued 7 50 x []).body.inSlack 50 = false ∧
     ((after (.pulseStart 7 2) (queued 7 50 x [(PORT_STATUS 7, 2)])).body.comp 7).run.length = 1 ∧
     regsAfter (.pulseStart 7 2) (queued 7 50 x []) [SHOT_FLAGS 7] = [0x80] ∧
     (queued 7 49 x []).body.fireDue (queued 7 49 x []).clock 16 50 15 = false) ∧
    (let x : PulseCmd := ⟨50, 0, 2, 4, 50, pw1 1 2 0, pw2 4, 0, .queued⟩
     let s := (queued 7 50 x [(TIDE_STATUS, 3), (SHOT_LEN, 10)]).on (fun b => { b with grid := { b.grid with win := .slack, next := 1000 } })
     s.body.inSlack 50 = true ∧ (after (.pulseStart 7 2) s).body.rbit TIDE_STATUS 10 = true) ∧
    (let x : PulseCmd := ⟨50, 0, 0, 0, 50, pw1 5 0 5, 0, 0x20000#18 ++ 0#18, .queued⟩
     fireTide 2 50 0 ≤ (queued 80 50 x []).body.sampleTide (queued 80 50 x []).clock 2 0 ∧
     ((after (.levelUpdate 0) (queued 80 50 x [])).body.flx 0).lev1 = -131072) ∧
    (let x : PulseCmd := ⟨50, 0, 0, 4, 50, pw1 2 0 0 ||| 0x80000, pw2 4, 0, .queued⟩
     let y : PulseCmd := { x with w1 := pw1 2 0 0 ||| 0x40000 }
     let s := (at_ 44 44 []).on (fun b =>
       { b.setComp 7 { b.comp 7 with queue := [x, y] } with fab := { b.fab with views := b.fab.views.put .reset 1024 ⟨⟨0, true, 0, 0⟩, 0⟩ } })
     s.body.unfired 7 0 = [x, y] ∧ x.v ≤ 44 + 6 ∧ s.body.condition (coveOfPort 7) (x.w1.getLsbD 17) (x.w1.extractLsb' 0 17).toNat = some false ∧
     ((after (.forkSelect 7 0) s).body.comp 7).queue = [{ x with st := .due }, { y with st := .due }] ∧
     ((s.body.selectPair s.clock 7 x y).comp 7).queue = [{ y with st := .selected }] ∧
     regsAfter (.forkSelect 7 0) (queued 7 44 { x with st := .waiting } []) [SHOT_FLAGS 7] = [0x10]) ∧
    (let x : PulseCmd := ⟨50, 0, 2, 4, 50, pw1 1 2 0, pw2 4, 0, .fired⟩
     ((after (.commandRetire 7) (queued 7 54 x [])).body.comp 7).queue = [] ∧ ((after (.commandRetire 7) (queued 7 53 x [])).body.comp 7).queue = [x]) := by
  decide +kernel

theorem witness_CarrierAndCoefficients :
    (let s := at_ 0 0 []
     s.body.portIdle s.clock 79 = true ∧ 2 ^ 48 ≤ 10 * (0x2000 * 2 ^ 32) ∧ 10 * (0x2000 * 2 ^ 32) ≤ 75 * 2 ^ 48 ∧
     regsAfter (.carrierHiWrite 79 0x2000) s [CARRIER_HI 79, SLOT_FREQ_HI 79 15] = [0x2000, 0x2000] ∧
     ¬ (2 ^ 48 ≤ 10 * (0x1999 * 2 ^ 32)) ∧ regsAfter (.carrierHiWrite 79 0x1999) s [PORT_STATUS 79] = [0x104] ∧
     s.body.rbit (FLX_CTL 31) 0 = false ∧ s.body.core (.fx 31) = ⟨none, false⟩ ∧ regsAfter (.coefCommit 31 0x200) s [FLX_STATUS 31] = [0xC]) := by
  decide +kernel

/-- A bias output with some of its state set. -/
def biasAt (n ph : Nat) (x : BiasSt) (ws : List (Nat × Reg32)) : State := (at_ 0 ph ws).on (fun b => b.setBias n x)

theorem witness_BiasOutputs :
    (let s := at_ 0 0 []
     s.body.rbit (BIAS_STATUS 15) 11 = false ∧ s.body.calOn 4 15 = false ∧ s.body.gridRun = false ∧
     ((after (.biasCodeWrite 15 0xFFFFFF) s).body.biasOf 15).apCode = some 0xFFFFFF ∧
     ((after (.biasCodeWrite 15 5) (running 0 0 [])).body.biasOf 15).stCode = some 5) ∧
    regsAfter (.biasCodeWrite 0 1) (at_ 0 0 [(BIAS_STATUS 0, 0x800)]) [BIAS_STATUS 0] = [0x900] ∧
    (let s := running 0 0 [(BOOT_STATUS, 5)]
     s.body.tileHeld 3 = false ∧ s.body.fwReady = true ∧ (1 : Reg32).getLsbD 0 ≠ s.body.rbit (BIAS_CTL 15) 0 ∧
     ((after (.biasEn 15 1) s).body.biasOf 15).stEn = some true) ∧
    (let s := biasAt 1 65536 { BiasSt.reset with mode := .on, apCode := some 77 } []
     s.clock.phase.toNat % 65536 = 0 ∧ (after (.pwmFrame 1) s).body.biasCode 1 = 77 ∧
     (after (.pwmFrame 1) { s with clock := { s.clock with phase := 65537 } }).body.biasCode 1 = 0) ∧
    (let x := { BiasSt.reset with frame := 31, modeFrame := 31 }
     ((after (.biasStateEnd 1) (biasAt 1 0 { x with mode := .stopping } [])).body.biasOf 1).mode = .safe ∧
     ((after (.biasStateEnd 1) (biasAt 1 0 { x with mode := .starting } [])).body.biasOf 1).mode = .on ∧
     ((after (.biasStateEnd 1) (biasAt 1 0 { x with mode := .starting, frame := 30 } [])).body.biasOf 1).mode = .starting) ∧
    (let s := biasAt 1 0 { BiasSt.reset with frame := 9, holdUntil := some 9 } [(BIAS_STATUS 1, 4)]
     regsAfter (.dgHoldEnd 1) s [BIAS_STATUS 1] = [0]) ∧
    (let s := biasAt 1 0 { BiasSt.reset with frame := 31, rangeFrom := some 0, newRange := 2 } []
     (after (.rangeChange 1) s).body.rfld (BIAS_STATUS 1) 6 2 = 2 ∧ ((after (.rangeChange 1) s).body.biasOf 1).holdUntil = some 62) ∧
    (let s := biasAt 1 0 { BiasSt.reset with overs := 2 } []
     (39 * 8192 ≤ 10 * (31949#16).toInt.natAbs) ∧ (after (.biasSense 1 31949 0) s).body.rbit (BIAS_STATUS 1) 3 = true ∧
     (10 * (31948#16).toInt.natAbs < 39 * 8192) ∧ ((after (.biasSense 1 31948 0) s).body.biasOf 1).overs = 0) := by decide +kernel

/-- A CONST tone of a port at amplitude `a`, emitting from cycle 0. -/
def constTone (slot a : Nat) : Emission := ⟨slot, 0, 0, 100, 200, pw1 3 slot 0, pw2 100, BitVec.ofNat 18 a ++ 0#18⟩
/-- R103: sixteen aligned tones of scale 0.125 sum to +2.0, which step 5 clips. -/
theorem test_aligned_tones_clip :
    (let s := (at_ 0 0 []).on (fun b => b.setComp 66 { b.comp 66 with run := (List.range 16).map (constTone · 0x4000) })
     ((emitPort s 66).body.comp 66).base = mkC 131071 0 ∧ (emitPort s 66).body.rget (CLIP_COUNT 66) = 1) := by decide +kernel
/-- R86: half the scale at half the gain gives a quarter, and nothing clips. -/
theorem test_const_tone_sample :
    (let s := (at_ 0 0 [(PORT_GAIN 0, 0x10000)]).on (fun b => b.setComp 0 { b.comp 0 with run := [constTone 3 0x10000] })
     ((emitPort s 0).body.comp 0).base = mkC 32768 0 ∧ (emitPort s 0).body.rget (SHOT_FLAGS 0) = 0) := by decide +kernel

/-! ### Receivers and the Decision Fabric -/

/-- Word 1 of a window command: OP and TONES. -/
def ww1 (op tones : Nat) : Word := BitVec.ofNat 4 op ++ 0#4 ++ BitVec.ofNat 16 tones ++ 0#12

theorem witness_WindowCommandsEnter :
    (let s := at_ 1000 1000 [(TIDE_STATUS, 1)]
     (s.body.recv 15).fill < 64 ∧ s.body.winFail s.clock 15 1040 (ww1 1 0x8000) 7 0 = none ∧
     ((after (.measure 15 1040 (ww1 1 0x8000) 7 0) s).body.recv 15).horizon 15 = ⟨16640, 16896⟩ ∧
     s.body.winCheck1 15 (ww1 1 0x8000) 7 0 = true ∧ s.body.winFail s.clock 15 1039 (ww1 1 0x8000) 7 0 = some 0 ∧
     regsAfter (.measure 15 1039 (ww1 1 0x8000) 7 0) s [RCV_DISCARD_COUNT 15, RCV_LATE_COUNT 15, RCV_SHOT_FLAGS 15] = [1, 1, 1] ∧
     regsAfter (.measure 15 1040 (ww1 1 0) 7 0) s [RCV_DISCARD_COUNT 15, RCV_SHOT_FLAGS 15] = [1, 2]) ∧
    (let s := (at_ 1000 1000 [(TIDE_STATUS, 1)]).on (fun b => b.setRecv 15 { b.recv 15 with queue := List.replicate 64 ⟨2000, 0, 0, 0, 0⟩ })
     (s.body.recv 15).fill = 64 ∧ after (.measure 15 1040 (ww1 1 0x8000) 7 0) s = s) := by decide +kernel

/-- A receiver with some of its state set. -/
def rcvAt (n tt : Nat) (r : Receiver) (ws : List (Nat × Reg32)) : State := (at_ tt tt ws).on (fun b => b.setRecv n r)

theorem witness_WindowsOpenAndClose :
    (let x : WinCmd := ⟨50, 0, ww1 1 1, 7, 0⟩
     let s := rcvAt 2 50 { Receiver.reset with queue := [x] } [(RCV_STATUS 2, 2)]
     s.body.winDue s.clock 2 x = true ∧ s.body.inSlack (s.body.pinTide s.clock 0) = false ∧
     ((after (.windowOpen 2) s).body.recv 2).wins.map (fun w => (w.start, w.fin, w.isOpen)) = [(50, 65, true)] ∧
     regsAfter (.windowOpen 2) (rcvAt 2 50 { Receiver.reset with queue := [x] } []) [RCV_SHOT_FLAGS 2] = [0x40]) ∧
    (let x : WinCmd := ⟨50, 0, ww1 5 0x8000, 0, 0x3FFFF⟩
     let s := rcvAt 2 50 { Receiver.reset with queue := [x] } []
     s.body.winDue s.clock 2 x = true ∧ regsAfter (.demodUpdate 2) s [TONE_FRAME 2 15] = [0x3FFFF] ∧ (s.body.recv 2).upds = [] ∧
     (let s := rcvAt 2 50 { Receiver.reset with queue := [x] } [(IN_TRIM 2, 64)]
      s.body.winFired s.clock x = true ∧ s.body.winDue s.clock 2 x = false ∧ ((after (.demodUpdate 2) s).body.recv 2).upds = [x] ∧
      ((after (.demodUpdate 2) s).body.recv 2).queue = [])) ∧
    (let w : Window := ⟨⟨50, 0, ww1 1 1, 7, 0⟩, 50, 0, 65, 65, 0, true, false, false, 0, [], 0, false⟩
     let s := rcvAt 2 118 { Receiver.reset with wins := [w] } []
     w.fin + 53 ≤ s.clock.cyc ∧ w.cmd.w3.extractLsb' 28 8 = 0 ∧ ((after (.windowClose 2 w.fin (w.cmd.w1.extractLsb' 12 16)) s).body.recv 2).wins = [] ∧
     ((after (.windowClose 2 w.fin (w.cmd.w1.extractLsb' 12 16)) (rcvAt 2 117 { Receiver.reset with wins := [w] } [])).body.recv 2).wins = [w] ∧
     (let s := rcvAt 2 118 { Receiver.reset with wins := [{ w with stale := false }] } []
      (s.body.recv 2).avg = .empty ∧ w.cmd.w1.extractLsb' 12 16 = BitVec.ofNat 16 (2 ^ 0) ∧ s.body.rbit (TONE_CFG 2 0) 1 = false)) ∧
    (let s := rcvAt 2 0 { Receiver.reset with avg := SMap.put .empty ⟨0, 0, [], 0, 0⟩ 3 ⟨1, 1, [], 1, 0⟩ } []
     (0x402 : Reg32) &&& 0xF01FE = s.body.rget (RCV_CTL 2) &&& 0xF01FE ∧ (s.body.recv 2).core = ⟨none, false⟩ ∧
     ((after (.avgClr 2 0x402) s).body.recv 2).avg = .empty ∧ s.body.rcvIdle s.clock 2 = true ∧
     regsAfter (.avgNWrite 2 65536) s [AVG_N 2] = [65536] ∧ regsAfter (.avgNWrite 2 65537) s [RCV_STATUS 2] = [0x104] ∧
     regsAfter (.avgNWrite 2 0x20000) s [RCV_STATUS 2] = [0x104] ∧ after (.avgNWrite 2 0x20400) s = s) := by decide +kernel

theorem witness_FabricPathAndTables :
    (let s := (at_ 0 9 []).on (fun b => { b with fab := { b.fab with buffer := List.replicate 33 ⟨5, 1, 0, 0, 2, 0, 0, 0⟩ } })
     s.body.log.merged = false ∧ (after .mergePass s).body.fab.buffer.length = 1 ∧ regsAfter .mergePass s [PUB_COUNT] = [32] ∧
     after .mergePass (at_ 0 9 []) = at_ 0 9 []) ∧
    (let x : DTable := { DTable.reset with en := true, trig := true }
     let s := (at_ 0 9 [(DT_CFG 7, 1 * 2)]).on (fun b => { b with fab := { b.fab with tables := b.fab.tables.put .reset 7 x } })
     s.body.tableComplete 7 = false ∧ after (.tableLookup 7) s = s ∧
     (let s := s.on (fun b => { b with fab := { b.fab with store := b.fab.store.put .reset 0 ⟨1, true, 0, 3⟩ } })
      s.body.tableComplete 7 = true ∧ s.body.tableIndex 7 = 1 ∧ regsAfter (.tableLookup 7) s [DT_LOOKUP_COUNT 7] = [1])) ∧
    (let l : Lookup := ⟨4, 0, 3, 0, some (some 77)⟩
     let s (n : Nat) := (at_ 0 n []).on (fun b => { b with fab := { b.fab with tables := b.fab.tables.put .reset 7 { DTable.reset with en := true, flight := some l } } })
     ((after (.tableResultLand 7) (s 9)).body.tableResult 7 = some 77) ∧ after (.tableResultLand 7) (s 8) = s 8) ∧
    (let s := at_ 0 0 []
     ((s.body.gridRun = false) ∧ ((after (.tableEn 7 0x29) s).body.table 7).en = true ∧ regsAfter (.tableEn 7 0x2B) s [DEC_STATUS] = [0x100] ∧
      regsAfter (.tableEn 7 1) s [DEC_STATUS] = [0x100] ∧ regsAfter (.tableEn 7 0x69) s [DEC_STATUS] = [0x100] ∧
      ((after (.tableEn 7 0x29) (running 0 0 [])).body.table 7).enNext = some true)) ∧
    (let s := rcvAt 2 0 { Receiver.reset with resq := [⟨3, 1, false, true, false⟩] } []
     s.body.canTake 2 3 none = true ∧ s.body.mayResult s.clock 2 = true ∧ ((after (.resultWord 2) s).body.recv 2).resq = [] ∧
     (let s := s.on (fun b => b.setFifo 2 3 { b.fifo 2 3 with open_ := some ⟨some 1, []⟩ })
      s.body.canTake 2 3 none = false ∧ after (.resultWord 2) s = s)) := by decide +kernel

/-! ### Yosum engines: instructions -/

/-- Engine 0 at its first instruction, its fetch buffer full, its registers set: G1, G2, ... from a list. -/
def eng0 (gs : List Word) (f : Engine → Engine) : State :=
  (at_ 0 5 [(ENG_STATUS 0, 2)]).setEng 0
    (f (gs.zipIdx.foldl (fun x p => x.setReg (p.2 + 1) p.1)
      { Engine.reset with pc := 0x100000, fbuf := (List.range 8).map (fun i => (0x100000 + i, false)) }))
/-- Operand bits of formats A, B and M. -/
def fA (rd ra rb : Nat) (m : BitVec 13) : BitVec 28 := BitVec.ofNat 5 rd ++ BitVec.ofNat 5 ra ++ BitVec.ofNat 5 rb ++ m
def fB (rd ra : Nat) (imm : BitVec 18) : BitVec 28 := BitVec.ofNat 5 rd ++ BitVec.ofNat 5 ra ++ imm
/-- Register 3, the flags and the PC after an instruction of engine 0. -/
def r3 (i : Instr) (s : State) : Nat × Nat := let x := (after i s).eng 0; ((x.reg 3).toNat, x.flags.toNat)
/-- What engine 0 holds after it: its state and its fault cause. -/
def stopOf (i : Instr) (s : State) : Nat × Nat := let t := after i s; (t.body.engState 0, (t.body.rget (ENG_FAULT 0)).toNat % 256)

/-- An engine issues an instruction when it runs and fetch and dispatch leave the state alone. -/
theorem issues_of {i : Instr} {g : Nat} {s : State}
    (h : s.body.runs g = true ∧ s.body.patched (g / 12) (opcodeOf i) = false ∧ (inHand s g (opcodeOf i)).1 = s ∧ (inHand s g (opcodeOf i)).2 = none) :
    issues i g s s :=
  ⟨h.1, h.2.1, Prod.ext h.2.2.1 h.2.2.2⟩
/-- The premise of every statement about an instruction: engine 0 issues it. -/
theorem witness_issues :
    ∀ row ∈ ([.add, .sub, .and, .or, .xor, .shl, .shr, .sra, .min, .max, .adds, .cmp, .tst, .ext, .ins, .cadd, .addi, .andi, .ori, .xori, .shli,
      .shri, .srai, .cmpi, .tsti, .li, .lih, .movs, .movsw, .mac, .msu, .cmac, .cmacj, .cmsu, .cmsuj, .macm, .cmacm, .nrw, .cnrw, .clra, .rda,
      .wra, .wrah, .ld, .st, .ld2, .st2, .ldo, .sto, .seta, .setp, .geta, .nop, .halt, .pissue, .wissue, .pissuem, .wissuem, .publish, .await,
      .signal, .waitev, .rete, .emit, .commit, .abort, .br, .brr, .call, .ret, .dbnz] : List (Fin 192 → BitVec 28 → Instr)),
    issues (row 0 0) 0 (eng0 [] id) (eng0 [] id) :=
  fun row h => issues_of (by revert row; decide +kernel)
theorem witness_issues_blocks :
    ∀ row ∈ ([.bdot, .bscale, .bacc, .bcopy, .bhist, .bfly, .bemit] : List (Fin 192 → BitVec 28 → Nat → Instr)),
    issues (row 0 0 1) 0 (eng0 [] id) (eng0 [] id) :=
  fun row h => issues_of (by revert row; decide +kernel)

theorem witness_EnginesFetchAndDispatch :
    (State.reset.body.runs 0 = false ∧ yosumEngine (.add 0 0) = some 0) ∧
    ((eng0 [] id).body.runs 0 = true ∧ stopOf (.add 0 0) (eng0 [] (fun x => { x with pc := 0x1FFFFF })) = (2, 0) ∧
      stopOf (.add 0 0) (eng0 [] (fun x => { x with pc := 0x200000 })) = (4, 1) ∧
      stopOf (.add 0 0) (eng0 [] (fun x => { x with pc := 0xFFFFF })) = (4, 1)) ∧
    (let s := eng0 [] id
     let s := s.setEng 0 { s.eng 0 with fbuf := [] }
     let bad (k : Nat) : State := { s with mem := { s.mem with err := s.mem.err.put 0 (sharedAddr 0 0) k } }
     stopOf (.add 0 0) (bad 2) = (4, 2) ∧ stopOf (.add 0 0) (bad 1) = (2, 0) ∧ (after (.add 0 0) (bad 1)).mem.errAt (sharedAddr 0 0) = 0 ∧
     sharedAddr 0 0 ≠ storeKey 0 0 true 0x10 ∧ (bad 1).storeBad 0 = false ∧ s.mem.errAt (storeKey 0 0 true 0x10) = 0 ∧
     ((after (.add 0 0) s).eng 0).fbuf.head? = some (0x100000, false)) ∧
    (let s := (eng0 [] id).on (fun b => { b with udisp := b.udisp.put none 0x10 (some 0x1800) })
     s.body.patched 0 0x10 = true ∧ s.body.opDefined 0 0x10 = true ∧ after (.add 0 0) s = s) ∧
    (let s := eng0 [] (fun x => { x with stop := true }); s.body.mayIssue 0 = true ∧ s.body.runs 0 = false ∧ after (.add 0 0) s = s) := by
  decide +kernel

/-- The most positive number and 1, and the flags after: S_FLAGS order Z, N, C, V, SAT, ACC_SAT (R180, R210, R213). -/
theorem test_arithmetic :
    let s := eng0 [0x7FFFFFFFF, 1] id
    let f := fA 3 1 2 0
    r3 (.add 0 f) s = (0x800000000, 10) ∧ r3 (.sub 0 f) s = (0x7FFFFFFFE, 4) ∧ r3 (.and 0 f) s = (1, 0) ∧ r3 (.or 0 f) s = (0x7FFFFFFFF, 0) ∧
    r3 (.xor 0 f) s = (0x7FFFFFFFE, 0) ∧ r3 (.shl 0 f) s = (0xFFFFFFFFE, 2) ∧ r3 (.shr 0 f) s = (0x3FFFFFFFF, 0) ∧
    r3 (.sra 0 f) s = (0x3FFFFFFFF, 0) ∧ r3 (.min 0 f) s = (1, 0) ∧ r3 (.max 0 f) s = (0x7FFFFFFFF, 0) ∧
    r3 (.adds 0 f) s = (0x7FFFFFFFF, 24) ∧ r3 (.cadd 0 f) s = (0x7FFFC0000, 0) ∧
    r3 (.addi 0 (fB 3 1 0x3FFFF)) s = (0x7FFFFFFFE, 4) ∧ r3 (.andi 0 (fB 3 1 0x3FFFF)) s = (0x3FFFF, 0) ∧
    r3 (.ori 0 (fB 3 2 0x20000)) s = (0x20001, 0) ∧ r3 (.xori 0 (fB 3 2 1)) s = (0, 1) ∧ r3 (.shli 0 (fB 3 2 36)) s = (0, 1) ∧
    r3 (.shri 0 (fB 3 1 34)) s = (1, 0) ∧ r3 (.srai 0 (fB 3 1 63)) s = (0, 1) := by decide +kernel
/-- R179: G0 reads as zero and discards writes. -/
theorem test_g0 : ((after (.li 0 (0#5 ++ 5#23)) (eng0 [] id)).eng 0).reg 0 = 0 := by decide +kernel
theorem test_compares_fields :
    let s := eng0 [0x123456789, 5] id
    r3 (.cmp 0 (fA 3 2 1 0)) s = (0, 2) ∧ r3 (.cmpi 0 (fB 3 2 5)) s = (0, 5) ∧ r3 (.tst 0 (fA 3 1 2 0)) s = (0, 0) ∧ r3 (.tsti 0 (fB 3 2 2)) s = (0, 1) ∧
    r3 (.ext 0 (fA 3 1 0 (0#1 ++ 4#6 ++ 7#6))) s = (0x78, 0) ∧ r3 (.ext 0 (fA 3 1 0 (1#1 ++ 0#6 ++ 7#6))) s = (0xFFFFFFF89, 2) ∧
    r3 (.ins 0 (fA 3 2 0 (0#1 ++ 8#6 ++ 3#6))) s = (0x500, 0) ∧
    r3 (.li 0 (3#5 ++ 0x7FFFFF#23)) s = (0xFFFFFFFFF, 0) ∧ r3 (.lih 0 (fB 3 0 1)) s = (0x40000, 0) ∧
    ((after (.nop 0 0) s).eng 0).pc = 0x100001 := by decide +kernel
theorem witness_SpecialRegisters :
    let s := (eng0 [40] id).on (fun b => (b.rset SHOT_EPOCH 7).rset RING_CTL 3)
    r3 (.movs 0 (fB 3 0 0)) s = (0x3000, 0) ∧ r3 (.movs 0 (fB 3 0 1)) s = (7, 0) ∧ r3 (.movs 0 (fB 3 0 3)) s = (5, 0) ∧ r3 (.movs 0 (fB 3 0 5)) s = (35, 0) ∧
    stopOf (.movs 0 (fB 3 0 7)) s = (4, 0x11) ∧ stopOf (.movsw 0 (fB 0 1 7)) s = (4, 0x11) ∧
    ((after (.movsw 0 (fB 0 1 5)) s).eng 0).bexp = 35 ∧ ((after (.movsw 0 (fB 0 1 6)) s).eng 0).flags = 40 := by decide +kernel
theorem witness_AccumulatorInstructions :
    let s := eng0 [0xFFFFFFFFF, 3] (fun x => x.setAcc 2 10)
    let acc (i : Instr) (k : Nat) : Int := ((after i s).eng 0).accOf k
    let f := fA 3 1 2 (0#5 ++ 2#2 ++ 0#6)
    acc (.mac 0 f) 2 = 7 ∧ acc (.msu 0 f) 2 = 13 ∧ acc (.cmac 0 f) 2 = 13 ∧ acc (.cmac 0 f) 3 = -3 ∧ acc (.cmacj 0 f) 2 = 7 ∧ acc (.cmsu 0 f) 3 = 3 ∧
    acc (.cmsuj 0 f) 2 = 13 ∧ stopOf (.cmac 0 (fA 3 1 2 (0#5 ++ 1#2 ++ 0#6))) s = (4, 0x11) ∧ acc (.clra 0 (fA 0 0 0 4)) 2 = 0 ∧
    r3 (.rda 0 (fA 3 0 0 (0#5 ++ 2#2 ++ 0#6))) s = (10, 0) ∧ stopOf (.rda 0 (fA 3 0 0 (0#5 ++ 2#2 ++ 3#6))) s = (4, 0x11) ∧
    acc (.wra 0 f) 2 = -2 ^ 36 + 3 ∧ acc (.wrah 0 f) 2 = -2 ^ 72 + 10 := by decide +kernel
/-- R192: an accumulation saturates at 2⁷⁹ − 1 and sets ACC_SAT. -/
theorem test_accumulator_saturates :
    let x := (after (.mac 0 (fA 3 1 1 0)) (eng0 [1] (fun x => x.setAcc 0 (2 ^ 79 - 1)))).eng 0
    x.accOf 0 = 2 ^ 79 - 1 ∧ x.flags = 0x20 := by decide +kernel
theorem witness_NarrowingInstructions :
    let s := eng0 [] (fun x => (x.setAcc 0 5).setAcc 1 (-3))
    r3 (.nrw 0 (fA 3 0 0 1)) s = (2, 0) ∧ r3 (.cnrw 0 (fA 3 0 0 1)) s = (2 * 2 ^ 18 + 0x3FFFE, 0) ∧
    stopOf (.cnrw 0 (fA 3 0 0 41)) s = (4, 0x11) ∧ r3 (.nrw 0 (fA 3 0 0 0)) (eng0 [] (fun x => x.setAcc 0 (2 ^ 35))) = (2 ^ 35 - 1, 24) := by
  decide +kernel

/-! ### Yosum engines: memory, blocks, issue, control flow -/

/-- Format K operand bits: RA in the count's place, the three address registers, bits [8:0]; and format M. -/
def fK (rd ra aa ab ad : Nat) (m : BitVec 9) : BitVec 28 :=
  BitVec.ofNat 5 rd ++ BitVec.ofNat 5 ra ++ BitVec.ofNat 3 aa ++ BitVec.ofNat 3 ab ++ BitVec.ofNat 3 ad ++ m
def fM (rd an : Nat) (nu : Bool) : BitVec 28 := BitVec.ofNat 5 rd ++ BitVec.ofNat 3 an ++ BitVec.ofBool nu ++ 0#19
/-- A local word of engine 0 after a command. -/
def lw (i : Instr) (s : State) (w : Nat) : Nat := ((after i s).mem.word (localAddr 0 w)).toNat
/-- Local words of engine 0 set. -/
def withWords (s : State) (ws : List (Nat × Word)) : State := { s with mem := ws.foldl (fun m p => m.putWord (localAddr 0 p.1) p.2) s.mem }
/-- An address register: pointer, length, step. -/
def ptr (p l st : Nat) : AddrReg := ⟨BitVec.ofNat 24 p, 0, BitVec.ofNat 16 l, BitVec.ofNat 16 st, 0⟩

theorem witness_EngineAddressMap :
    let b := State.reset.body
    b.guarded 15 = false ∧ b.engAddr 191 0x7FFF = some 0xF002FFFFF8 ∧ b.engAddr 191 0x8000 = none ∧ b.engAddr 191 0xFFFFF = none ∧
    b.engAddr 191 0x100000 = some 0xF107800000 ∧ b.engAddr 191 0x1FFFFF = some 0xF107FFFFF8 ∧ b.engAddr 191 0x200000 = some 0xF200F00000 ∧
    b.engAddr 191 0x21FFFF = some 0xF200FFFFF8 ∧ b.engAddr 191 0x220000 = some 0xF2013C0000 ∧ b.engAddr 191 0x227FFF = some 0xF2013FFFF8 ∧
    b.engAddr 191 0x228000 = none ∧ b.engAddr 191 0x23FFFF = none ∧ b.engAddr 191 0x240000 = some 0xF3003C0000 ∧
    b.engAddr 191 0x247FFF = some 0xF3003FFFF8 ∧ b.engAddr 191 0x248000 = none := by decide +kernel
theorem witness_EngineAccess :
    (State.reset.body.outs = [] ∧ State.reset.mem.errAt (localAddr 0 0x7FFF) = 0 ∧
      (engWrite State.reset 0 0x7FFF 9).mem.word (localAddr 0 0x7FFF) = 9 ∧
      (engWrite State.reset 0 0x100000 9).body.outs = [⟨0, 0, 3, .store 0xF100000000 9⟩] ∧
      (engWrite State.reset 0 0x247FFF 9).body.outs = [⟨0, 0, 5, .store 0xF30003FFF8 9⟩]) ∧
    (let s := State.reset.on (fun b => { b with outs := [⟨0, 0, 1, .store 0xF100000000 9⟩] })
     (engRead s 0 0x100000).1 = 9) := by decide +kernel
theorem witness_AddressRegistersStep :
    (ptr 5 0 0xFFFF).next.p = 4 ∧ (⟨7, 0, 8, 3, 1⟩ : AddrReg).next.p = 2 ∧ (⟨0, 0, 8, 4, 2⟩ : AddrReg).next.p = 1 ∧ (⟨4, 0, 8, 1, 2⟩ : AddrReg).next.p = 2 ∧
    (⟨0x7FFF, 0, 0, 1, 1⟩ : AddrReg).next.p = 0x8000 := by decide +kernel

theorem witness_LoadsAndStores :
    let s := withWords (eng0 [0x7FFF, 7, 8, 9] (fun x => (x.setAreg 1 (ptr 0x7FFE 0 1)).setAreg 2 (ptr 0x7FFF 0 1))) [(0x7FFE, 11), (0x7FFF, 12)]
    r3 (.ld 0 (fM 3 1 false)) s = (11, 0) ∧ ((after (.ld 0 (fM 3 1 false)) s).eng 0).areg 1 = ptr 0x7FFF 0 1 ∧
    ((after (.ld 0 (fM 3 1 true)) s).eng 0).areg 1 = ptr 0x7FFE 0 1 ∧ (s.body.engAddr 0 0x8000).isSome = false ∧
    stopOf (.ld 0 (fM 3 1 false)) (s.setEng 0 ((s.eng 0).setAreg 1 (ptr 0x8000 0 1))) = (4, 1) ∧
    lw (.st 0 (fM 2 2 false)) s 0x7FFF = 7 ∧ ((after (.ld2 0 (fM 2 1 false)) s).eng 0).reg 2 = 11 ∧ r3 (.ld2 0 (fM 2 1 false)) s = (12, 0) ∧
    stopOf (.ld2 0 (fM 3 1 false)) s = (4, 0x12) ∧ stopOf (.ld2 0 (fM 2 2 false)) s = (4, 1) ∧ lw (.st2 0 (fM 2 1 false)) s 0x7FFF = 8 ∧
    stopOf (.st2 0 (fM 3 1 false)) s = (4, 0x12) ∧ stopOf (.st2 0 (fM 2 2 false)) s = (4, 1) ∧ r3 (.ldo 0 (fB 3 1 0x3FFFF)) s = (11, 0) ∧
    lw (.sto 0 (fB 2 1 0)) s 0x7FFF = 7 ∧ stopOf (.sto 0 (fB 2 1 1)) s = (4, 1) ∧
    ((after (.seta 0 (fB 0 1 5)) (eng0 [1, 16, 2 ^ 33 + 8] id)).eng 0).areg 5 = ⟨1, 16, 8, 0, 2⟩ ∧
    stopOf (.seta 0 (fB 0 1 5)) (eng0 [1, 16, 2 ^ 33 + 7] id) = (4, 4) ∧ stopOf (.seta 0 (fB 0 30 5)) s = (4, 0x12) ∧
    ((after (.setp 0 (fB 0 1 2)) s).eng 0).areg 2 = ptr 0x7FFF 0 1 ∧ r3 (.geta 0 (fB 3 0 1)) s = (0x7FFE, 0) := by decide +kernel

/-- Three pointers at words 0, 8 and 16, with data. -/
def three (gs : List Word) (ws : List (Nat × Word)) : State :=
  withWords (eng0 gs (fun x => ((x.setAreg 0 (ptr 0 4 1)).setAreg 1 (ptr 8 4 1)).setAreg 2 (ptr 16 4 1))) ws

theorem witness_MemoryAccumulations :
    let s := three [] [(0, 0xFFFFFFFFF), (8, 3)]
    (s.body.engAddr 0 0).isSome = true ∧ (engRead s 0 0).1 = 0xFFFFFFFFF ∧ (engRead s 0 8).1 = 3 ∧
    ((after (.macm 0 (fK 0 0 0 1 0 (0#1 ++ 1#2 ++ 0#6))) s).eng 0).accOf 1 = -3 ∧
    ((after (.macm 0 (fK 0 0 0 1 0 0)) s).eng 0).areg 1 = ptr 9 4 1 ∧
    ((after (.cmacm 0 (fK 0 0 0 1 0 0)) s).eng 0).accOf 0 = 3 ∧ ((after (.cmacm 0 (fK 0 0 0 1 0 1)) s).eng 0).accOf 0 = -3 ∧
    stopOf (.cmacm 0 (fK 0 0 0 1 0 (0#1 ++ 1#2 ++ 0#6))) s = (4, 0x11) ∧
    stopOf (.macm 0 (fK 0 0 0 1 0 0)) (s.setEng 0 ((s.eng 0).setAreg 1 (ptr 0x8000 0 1))) = (4, 1) := by decide +kernel

theorem witness_BlockInstructions :
    let s := three [2, 1] [(0, 5), (1, 6), (8, 3), (9, 2), (16, 7)]
    let acc (i : Instr) : Int := ((after i s).eng 0).accOf 0
    rangesOk (s.eng 0) [0, 1, 2] 2 = true ∧ acc (.bdot 0 (fK 0 1 0 1 0 0) 1) = 15 ∧ acc (.bdot 0 (fK 0 1 0 1 0 0) 2) = 27 ∧
    ((after (.bdot 0 (fK 0 1 0 1 0 0) 1) s).eng 0).resume = some 1 ∧ ((after (.bdot 0 (fK 0 1 0 1 0 0) 2) s).eng 0).pc = 0x100001 ∧
    lw (.bscale 0 (fK 2 1 0 0 2 0) 1) s 16 = 5 ∧ lw (.bacc 0 (fK 0 1 0 0 2 0) 1) s 16 = 12 ∧ lw (.bcopy 0 (fK 0 1 0 0 2 0) 2) s 17 = 6 ∧
    binsOk (fK 0 1 0 1 0 0) (s.eng 0) = true ∧ lw (.bhist 0 (fK 0 1 0 1 0 0) 1) s 3 = 1 ∧
    ((after (.bfly 0 (fK 0 1 0 1 2 0) 1) s).eng 0).areg 2 = ptr 17 4 1 ∧ s.body.mayEmit s.clock 0 3 0 = true ∧
    ((after (.bemit 0 (fK 0 1 0 0 0 3) 1) s).body.outs = [⟨0, 5, 6, .emit 3 5⟩]) ∧
    (let t := s.on (fun b => b.setFifo 0 3 { b.fifo 0 3 with open_ := some ⟨some 1, []⟩ })
     t.body.mayEmit t.clock 0 3 0 = false ∧ stopOf (.bemit 0 (fK 0 1 0 0 0 3) 1) t = (3, 0)) ∧
    ((after (.bcopy 0 (fK 0 3 0 0 2 0) 1) s).eng 0).pc = 0x100001 ∧
    stopOf (.bcopy 0 (fK 0 1 0 0 2 0) 1) (three [65537] []) = (4, 0x13) ∧ stopOf (.bcopy 0 (fK 0 1 0 0 2 0) 1) (three [65536] []) = (4, 1) ∧
    rangesOk ((three [65536] []).eng 0) [0, 2] 65536 = false ∧
    stopOf (.bdot 0 (fK 0 1 0 1 0 (1#1 ++ 1#2 ++ 0#6)) 1) s = (4, 0x11) ∧ stopOf (.bscale 0 (fK 2 1 0 0 2 (1#1 ++ 0#2 ++ 41#6)) 1) s = (4, 0x11) := by
  decide +kernel

theorem witness_IssueAndResultInstructions :
    let s := withWords (eng0 [0, 5, 0, 1040, pw1 1 3 0, pw2 4, 0] (fun x => x.setAreg 1 (ptr 0 0 1))) [(0, 1040), (1, pw1 1 3 0)]
    let way (i : Instr) := (after i s).body.issue.map (fun x => (x.window, x.w0.toNat, x.due))
    s.body.issueRoom 0 false (pw1 1 3 0) = true ∧ s.body.issueRoom 0 true (pw1 1 3 0) = true ∧
    way (.pissue 0 (fA 4 0 0 0)) = [(false, 1040, 14)] ∧ way (.wissue 0 (fA 4 0 0 0)) = [(true, 1040, 14)] ∧
    stopOf (.pissue 0 (fA 4 0 0 3)) s = (4, 0x11) ∧ stopOf (.wissue 0 (fA 5 0 0 0)) s = (4, 0x12) ∧ stopOf (.wissue 0 (fA 0 0 0 0)) s = (4, 0x12) ∧
    way (.pissuem 0 (fM 0 1 false)) = [(false, 1040, 14)] ∧ way (.wissuem 0 (fM 0 1 false)) = [(true, 1040, 14)] ∧
    ((after (.pissuem 0 (fM 0 1 false)) s).eng 0).areg 1 = ptr 4 0 1 ∧
    (after (.publish 0 (fB 0 2 9)) s).body.fab.flight.map (fun u => (u.slot, u.val)) = [(9, 5)] ∧ s.body.guarded 0 = false ∧
    (after (.signal 0 (fB 0 0 63)) s).body.outs = [⟨0, 5, 6, .signal 63 0⟩] ∧ (after (.signal 0 (fB 0 2 64)) s).body.outs = [⟨0, 5, 6, .signal 5 0⟩] ∧
    (after (.emit 0 (fB 0 2 15)) s).body.outs = [⟨0, 5, 6, .emit 15 5⟩] ∧ (after (.commit 0 (fB 0 0 15)) s).body.outs = [⟨0, 5, 6, .commit 15⟩] ∧
    (after (.abort 0 (fB 0 0 15)) s).body.outs = [⟨0, 5, 6, .abort 15⟩] ∧
    (let s := s.on (fun b => b.setFifo 0 15 { b.fifo 0 15 with open_ := some ⟨some 1, []⟩ })
     s.body.mayEmit s.clock 0 15 0 = false ∧ stopOf (.emit 0 (fB 0 2 15)) s = (3, 0) ∧ (after (.emit 0 (fB 0 2 15)) s).body.outs = [] ∧
     (((after (.emit 0 (fB 0 2 15)) s).eng 0).stall.map (·.since)) = some 5) ∧
    s.body.mayEmit s.clock 0 15 0 = true ∧ s.body.inputsFree s.clock 0 false (pw1 1 3 0) = true ∧ s.body.aheadInLine 0 false (pw1 1 3 0) = false ∧
    (let t := after (.pissue 0 (fA 4 0 0 0)) s
     t.body.inputsFree t.clock 0 false (pw1 1 3 0) = false ∧ ((after (.pissue 0 (fA 4 0 0 0)) t).eng 0).stall.isSome = true ∧
     stopOf (.pissue 0 (fA 4 0 0 0)) t = (2, 0)) ∧
    (let t := after (.publish 0 (fB 0 2 9)) s
     s.body.laneFree s.clock 0 = true ∧ t.body.laneFree t.clock 0 = false ∧ ((after (.publish 0 (fB 0 2 9)) t).eng 0).stall.isSome = true) := by
  decide +kernel

theorem witness_BranchesAndCalls :
    let s := eng0 [0x1FFFFF, 1, 2] (fun x => { x.setReg 31 0x100040 with flags := 1 })
    let pc (i : Instr) := ((after i s).eng 0).pc.toNat
    pc (.br 0 (0#4 ++ 0x1FFFFF#24)) = 0x1FFFFF ∧ pc (.br 0 (1#4 ++ 0x100010#24)) = 0x100010 ∧ pc (.br 0 (2#4 ++ 0x100010#24)) = 0x100001 ∧
    stopOf (.br 0 (0#4 ++ 0x200000#24)) s = (4, 1) ∧ stopOf (.br 0 (14#4 ++ 0x100010#24)) s = (4, 0x11) ∧
    pc (.brr 0 (fB 0 1 0)) = 0x1FFFFF ∧ pc (.brr 0 (fB 0 1 13)) = 0x100001 ∧ pc (.call 0 (0#4 ++ 0x100010#24)) = 0x100010 ∧
    ((after (.call 0 (0#4 ++ 0x100010#24)) s).eng 0).reg 31 = 0x100001 ∧ pc (.call 0 (3#4 ++ 0x100010#24)) = 0x100001 ∧
    stopOf (.call 0 (0#4 ++ 0#24)) s = (4, 1) ∧ pc (.ret 0 0) = 0x100040 ∧ pc (.dbnz 0 (fB 3 0 8)) = 0x100008 ∧ pc (.dbnz 0 (fB 2 0 8)) = 0x100001 := by
  decide +kernel

/-! ### Yosum engines: commands, waits, events, Guarded mode, microcode -/

/-- Engine 10 in state `st` of a cove that may run. -/
def eng10 (st : Nat) (ws : List (Nat × Reg32)) (f : Engine → Engine) : State :=
  (at_ 0 50 ([(ENG_STATUS 10, BitVec.ofNat 32 st), (MC_VERSION 0, 0x80000000)] ++ ws)).setEng 10 (f Engine.reset)

theorem witness_EngineCommands :
    (let s := eng10 0 [(ENG_ENTRY 10, 0x100020)] id
     s.body.oddTwin 10 = false ∧ s.body.engState 10 = 0 ∧ s.body.rbit (COVE_STATUS 0) 1 = false ∧ s.body.rbit (MC_VERSION 0) 30 = false ∧
     regsAfter (.arm 10) s [ENG_STATUS 10] = [1] ∧ regsAfter (.start 10) s [ENG_STATUS 10] = [2] ∧ ((after (.start 10) s).eng 10).pc = 0x100020 ∧
     regsAfter (.stop 10) s [ENG_STATUS 10] = [0x100] ∧ regsAfter (.clearFault 10) s [ENG_STATUS 10] = [0x100]) ∧
    (regsAfter (.stop 10) (eng10 1 [] id) [ENG_STATUS 10] = [0] ∧ regsAfter (.arm 10) (eng10 1 [] id) [ENG_STATUS 10] = [0x101] ∧
     ((after (.stop 10) (eng10 3 [] id)).eng 10).stop = true ∧ regsAfter (.start 10) (eng10 3 [] id) [ENG_STATUS 10] = [0x103] ∧
     regsAfter (.clearFault 10) (eng10 4 [(ENG_FAULT 10, 7)] id) [ENG_STATUS 10, ENG_FAULT 10] = [0, 0] ∧
     regsAfter (.arm 10) (eng10 0 [(MC_VERSION 0, 0xC0000000)] id) [ENG_STATUS 10] = [0x100]) ∧
    (let s := eng10 2 [] ({ · with stop := true })
     regsAfter (.engineStopAct 10) s [ENG_STATUS 10] = [0] ∧ (after (.engineStopAct 10) s).body.openFifos 10 = []) ∧
    (let s := at_ 0 0 [(COVE_CTL 15, 1), (PAIR_MAP 15, 0x2C688)]
     s.body.oddTwin 191 = true ∧ regsAfter (.arm 191) s [ENG_STATUS 190] = [0x100]) := by decide +kernel

/-- A waiting engine 10. -/
def waiting (w : Wait) : State := eng10 3 [] (fun x => { x with wait := some w })

theorem witness_EngineWaits :
    (let s := eng0 [0, 100] id
     ((after (.await 0 (fA 3 2 1 0)) s).body.engState 0 = 3 ∧ stopOf (.await 0 (fA 3 0 1 0)) (eng0 [0x22000] id) = (4, 0x11) ∧
      stopOf (.waitev 0 (fA 3 0 0 0)) s = (4, 0x11) ∧ s.body.tiPending 3 = none ∧ (after (.waitev 0 (fA 3 0 0 8)) s).body.engState 0 = 3) ∧
     (let s := s.on (fun b => b.setTi 3 (some ⟨9, 5, 2⟩))
      (after (.waitev 0 (fA 3 0 0 15)) s).body.tiPending 3 = none ∧ s.body.tiSeen 3 = none ∧
      (((after (.waitev 0 (fA 3 0 0 15)) s).eng 0).wait.map (·.lin)) = some 5)) ∧
    (let w : Wait := ⟨false, fA 3 0 0 0, 3, 0, none, some (7, 47), 0, none, none⟩
     (waiting w).body.engState 10 = 3 ∧ (waiting w).body.oddTwin 10 = false ∧ ((after (.awaitComplete 10) (waiting w)).eng 10).reg 3 = 7 ∧
     after (.awaitComplete 10) (waiting { w with got := some (7, 48) }) = waiting { w with got := some (7, 48) }) ∧
    (let w : Wait := ⟨false, fA 3 0 0 0, 3, 0, some 40, none, 0, some 47, none⟩
     ((after (.awaitDeadline 10) (waiting w)).eng 10).flags = 5 ∧
     after (.awaitDeadline 10) (waiting { w with dead := some 48 }) = waiting { w with dead := some 48 }) ∧
    (let w : Wait := ⟨true, fA 3 0 0 1, 3, 1, none, some (7, 48), 5 * 2 ^ 32 + 6, none, none⟩
     (waiting w).body.guarded 0 = false ∧ ((after (.waitevComplete 10) (waiting w)).eng 10).reg 3 = 7 ∧
     (after (.waitevComplete 10) (waiting w)).mem.word (localAddr 10 0x7FF9) = 5 ∧ (after (.waitevComplete 10) (waiting w)).mem.word (localAddr 10 0x7FF0) = 0x20) ∧
    (let w : Wait := ⟨true, fA 3 0 0 1, 3, 1, some 40, none, 0, some 48, none⟩
     ((after (.waitevDeadline 10) (waiting w)).eng 10).flags = 4) := by decide +kernel

/-- The event block of engine 0 set. -/
def evBlock (s : State) (ws : List (Nat × Word)) : State := withWords s (ws.map (fun p => (0x7FF0 + p.1, p.2)))

theorem witness_EventHandlersAndHalt :
    (let s := (evBlock (eng0 [] (fun x => { x with flags := 3 })) [(0, 15), (4, 0x100080)]).on (fun b => b.setTi 3 (some ⟨9, 5, 2⟩))
     s.body.engState 0 = 2 ∧ (s.eng 0).wait = none ∧ (s.mem.word (localAddr 0 0x7FF0)).getLsbD 4 = false ∧ s.mem.errAt (localAddr 0 0x7FF4) = 0 ∧
     ((after (.eventEntry 0) s).eng 0).pc = 0x100080 ∧ lw (.eventEntry 0) s 0x7FF0 = 31 ∧ lw (.eventEntry 0) s 0x7FF5 = 3 * 2 ^ 24 + 0x100000 ∧
     lw (.eventEntry 0) s 0x7FF8 = 5) ∧
    (let s := (evBlock (eng0 [] id) [(0, 31), (4, 0x100080)]).on (fun b => b.setTi 3 (some ⟨9, 5, 2⟩)); after (.eventEntry 0) s = s) ∧
    (let s := (evBlock (eng0 [] (fun x => { x with stall := some ⟨4, .lane⟩ })) [(0, 15), (4, 0x100080)]).on (fun b => b.setTi 3 (some ⟨9, 5, 2⟩))
     after (.eventEntry 0) s = s) ∧
    (let w : Wait := ⟨false, 0, 3, 0, none, none, 0, none, none⟩
     let s := (evBlock ((eng0 [] (fun x => { x with wait := some w })).on (fun b => b.rset (ENG_STATUS 0) 3)) [(0, 15), (4, 0x100080)]).on
       (fun b => b.setTi 3 (some ⟨9, 5, 2⟩))
     ((after (.eventEntry 0) s).eng 0).pc = 0x100080 ∧ (after (.eventEntry 0) s).body.engState 0 = 2) ∧
    (let s := evBlock (eng0 [] id) [(0, 16), (5, 2 ^ 30 + 5 * 2 ^ 24 + 0x100007), (6, 12)]
     issues (.rete 0 0) 0 s s ∧ s.body.guarded 0 = false ∧ ((after (.rete 0 0) s).eng 0).pc = 0x100007 ∧ ((after (.rete 0 0) s).eng 0).resume = some 12 ∧
     lw (.rete 0 0) s 0x7FF0 = 0) ∧
    stopOf (.rete 0 0) (eng0 [] id) = (4, 0x14) ∧
    (let s := evBlock ((eng0 [] id).on (fun b => b.rset (ENG_CTL 0) 1)) [(0, 0x3F)]
     stopOf (.halt 0 0) s = (1, 0) ∧ lw (.halt 0 0) s 0x7FF0 = 15 ∧ stopOf (.halt 0 0) (eng0 [] id) = (0, 0)) := by
  unfold issues; decide +kernel

/-- A cove-1 device with its memory ready, 64 MiB in use. -/
def memAt (ws : List (Nat × Reg32)) : State := at_ 0 50 ([(MEM_STATUS, 1), (USABLE_MIB, 64), (MEM_CFG, 1), (MC_VERSION 1, 0x80000000)] ++ ws)

theorem witness_GuardedMode :
    (let s := memAt []
     s.body.coveIdle 1 = true ∧ (0x15 : Reg32).getLsbD 0 = true ∧ ((0x15 : Reg32).extractLsb' 2 3).toNat = 5 ∧ (0x15 : Reg32).getLsbD 1 = s.body.rbit (COVE_CTL 1) 1 ∧
     s.body.rbit (MC_VERSION 1) 30 = false ∧ s.body.imagesOk 1 (s.body.imageAt 1 0) = true ∧ s.mem.wf ∧
     s.body.coveCtlRefused 1 0x19 = true ∧ regsAfter (.guardedWrite 1 0x19) s [COVE_STATUS 1] = [0x101] ∧
     0x3F10000 + 0xF0000 = s.body.usable ∧ regsAfter (.reloadBaseHiWrite 1 0) (s.on (fun b => b.stage (RELOAD_BASE_LO 1) 0x3F10000)) [RELOAD_BASE_LO 1] = [0x3F10000] ∧
     regsAfter (.reloadBaseHiWrite 1 0) (s.on (fun b => b.stage (RELOAD_BASE_LO 1) 0x3F10040)) [COVE_STATUS 1] = [0x101] ∧
     regsAfter (.reloadBaseHiWrite 1 0) (s.on (fun b => b.stage (RELOAD_BASE_LO 1) 32)) [COVE_STATUS 1] = [0x101] ∧
     after (.imageBuildDone 1) s = s ∧ after (.reloadDone 1) s = s ∧ after (.twinMismatch 12) s = s) ∧
    (let s := (memAt [(COVE_CTL 1, 0x15), (PAIR_MAP 1, 0x2C688), (COVE_STATUS 1, 6)]).on (fun b => b.setCove 1 ⟨[], none, true, false⟩)
     regsAfter (.imageBuildDone 1) s [COVE_STATUS 1] = [4]) ∧
    (let s := memAt [(COVE_CTL 1, 0x15), (PAIR_MAP 1, 0x2C688), (COVE_STATUS 1, 4), (ENG_STATUS 12, 2)]
     s.body.pairActive 12 = true ∧ regsAfter (.twinMismatch 12) s [ENG_FAULT 12] = [3] ∧ ((after (.twinMismatch 12) s).body.cove 1).waiting = [0] ∧
     (let s := s.setEng 12 { s.eng 12 with stall := some ⟨49, .lane⟩ }
      s.body.pairActive 12 = true ∧ ((after (.twinMismatch 12) s).eng 12).twin = some (0, 50) ∧ (after (.twinMismatch 12) s).body.engState 12 = 2)) ∧
    (let s := memAt [(COVE_CTL 1, 0x15), (PAIR_MAP 1, 0x2C688), (COVE_STATUS 1, 4)]
     s.body.guarded 1 = true ∧ s.body.coveIdle 1 = true ∧ (after (.guardedWrite 1 0x14) s).body.guarded 1 = false) := by decide +kernel
/-- A key listed under one value reads as it. -/
theorem lookupIn_const {α : Type} (d v : α) (k : Nat) (l : List (Nat × α)) (h : k ∈ l.map Prod.fst) (hv : ∀ e ∈ l, e.2 = v) : lookupIn d k l = v := by
  induction l with
  | nil => simp at h
  | cons e t ih =>
    unfold lookupIn
    split
    · exact hv e (by simp)
    · exact ih (by simp_all [eq_comm]) (fun x hx => hv x (by simp [hx]))
/-- The value of bytes lies below the power of their number. -/
theorem ofBytes_lt (l : List Byte) : ofBytes l < 2 ^ (8 * l.length) := by
  induction l with
  | nil => decide
  | cons b t ih =>
    have := b.isLt
    have e : 2 ^ (8 * (b :: t).length) = 2 ^ 8 * 2 ^ (8 * t.length) := by rw [← Nat.pow_add]; congr 1; simp; omega
    rw [e]
    simp only [ofBytes]
    omega
/-- The last byte of a string is its top byte. -/
theorem ofBytes_last (l : List Byte) (x : Byte) : ofBytes (l ++ [x]) = ofBytes l + 2 ^ (8 * l.length) * x.toNat := by
  induction l with
  | nil => simp [ofBytes]
  | cons b t ih =>
    have e : 2 ^ (8 * (b :: t).length) = 2 ^ 8 * 2 ^ (8 * t.length) := by rw [← Nat.pow_add]; congr 1; simp; omega
    simp only [List.cons_append, ofBytes, ih, e, Nat.mul_add, Nat.mul_assoc, Nat.add_assoc]
/-- A line whose last byte is 1 has COUNT 1. -/
theorem line_ok (m : Mem) (a : Nat) (h : m.byte (a + 63) = 1) : lineOk (m.line a) = true := by
  have e : m.bytes a 64 = m.bytes a 63 ++ [1] := by unfold Mem.bytes; rw [List.range_succ]; simp [h]
  have hl : (m.bytes a 63).length = 63 := by simp [Mem.bytes]
  have hb := ofBytes_lt (m.bytes a 63)
  have hc : lineCount (m.line a) = 1 := by
    rw [hl] at hb
    unfold lineCount Mem.line fld
    rw [e, ofBytes_last, hl]
    have h1 : BitVec.toNat (1 : Byte) = 1 := rfl
    simp only [BitVec.toNat_ofNat, bitsAt, h1]
    omega
  simp [lineOk, hc]
/-- Lines of memory that holds no error, on interfaces that stand, each with a COUNT, can be read as an image. -/
theorem reads_clean (n : Nat) (s : State) (a : Nat) (he : s.mem.err = .empty) (hk : s.body.rget MEM_STATUS = 1)
    (hm : ∀ x, s.body.mcOf x = (0, x)) (hb : ∀ j, j < n → s.mem.byte (a + 64 * j + 63) = 1) :
    (imageReads s a n).2.2 = true := by
  induction n generalizing s a with
  | zero => rfl
  | succ n ih =>
    have hf : ∀ k, s.body.mcFail k = false := by
      intro k
      unfold Body.mcFail Body.rbit
      rw [hk]
      have : (1 : Reg32) = 1#32 := rfl
      simp [bit, BitVec.getLsbD_one]
    have h0 : ∀ k, s.mem.errAt k = 0 := by intro k; simp [Mem.errAt, he]; all_goals rfl
    have h1 : lineOk (s.mem.line a) = true := line_ok _ _ (by simpa using hb 0 (by omega))
    have ha : mcKey (s.body.mcOf a).1 (s.body.mcOf a).2 = a := by rw [hm a]; simp [mcKey]
    unfold imageReads devRead mcRead
    simp only [hf, ha, h0, h1, Bool.false_eq_true, if_false, if_true, show ¬ ((0 : Nat) = 2) from by decide]
    apply ih
    · simp [Mem.afterRead, h0, he]
    · exact hk
    · exact hm
    · intro j hj
      have e : a + 64 + 64 * j + 63 = a + 64 * (j + 1) + 63 := by omega
      simp only [Mem.afterRead, h0, e]
      exact hb (j + 1) (by omega)
/-- The tags of lines of one word. -/
def imageCounts (n : Nat) : List (Nat × Byte) := (List.range n).map (fun i => (64 * i + 63, 1))
theorem image_count (n j : Nat) (h : j < n) : lookupIn devDefault (0 + 64 * j + 63) (imageCounts n) = 1 := by
  refine lookupIn_const _ _ _ _ ?_ ?_
  · unfold imageCounts; simp only [List.map_map, List.mem_map, List.mem_range]; exact ⟨j, h, by simp⟩
  · unfold imageCounts; intro e he; obtain ⟨i, -, rfl⟩ := List.mem_map.mp he; rfl
/-- A reload of pair 0 of cove 1 under way. -/
def reloadingOf (l : List (Nat × Byte)) : State :=
  let s := (memAt [(COVE_CTL 1, 0x15), (COVE_STATUS 1, 6)]).on (fun b => b.setCove 1 ⟨[], some 0, false, false⟩)
  { s with mem := { s.mem with dev := ⟨l⟩ } }
theorem reloading_byte (l : List (Nat × Byte)) (k : Nat) : (reloadingOf l).mem.byte k = lookupIn devDefault k l := rfl
/-- Its image is 2,341 lines of one word. -/
def reloading : State := reloadingOf (imageCounts 2341)
theorem witness_ReloadDone :
    (reloading.body.cove 1).loading = some 0 ∧ 0 ≠ reloading.body.rfld (COVE_CTL 1) 2 3 ∧ (imageReads reloading (reloading.body.imageAt 1 0) 2341).2.2 = true := by
  refine ⟨by decide +kernel, by decide +kernel, ?_⟩
  have ha : reloading.body.imageAt 1 0 = 0 := by decide +kernel
  have hz : reloading.body.mcCount = 1 := by decide +kernel
  have hi : reloading.body.rbit MEM_CTL 1 = true := by decide +kernel
  rw [ha]
  refine reads_clean 2341 _ _ rfl (by decide +kernel) ?_ ?_
  · intro x
    unfold Body.mcOf
    simp only [hi, hz, if_true, Prod.mk.injEq]
    omega
  · intro j hj
    unfold reloading
    rw [reloading_byte]
    exact image_count 2341 j hj

/-- One descriptor in flight on ring 0, fetched and ready to start. -/
def descAt (s : State) (raw : BitVec 512) (st : DescSt) : State :=
  s.on (fun b => b.setHring 0 { b.hring 0 with descs := [⟨0, 0, raw, st, none, 0, 0, []⟩] })

theorem witness_MicrocodePatches :
    (let s := (eng0 [5, 6] id).on (fun b => { b with udisp := b.udisp.put none 0x10 (some 0x1800), ucode := b.ucode.put none 0x800 (some 0x101654) })
     let w : Word := 0x10#8 ++ fA 3 1 2 0
     s.body.runs 0 = true ∧ fetched s 0 0x10 = (s, none) ∧ (s.eng 0).cont = none ∧ w.extractLsb' 28 8 = 0x10 ∧ s.mem.errAt (storeKey 0 0 false 0x800) = 0 ∧
     r3 (.patchedOpcode 0 w 1) s = (11, 0) ∧
     stopOf (.patchedOpcode 0 w 1) (s.on (fun b => { b with ucode := b.ucode.put none 0x800 (some (7#3 ++ 0#4 ++ 0x55#7 ++ 0#10)) })) = (4, 0x55)) ∧
    (after (.patchedOpcode 0 0 1) (eng0 [] id) = eng0 [] id ∧ opListed 0x9F = false ∧ stopOf (.illegalOp 0 0x9F) (eng0 [] id) = (4, 0x10) ∧
     opListed 0x10 = true ∧ after (.illegalOp 0 0x10) (eng0 [] id) = eng0 [] id) ∧
    (let s := (eng0 [] id).on (fun b => { b with udisp := b.udisp.put none 0x10 (some 0) })
     s.body.udisp.get none 0x10 = some 0 ∧ stopOf (.add 0 0) s = (4, 0x10)) ∧
    (let k := storeKey 15 5 true 255
     let s := { State.reset with mem := { State.reset.mem with err := State.reset.mem.err.put 0 k 2 } }
     s.mem.errAt k = 2 ∧ (after (.controlStoreRewrite 15 5 true 255) s).mem.errAt k = 0) ∧
    (let s : State := (descAt State.reset 5 .active).on (fun b => { b with mcLoads := [⟨0, 0, 1, [], none, 0⟩] })
     let s := s.on (fun b => b.rset FLT_STATUS 0x20)
     mcCheck s ⟨0, 0, 1, [], none, 0⟩ = some (0x11, 0) ∧ (s.body.findDesc 0 0).isSome = true ∧
     ((after (.mcLoadEnd 0 0 0) s).body.hring 0).recs.map (·.status) = [0x11]) := by
  decide +kernel

/-- A patch image of one dispatch record, with a key of zeros in the uncompressed form. -/
def image1 : List Byte :=
  [0x50, 0x43, 0x4D, 0x59, 1, 0, 1, 0, 1, 0, 0, 0, 1, 0, 0, 0, 12, 0, 0, 0] ++ List.replicate 44 0 ++ [4] ++ List.replicate 127 0 ++
    [2, 0, 0x9F, 0, 1, 0, 0, 0, 0, 0x18, 0, 0] ++ List.replicate 96 0
/-- What the spec names by another standard, and the standard image it does not print, have no value in the model: they are the only checks of
R257 that stand between this image and the success clause. -/
theorem witness_MicrocodeAccepted (hk : State.reset.mem.keyOk false (imgKey image1) = true) (hs : imgSigned image1 12 = true)
    (hf : mcFailures [⟨true, 0x9F, [0x1800]⟩] = []) : mcCheck State.reset ⟨0, 0, 1, image1, none, 0⟩ = none := by
  have hp : mcParse image1 = some [⟨true, 0x9F, [0x1800]⟩] := by decide +kernel
  have hb : mcBody image1 = 12 := by decide +kernel
  have h6 : imgFld image1 6 1 = 1 := by decide +kernel
  have h7 : imgFld image1 7 1 = 0 := by decide +kernel
  have h10 : imgFld image1 10 1 = 0 := by decide +kernel
  unfold mcCheck
  generalize image1 = l at *
  simp [hp, hb, h6, h7, h10, hk, hs, hf]

/-- A slot counts in the cycle of HALT and in no later one (R424); a wait has one retired slot, then starved-back ones (R422). -/
theorem test_slot_accounting :
    (let b := (after (.halt 0 0) (eng0 [] id)).body
     b.occurs 0x18 0 = 1 ∧ b.freshCycle.occurs 0x18 0 = 0) ∧
    (let b := (after (.waitev 0 (fA 3 0 0 1)) (eng0 [] id)).body
     b.occurs 0x10 0 = 1 ∧ b.occurs 0x14 0 = 1 ∧ b.occurs 0x18 0 = 1 ∧ b.freshCycle.occurs 0x13 0 = 1 ∧ b.freshCycle.occurs 0x10 0 = 0) := by
  decide +kernel

/-! ### Host interface -/

/-- A device whose window 0 grants everything, memory ready, 64 MiB in use, firmware ready. -/
def hosted (n : Nat) (ws : List (Nat × Reg32)) : State :=
  at_ n n ([(WIN_CTL 0, 3), (WIN_LIMIT_LO 0, 0xFFFFF000), (WIN_LIMIT_HI 0, 0xFF), (MEM_STATUS, 1), (USABLE_MIB, 64), (MEM_CFG, 1), (BOOT_STATUS, 5),
    (MC_VERSION 0, 0x80000000), (RING_CFG 0, 0x606)] ++ ws)

theorem witness_PollingAndDoorbells :
    (let s := hosted 9 []
     s.body.fwReady = true ∧ regsAfter (.reEn 1) s [HST_CTL] = [1] ∧ (after (.reEn 1) s).body.host.nextTick = some 9 ∧
     (after (.reEn 0) (after (.reEn 1) s)).body.host.nextTick = none ∧ regsAfter (.reEn 1) (at_ 0 0 []) [HST_STATUS] = [0x100] ∧
     regsAfter (.glbNudge 1) s [NUDGE_COUNT, POLL_COUNT] = [1, 0] ∧ after .pollTick s = s) ∧
    (let s := (hosted 9 [(HST_CTL, 1)]).on (fun b => { b with host := { b.host with nextTick := some 9 } })
     regsAfter .pollTick s [POLL_COUNT, HST_STATUS] = [1, 1] ∧ (after .pollTick s).body.host.nextTick = some 1009 ∧
     regsAfter .pollTick (s.on (fun b => b.rset HST_STATUS 1)) [POLL_SKIP] = [1] ∧ regsAfter .pollTick (s.on (fun b => b.rset (WIN_CTL 0) 0)) [HST_STATUS] = [0x200] ∧
     after .pollTick { s with clock := { s.clock with cyc := 8 } } = { s with clock := { s.clock with cyc := 8 } } ∧
     regsAfter (.glbNudge 1) s [NUDGE_COUNT, POLL_COUNT] = [1, 1]) ∧
    (let s := hosted 9 [(HST_CTL, 1), (HST_STATUS, 1), (HRING_CTL 255, 1), (RING_CFG 255, 0x606)]
     (after (.summaryReturn (some (2 ^ 255))) s).body.host.pollReads = some [255] ∧ regsAfter (.summaryReturn (some 1)) s [HST_STATUS] = [0] ∧
     regsAfter (.summaryReturn none) s [HST_STATUS] = [0x200] ∧ (after (.glbNudge 1) s).body.host.nudge = true ∧
     (let s := s.on (fun b => { b with host := { b.host with pollReads := some [255] } })
      s.body.host.nudge = false ∧ s.body.rbit (HRING_STATUS 255) 3 = false ∧ (s.body.hring 255).owed = [] ∧ s.body.rfld (RING_CFG 255) 0 5 = 6 ∧
      ((after (.pollEnd (some [64])) s).body.hring 255).prod = 64 ∧ regsAfter (.pollEnd (some [65])) s [HRING_STATUS 255] = [0x20A] ∧
      regsAfter (.pollEnd (some [2 ^ 32])) s [HRING_STATUS 255] = [0x40A] ∧ ((after (.pollEnd (some [2 ^ 63])) s).body.hring 255).cons = 2 ^ 31)) := by
  decide +kernel

/-- The 64 bytes of a descriptor with fields at byte offsets. -/
def mkRaw (ws : List (Nat × Nat)) : BitVec 512 := BitVec.ofNat 512 ((ws.map (fun w => w.2 * 2 ^ (8 * w.1))).sum)
/-- Ring 0 with one descriptor in flight, and its number `d`. -/
def ring0 (ws : List (Nat × Nat)) : State := descAt (hosted 50 []) (mkRaw ws) .fetched
def desc0 (s : State) : Desc := ((s.body.hring 0).descs.headD ⟨0, 0, 0, .ended, none, 0, 0, []⟩)
/-- The records that wait on ring 0 after a command: status and DETAIL0. -/
def recs0 (i : Instr) (s : State) : List (Nat × Nat) := ((after i s).body.hring 0).recs.map (fun x => (x.status, x.d0.toNat))
/-- The premises `readyDesc` puts on the descriptor of ring 0. -/
def ready0 (k : Nat) (s : State) : Prop := readyDesc s.body 0 0 k (desc0 s)

theorem witness_RingsAndRecords :
    (let s := hosted 50 []
     regsAfter (.ringEnable 255 1) s [HRING_CTL 255, HRING_STATUS 255] = [1, 3] ∧ regsAfter (.ringEnable 255 0) s [HRING_CTL 255] = [0] ∧ s.body.nextRing = none ∧
     regsAfter (.ringEnable 255 1) (after (.ringEnable 255 1) s) [HRING_STATUS 255] = [3]) ∧
    (let s := ring0 [(0, 0)]
     recs0 (.ringAbort 0 2) s = [(0xC, 0)] ∧ ready0 0 s ∧ recs0 (.nopDescriptor 0 0) s = [(0, 0)] ∧ recs0 (.nopDescriptor 0 1) s = []) ∧
    (let s := ring0 [(8, 1)]
     s.body.startable 0 0 = some (desc0 s) ∧ (desc0 s).reserved = true ∧ recs0 (.nopDescriptor 0 0) s = [(2, 0)]) ∧
    (recs0 (.badKind 0 0) (ring0 [(0, 15)]) = [(1, 0)]) ∧
    (let s := (hosted 50 [(HRING_CTL 0, 1)]).on (fun b => b.setHring 0 { b.hring 0 with prod := 3 })
     s.body.nextRing = some 0 ∧ s.body.inflightTotal = 0 ∧ s.body.fetchable 0 = 3 ∧ ((after (.descriptorFetch (some [0, 0, 0])) s).body.hring 0).descs.length = 3 ∧
     regsAfter (.descriptorFetch (some [0, 0, 0])) s [RING_FETCH 0] = [3] ∧ regsAfter (.descriptorFetch none) s [HRING_STATUS 0] = [0x80A]) ∧
    (let x : Rec := ⟨0x80, 0, 5, 6, 7, 8, 9, false, none, none⟩
     let s := (hosted 50 []).on (fun b => b.setHring 0 { b.hring 0 with recs := [x] })
     s.body.rfld (RING_CFG 0) 8 5 = 6 ∧ s.body.rbit (HRING_STATUS 0) 3 = false ∧ s.body.rbit (RING_MOD 0) 24 = false ∧
     regsAfter (.completionWrite 0) s [RING_CQ_PROD 0] = [1] ∧
     (after (.completionWrite 0) s).body.out = [.hostWrite 0 (leBytes 4 0x01000080 ++ leBytes 4 5 ++ leBytes 4 6 ++ leBytes 4 7 ++ leBytes 8 8 ++ leBytes 8 9) false] ∧
     regsAfter (.completionWrite 0) (s.on (fun b => b.rset (RING_CQ_PROD 0) 64)) [HRING_STATUS 0] = [6]) ∧
    (let s := (hosted 1050 [(RING_MOD 0, 0x01000100), (MSIX_CTL 0, 0)]).on (fun b => b.setHring 0 { b.hring 0 with t0 := some 50 })
     (after (.irqModTime 0) s).body.out.length = 1 ∧ (after (.irqModTime 0) { s with clock := { s.clock with cyc := 1049 } }).body.out = [] ∧
     regsAfter (.irqModTime 0) (s.on (fun b => b.rset (MSIX_CTL 0) 1)) [MSIX_PBA 0] = [1]) ∧
    (let s := hosted 50 [(MSIX_PBA 1, 0x80000000), (MSIX_CTL 63, 1)]
     regsAfter (.msixUnmask 63 0) s [MSIX_CTL 63, MSIX_PBA 1] = [0, 0] ∧ (after (.msixUnmask 63 0) s).body.out.length = 1) := by
  unfold ready0 readyDesc; decide +kernel

/-- A packed line of two words, 11 and 12 (R7). -/
def line2 : BitVec 512 := 11 ||| (12 <<< 36) ||| (2 <<< 504)
theorem witness_LoadsAndCopies :
    let s (k off dest : Nat) := ring0 [(0, k), (16, 2), (20, off), (24, dest)]
    ((line2.extractLsb' 504 4).toNat = 2 ∧ ready0 1 (s 1 0xFFFFE 15) ∧ (s 1 0 0).body.winOk 0 64 false = true ∧
      (after (.loadProgram 0 0 [some line2]) (s 1 0xFFFFE 15)).mem.word (sharedAddr 15 0xFFFFF) = 12 ∧
      (after (.loadProgram 0 0 [some line2]) (s 1 0x7FFE (32 * 11 + 16 + 15))).mem.word (localAddr 191 0x7FFE) = 11 ∧
      recs0 (.loadProgram 0 0 [some line2]) ((s 1 0 16).on (fun b => b.rset (ENG_STATUS 0) 2)) = [(5, 0)] ∧
      (after (.loadEnvelope 0 0 [some line2]) (s 2 0x7FFE 79)).mem.word (envAddr 79 0x7FFF) = 12 ∧
      recs0 (.loadEnvelope 0 0 [some line2]) (s 2 0 80) = [(4, 0)] ∧ recs0 (.loadEnvelope 0 0 [some line2]) (s 2 0x7FFF 79) = [(3, 0)] ∧
      (after (.loadKernel 0 0 [some line2]) (s 3 0x7FFE 15)).mem.word (kernAddr 15 0x7FFF) = 12 ∧
      (after (.loadTable 0 0 [some line2]) (s 4 0xFFFFE 0)).mem.word (tableAddr 0xFFFFF) = 12 ∧ recs0 (.loadTable 0 0 [some line2]) (s 4 0 0) = [(0, 0)] ∧
      recs0 (.loadTable 0 0 [some line2]) ((s 4 0 0).on (fun b => b.rset (WIN_CTL 0) 0)) = [(6, 0)] ∧ recs0 (.loadTable 0 0 [none]) (s 4 0 0) = [(7, 0)] ∧
      ready0 4 (ring0 [(0, 4)]) ∧ recs0 (.loadTable 0 0 [some line2]) (ring0 [(0, 4)]) = [(2, 0)]) ∧
    (let s := ring0 [(0, 6), (16, 64 * 2 ^ 20 - 64), (24, 64)]
     ready0 6 s ∧ s.body.memReady = true ∧ s.body.mcFail (s.body.mcOf (64 * 2 ^ 20 - 64)).1 = false ∧
     (after (.copy 0 0 [some line2]) s).mem.line (s.body.devKey (64 * 2 ^ 20 - 64)) = line2 ∧ recs0 (.copy 0 0 [some line2]) s = [(0, 0)]) ∧
    (let s := ring0 [(0, 6), (16, 0), (24, 64), (28, 1)]
     ready0 6 s ∧ (after (.copy 0 0 []) s).body.out = [.hostWrite 0 (List.replicate 64 0) true]) := by
  unfold ready0 readyDesc; decide +kernel

/-- A binding of FIFO 15 of cove 15, both halves in place. -/
def bound (st : List Staged) : Binding := ⟨0, 0, 0, 7, true, 0, 7, false, 0, 0, st, [], none, none, false, false⟩
def kinds0 (i : Instr) (s : State) : List (Nat × Nat) := ((after i s).body.hring 0).recs.map (fun x => (x.kind, x.status))
def fifoAt (ws : List (Nat × Nat)) (x : Fifo) : State := (ring0 ws).on (fun b => b.setFifo 15 15 x)

theorem witness_BindingsAndStaging :
    (let bindD (k : Nat) : List (Nat × Nat) := [(0, 7), (24, 255), (25, 7), (26, 7), (27, k)]
     (let s := ring0 (bindD 0)
      ready0 7 s ∧ s.body.bindStatus (desc0 s) false = 0 ∧ ((after (.resultBind 0 0) s).body.fifo 15 15).bind = some (bound []) ∧
      recs0 (.bindKeepStaged 0 0) (ring0 (bindD 2)) = [(4, 0)] ∧ recs0 (.unbind 0 0) (ring0 (bindD 1)) = [(4, 0)]) ∧
     (let s := fifoAt (bindD 0) { Fifo.reset with bind := some (bound []) }
      (desc0 s).bindBad = false ∧ s.body.bindStatus (desc0 s) false = 5 ∧ recs0 (.resultBind 0 0) s = [(5, 0)]) ∧
     (let s := fifoAt (bindD 2) { Fifo.reset with bind := some { bound [] with lost := false, host := false } }
      s.body.bindStatus (desc0 s) true = 0 ∧ recs0 (.bindKeepStaged 0 0) s = [(0, 0)]) ∧
     (let s := fifoAt (bindD 1) { Fifo.reset with bind := some (bound []) }
      s.body.rget (FIFO_STAGED 15 15) = 0 ∧ (s.body.hring 0).owed = [] ∧ ((after (.unbind 0 0) s).body.fifo 15 15).bind = none) ∧
     (let s := fifoAt (bindD 1) { Fifo.reset with bind := some { bound [] with unbind := some (0, 9) } }
      recs0 (.unbind 0 0) s = [(5, 0)])) ∧
    (let p : Packet := ⟨[(7, false)], 50, 0⟩
     (let s := fifoAt [] { Fifo.reset with done := [p] }
      s.body.nextPacket s.clock 15 = some (15, p) ∧ regsAfter (.packPacket 15) s [FIFO_DROP_COUNT 15 15] = [1] ∧
      (hosted 50 []).body.nextPacket (hosted 50 []).clock 15 = none) ∧
     (let s := fifoAt [] { Fifo.reset with done := [p], bind := some (bound []) }
      regsAfter (.packPacket 15) s [FIFO_STAGED 15 15] = [1] ∧ (after (.packPacket 15) s).body.occurs 0x41 0 = 1 ∧ (after (.packPacket 15) s).mem.line (s.body.devKey 0) = packLine [7] true true false) ∧
     (let s := (fifoAt [] { Fifo.reset with done := [p], bind := some (bound []) }).on (fun b => b.rset (FIFO_STAGED 15 15) 128)
      regsAfter (.packPacket 15) s [FIFO_DROP_COUNT 15 15] = [1])) ∧
    (let u := fifoAt [] { Fifo.reset with bind := some (bound [⟨0, 1, false, 0⟩]) }
     let s := { u with mem := u.mem.putLine (u.body.devKey 0) (packLine [7] true true false) }
     lineOk (u.mem.line (u.body.devKey 0)) = false ∧ kinds0 (.drainPacket 15 15) u = [(0x80, 8)] ∧ (after (.drainPacket 15 15) u).body.out = [] ∧
     lineOk (s.mem.line (s.body.devKey 0)) = true ∧ s.body.mcFail (s.body.mcOf 0).1 = false ∧ s.mem.errAt (s.body.devKey 0) = 0 ∧ regsAfter (.drainPacket 15 15) s [FIFO_HOST_USED 15 15] = [1] ∧ (after (.drainPacket 15 15) s).body.occurs 0x42 0 = 1 ∧
     ((after (.drainPacket 15 15) s).body.hring 0).recs.map (·.kind) = [0x80]) ∧
    (after (.drainPacket 15 15) (hosted 50 []) = hosted 50 []) ∧
    (let s := fifoAt [] { Fifo.reset with open_ := some ⟨none, []⟩ }
     s.body.rget (FIFO_CTL 15 15) = 16 ∧ s.body.otherDepths 15 15 + 16 = 256 ∧ regsAfter (.flush 15 15 0x10010) s [FIFO_CUT_COUNT 15 15] = [1] ∧
     regsAfter (.flush 15 15 0x11) s [MEM_STATUS] = [0x101] ∧ regsAfter (.flush 15 15 0) s [MEM_STATUS] = [0x101]) := by
  unfold ready0 readyDesc; decide +kernel

def runD (op cmd : Nat) : State := ring0 [(0, 8), (8, op), (9, cmd), (10, 1), (12, 1)]
def fenceD (sc w : Nat) : State := ring0 [(0, 14), (8, sc), (10, w)]
def timeD (op n w off : Nat) : State := ring0 [(0, 9), (8, op), (9, w), (10, n), (24, off), (28, 5)]
def queryD (n : Nat) : State := ring0 [(0, 13), (16, n), (20, SHOT_EPOCH)]
theorem witness_RunControl :
    ready0 8 (runD 1 1) ∧ (desc0 (runD 1 1)).named = [0] ∧ ((runD 1 1).body.engCommand 0 1).2 = false ∧ recs0 (.engine 0 0) (runD 1 1) = [(0, 0)] ∧
    ((runD 1 2).body.engCommand 0 2).2 = true ∧ recs0 (.engine 0 0) (runD 1 2) = [(0xA, 1)] ∧ recs0 (.engine 0 0) (runD 1 4) = [(2, 0)] ∧
    recs0 (.engine 0 0) (runD 5 0) = [(2, 0)] ∧ (runD 2 0).body.rbit TIDE_STATUS 8 = false ∧ recs0 (.gridStart 0 0) (runD 2 0) = [(0xA, 0)] ∧
    recs0 (.gridStop 0 0) ((runD 3 0).on (fun b => b.rset TIDE_STATUS 3)) = [(0, 0)] ∧ recs0 (.waitStopped 0 0) (runD 4 0) = [(0, 0)] ∧
    ((after (.waitStopped 0 0) ((runD 4 0).on (fun b => b.rset (ENG_STATUS 0) 2))).body.findDesc 0 0).map (·.st) = some .active := by
  unfold ready0 readyDesc; decide +kernel
theorem witness_TimeoutAndFence :
    (let s := (hosted 50 []).on (fun b => b.setHring 0 { b.hring 0 with descs := [⟨0, 0, 8, .active, some 50, 0, 0, []⟩] })
     s.body.findDesc 0 0 = some (desc0 s) ∧ recs0 (.descTimeout 0 0) s = [(0xB, 0)] ∧
     recs0 (.descTimeout 0 0) { s with clock := { s.clock with cyc := 49 } } = [] ∧ s.body.findDesc 0 1 = none) ∧
    ready0 14 (fenceD 0 0) ∧ recs0 (.fence 0 0) (fenceD 2 0) = [(2, 0)] ∧ recs0 (.fence 0 0) (fenceD 0 3) = [(2, 0)] ∧ recs0 (.fence 0 0) (fenceD 0 2) = [(0xA, 0)] ∧
    ((after (.fence 0 0) (fenceD 1 1)).body.findDesc 0 0).map (·.st) = some .active ∧ recs0 (.fenceDone 0 0) (descAt (hosted 50 []) 14 .active) = [(0, 0)] := by
  unfold ready0 readyDesc; decide +kernel
theorem witness_TimeControlAndQuery :
    ready0 9 (timeD 0 1 0 SLOT_PEEK_SEL) ∧ recs0 (.writes 0 0) (timeD 0 6 0 SLOT_PEEK_SEL) = [(2, 0)] ∧ recs0 (.writes 0 0) (timeD 0 1 3 SLOT_PEEK_SEL) = [(2, 0)] ∧
    recs0 (.writes 0 0) (timeD 0 1 0 0x1FFFC) = [(4, 0)] ∧ recs0 (.writes 0 0) (timeD 0 1 0 0x20000) = [] ∧
    (let s := after (.writes 0 0) (timeD 0 1 0 SLOT_PEEK_SEL)
     s.body.waitingWrites = [(0, desc0 s)] ∧ s.body.whenHolds s.clock (desc0 s) = true ∧ s.body.host.landings = [] ∧
     regsAfter .timeControlDue s [SLOT_PEEK_SEL] = [5] ∧ recs0 .timeControlDue s = [(0, 0)]) ∧
    (let s := (timeD 1 0 0 0).on (fun b => b.rset TIDE_STATUS 1)
     s.body.anchorAllowed s.clock = true ∧ (after (.timeControlAnchor 0 0) s).body.grid.anchorAt.isSome = true ∧
     recs0 (.timeControlAnchor 0 0) (s.on (fun b => b.rset TIDE_STATUS 3)) = [(0xA, 0)] ∧
     (s.on (fun b => b.rset TIDE_STATUS 3)).body.anchorAllowed s.clock = false) ∧
    recs0 (.timeControlAnchor 0 0) (timeD 1 0 3 0) = [(2, 0)] ∧ recs0 (.timeControlAnchor 0 0) (timeD 1 0 2 0) = [(0xA, 0)] ∧
    (let s := (timeD 1 0 1 0).on (fun b => b.rset TIDE_STATUS 3)
     (desc0 s).mask = 0 ∧ (desc0 s).fld 9 8 = 1 ∧ ((after (.timeControlAnchor 0 0) s).body.findDesc 0 0).map (·.st) = some .active ∧
     recs0 (.timeControlAnchor 0 0) s = []) ∧
    (let s := (descAt (hosted 50 [(TIDE_STATUS, 1)]) (mkRaw [(0, 9), (8, 1)]) .active).on
       (fun b => b.setHring 0 { b.hring 0 with descs := (b.hring 0).descs.map (fun d => { d with mask := 1 }) })
     recs0 (.timeControlAnchor 0 0) s = [(0, 0)]) ∧
    ready0 13 (queryD 1) ∧ recs0 (.query 0 0) (queryD 11) = [(2, 0)] ∧ recs0 (.query 0 0) (ring0 [(0, 13)]) = [(2, 0)] ∧
    (after (.query 0 0) (queryD 1)).body.out = [.hostWrite 0 (leBytes 4 0) true] ∧ recs0 (.query 0 0) (queryD 1) = [(0, 0)] := by
  unfold ready0 readyDesc; decide +kernel

/-! ### Calibration, fuses, the scope, memory -/

/-- The supplies in range and Harbour serving (R374, R412). -/
def env (s : State) : State := (s.on (fun b => (b.rset FLT_STATUS 0x20))).on (fun b => { b with pwr := { b.pwr with rails := 0x1FFFF } })
def calD (ws : List (Nat × Nat)) : State := ring0 ((0, 10) :: ws)
/-- DAC_DELAY of P output 15, on tile 3. -/
def calRuns (kind cls idx : Nat) (apply : Bool) : State :=
  (descAt (hosted 50 [(FLT_STATUS, 0x20)]) 10 .active).on (fun b =>
    { b with cal := { b.cal with runs := [⟨⟨some (0, 0), kind, cls, idx, 0, apply, false, 0, 0⟩, 3, 9, 9⟩] } })
def calWaits (cls : Nat) : State :=
  (descAt (hosted 50 [(FLT_STATUS, 0x20)]) 10 .active).on (fun b => { b with cal := { b.cal with queue := [⟨some (0, 0), 0x10, cls, 15, 0, true, false, 0, 0⟩] } })

theorem witness_Calibration :
    (let s := calD [(8, 2), (9, 2), (10, 15)]
     ready0 10 s ∧ s.body.calStatus ((desc0 s).calReq 0) = 2) ∧
    (let s := calD [(8, 2), (9, 1), (10, 15), (11, 1)]
     ready0 10 s ∧ s.body.calStatus ((desc0 s).calReq 0) = 0 ∧ (after (.calibrate 0 0) s).body.cal.queue.length = 1 ∧ recs0 (.calibrate 0 0) s = []) ∧
    recs0 (.calibrate 0 0) (calD [(8, 2), (9, 6), (10, 15)]) = [(4, 0)] ∧ recs0 (.calibrate 0 0) (calD [(8, 2), (9, 5), (10, 3)]) = [(2, 0)] ∧
    recs0 (.calibrate 0 0) (calD [(8, 2), (9, 1), (10, 16)]) = [(4, 0)] ∧ recs0 (.calibrate 0 0) (calD [(8, 2), (9, 1), (16, 64), (24, 67)]) = [(3, 0)] ∧
    (let s := calWaits 2
     let t := s.on (fun b => b.rset (RCV_STATUS 15) 2)
     let q : CalReq := ⟨some (0, 0), 0x10, 2, 15, 0, true, false, 0, 0⟩
     s.body.cal.queue = [q] ∧ s.body.calCanStart s.clock q = true ∧ t.body.calCanStart t.clock q = true ∧ s.body.gridRun = false ∧
     regsAfter (.calStart []) t [RCV_STATUS 15] = [0xA] ∧ (after (.calStart []) t).body.cal.runs.map (·.tile) = [3] ∧ t.body.calReady 2 15 = true ∧
     s.body.calReady 2 15 = false ∧ recs0 (.calStart []) s = [(5, 0)]) ∧
    after (.calStart []) (hosted 50 []) = hosted 50 [] ∧
    (let s := calRuns 2 1 15 true
     recs0 (.calEnd 3 [511] false 0 0 0 false) s = [(0, 0)] ∧ regsAfter (.calEnd 3 [513] false 0 0 0 false) s [CAL_DONE_COUNT] = [1] ∧
     (after (.calEnd 3 [513] false 0 0 0 false) s).body.corr 2 1 15 0 = 512 ∧
     (after (.calEnd 3 [-513] false 0 0 0 false) (s.on (fun b => b.rset TIDE_STATUS 3))).body.cal.pend = [(corrKey 2 1 15 0, -512)] ∧
     after (.calEnd 2 [1] false 0 0 0 false) s = s) ∧
    (let s := (calRuns 0x11 2 15 true).on (fun b => b.rset TIDE_STATUS 3)
     regsAfter (.calEnd 3 [] false 4001 0 384 false) s [CAL_FAIL_COUNT] = [1] ∧ recs0 (.calEnd 3 [] false 4001 0 384 false) s = [(0x20, 0)] ∧
     regsAfter (.calEnd 3 [] false 4000 0 384 false) s [CAL_DONE_COUNT] = [1]) ∧
    after (.calEnd 0 [1] false 0 0 0 false) (hosted 50 []) = hosted 50 [] := by
  unfold ready0 readyDesc; decide +kernel

/-- A generation image of no records (R371): its CRC-32, of 2,032 bytes, was worked out apart from the model. -/
def genLines : List (BitVec 512) := BitVec.ofNat 512 (0x4E454746 + 2 ^ 32) :: List.replicate 30 0 ++ [BitVec.ofNat 512 (0xcd79a024 * 2 ^ 384)]
def fuseD (ws : List (Nat × Nat)) : State := env (ring0 ((0, 11) :: ws))
def writing (gen : Option Nat) (todo all : List (Nat × BitVec 64)) (marker : Bool) : State :=
  (env (descAt (hosted 50 []) 11 .active)).on (fun b => { b with fuseWr := some ⟨some (0, 0), gen, todo, all, marker, true⟩ })
/-- A supply out of range. -/
def cold (s : State) : State := s.on (fun b => { b with pwr := { b.pwr with rails := 0 } })
def left (s : State) : Option (List Nat × Bool) := s.body.fuseWr.map (fun x => (x.todo.map (·.1), x.marker))

theorem witness_FuseCommits :
    (let s := fuseD [(16, 1)]
     ready0 11 s ∧ (desc0 s).aux = 0 ∧ s.body.winOk 0 64 false = true ∧ s.mem.slotBlank 3 = true ∧ s.body.envOk = true ∧ s.body.fuseWr = none ∧
     left (after (.fuseCommitKey 0 0 [some 5]) s) = some ([56, 57, 58, 59, 60, 61, 62], false) ∧
     recs0 (.fuseCommitKey 0 0 [some 5]) (cold s) = [(0x28, 0)] ∧ recs0 (.fuseCommitKey 0 0 [some 5]) (s.on (fun b => b.rset (TEMP 23) 681)) = [(0x28, 0)] ∧
     (let t : State := { s with mem := { s.mem with fuse := s.mem.fuse.put 0 56 1 } }
      t.mem.slotBlank 3 = false ∧ t.mem.slotValid 3 = false ∧ recs0 (.fuseCommitKey 0 0 [some 5]) t = [(0x29, 0)])) ∧
    recs0 (.fuseCommit 0 0 []) (fuseD [(16, 2)]) = [(4, 0)] ∧
    (let s := fuseD [(16, 0)]
     ready0 11 s ∧ genLines.length = 32 ∧ s.mem.blankGen = some 0 ∧ s.body.winOk 0 2048 false = true ∧ recs0 (.fuseCommit 0 0 (List.replicate 32 (some 0))) s = [(0x2A, 0)]) := by
  unfold ready0 readyDesc; decide +kernel

/-- The CRC-32 register after each line of the image but its last: worked out apart from the model. -/
def crcSteps : List (BitVec 32) := [0x2448d562, 0x23f738c5, 0xde90509b, 0xe086ff1, 0x4e7b4fb0, 0xfae93fb1, 0x3754c267, 0x16dfa5ab, 0x2c585433, 0xcfd6e2ab, 0xda70c988, 0xe6205ef0, 0x53bd02cf, 0xcf81001b, 0xc011ddf0, 0x3422fb99, 0xd589da3c, 0xaad8e5ed, 0xc152704b, 0x1955b0a8, 0x82132ef8, 0xe95d8a32, 0x9eb42c32, 0x1e4a4a97, 0x7428bcc9, 0xb43be92a, 0x501bfcea, 0xb5a66566, 0x3adbd7b5, 0x6dc6983c, 0x7e1f9c63]
def crcOver (x : BitVec 32) (l : List Byte) : BitVec 32 := l.foldl (fun x y => crcStep (x ^^^ y.setWidth 32) 8) x
theorem crcSteps_hold : ∀ i : Fin 30, crcOver (crcSteps.getD i 0) (List.replicate 64 0) = crcSteps.getD (i + 1) 0 := by decide +kernel
theorem crcStart_holds : crcOver 0xFFFFFFFF (lineBytes (genLines.getD 0 0)) = crcSteps.getD 0 0 := by decide +kernel
theorem crcEnd_holds : ~~~ crcOver (crcSteps.getD 30 0) (List.replicate 48 0) = 0xcd79a024 := by decide +kernel
theorem crc_lines (x : BitVec 32) (l : List Byte) (n k : Nat) (h : k + n ≤ 30) (hx : crcOver x l = crcSteps.getD k 0) :
    crcOver x (l ++ (List.replicate n (List.replicate 64 (0 : Byte))).flatten) = crcSteps.getD (k + n) 0 := by
  induction n generalizing l k with
  | zero => simpa using hx
  | succ n ih =>
    have h1 := ih (l ++ List.replicate 64 0) (k + 1) (by omega) (by
      rw [crcOver, List.foldl_append]; change crcOver (crcOver x l) _ = _; rw [hx]; exact crcSteps_hold ⟨k, by omega⟩)
    rw [List.replicate_succ, List.flatten_cons, ← List.append_assoc, h1]; congr 1; omega
theorem genImage_ok : genImageOk (genLines.map lineBytes).flatten = true := by
  have hl : ((genLines.map lineBytes).flatten).take 2032 =
      (lineBytes (genLines.getD 0 0) ++ (List.replicate 30 (List.replicate 64 (0 : Byte))).flatten) ++ List.replicate 48 0 := by decide +kernel
  have hc : crc32 (((genLines.map lineBytes).flatten).take 2032) = 0xcd79a024 := by
    rw [hl, crc32, List.foldl_append]
    change ~~~ crcOver (crcOver _ _) _ = _
    rw [crc_lines _ _ 30 0 (by omega) crcStart_holds]; exact crcEnd_holds
  rw [genImageOk, hc]; decide +kernel
theorem witness_NoBlankGeneration :
    ((List.range 16).foldl (fun f g => f.put 0 (areaWord g) 1) SMap.empty |> fun f => ({ State.reset.mem with fuse := f } : Mem).blankGen) = none := by
  decide +kernel

theorem witness_FuseWords :
    (let s := writing (some 15) [(1024, 3), (1025, 1)] [(1024, 3), (1025, 1)] false
     left (after (.fuseWordWritten 0) s) = some ([1025], false) ∧ (after (.fuseWordWritten 1) s).mem.fuseWord 1024 = 2 ∧
     recs0 (.fuseWordWritten 0) (cold s) = [(0x28, 271)] ∧ (cold s).body.envOk = false) ∧
    (let s := writing (some 15) [(1025, 1)] [(1025, 1)] false
     left (after (.fuseWordWritten 0) s) = some ([5119], true) ∧ recs0 (.fuseWordWritten 1) s = [(0x2B, 0)]) ∧
    (let s := writing none [(62, 1)] [(62, 1)] false
     recs0 (.fuseWordWritten 0) s = [(0, 0)]) ∧
    (let s := writing (some 15) [(5119, 0xA55AC33C0FF09669)] [(1025, 1)] true
     recs0 (.fuseWordWritten 0) s = [(0, 15)] ∧ (after (.fuseWordWritten 0) s).mem.fuseWord 5119 = 0xA55AC33C0FF09669) ∧
    after (.fuseWordWritten 0) (hosted 50 []) = hosted 50 [] := by
  decide +kernel

/-- Unit 15 set up on D output 63, an edge trigger, one line of PRE and one of POST, one record; SCOPE_ARM with the listed fields waits on ring 0. -/
def unitUp (ws : List (Nat × Nat)) (rs : List (Nat × Reg32)) : State :=
  descAt (hosted 50 ([(U_CTL 15, BitVec.ofNat 32 (2 + 63 * 8 + 3 * 2 ^ 19)), (U_PRE 15, 1), (U_POST 15, 1), (U_RECORDS 15, 1)] ++ rs))
    (mkRaw ([(0, 12), (10, 2 ^ 15)] ++ ws)) .fetched
/-- Fourteen points of line `l` of a one-point-a-word source. -/
def ptsOf (l : Nat) : List ScopePt := (List.range 14).map (fun i => ⟨14 * l + i, 14 * l + i, 0, 0, 0, i == 13, false, false, 100, 7⟩)
/-- Unit 15 FILLING or WAITING with a whole line of points in its die buffer. -/
def filled (st : Nat) (rs : List (Nat × Reg32)) : State :=
  (unitUp [] ((U_STATUS 15, BitVec.ofNat 32 st) :: rs)).on (fun b => b.setUnit 15 { ScopeUnit.reset with
    first := 2, next := 2, take := 3, buf := [.line (ptsOf 2) (-1)] })
/-- The same unit with a whole line taken and `n` lines in its buffer. -/
def taken (n : Nat) : State :=
  (filled 1 []).on (fun b => b.setUnit 15 { ScopeUnit.reset with take := 3, cur := ptsOf 3 ++ ptsOf 4, buf := List.replicate n (.line [] 0) })
def uOf (i : Instr) (s : State) : Nat × Nat × Nat × Nat :=
  let t := (after i s).body; (t.uState 15, (t.unit 15).next, (t.unit 15).cur.length, (t.unit 15).pts.length)

theorem witness_ScopeArms :
    (let s := unitUp [] []
     s.body.armFails (2 ^ 15) = 0 ∧ s.body.memReady = true ∧ (s.body.unit 15).ends = [] ∧ uOf (.unitArm 15 1) s = (1, 4, 0, 0) ∧
     regsAfter (.unitArm 15 1) s [RATE_USED] = [12288] ∧ uOf (.unitArm 15 1) (unitUp [] [(U_PRE 15, 0), (U_POST 15, 2)]) = (2, 4, 0, 0) ∧
     regsAfter (.unitArm 15 1) (unitUp [] [(MEM_STATUS, 0)]) [U_STATUS 15] = [0x100] ∧ regsAfter (.unitArm 15 1) (unitUp [] [(U_CTL 15, 6)]) [SCOPE_STATUS] = [0x100] ∧
     (unitUp [] [(U_CTL 15, 6)]).body.armFails (2 ^ 15) = 2 ^ 15 ∧ regsAfter (.unitArm 15 3) s [U_STATUS 15] = [0x100] ∧
     regsAfter (.unitArm 15 7) s [SCOPE_STATUS] = [0x100] ∧ regsAfter (.unitForce 15 4) s [U_STATUS 15] = [0x100] ∧
     uOf (.unitDisarm 15 2) (filled 2 []) = (0, 0, 0, 0) ∧ ((after (.unitForce 15 4) (filled 1 [])).body.unit 15).force = some 50) := by
  decide +kernel

theorem witness_ScopeDescriptors :
    (let s := unitUp [] []
     ready0 12 s ∧ uOf (.scopeArm 0 0) s = (1, 4, 0, 0) ∧ recs0 (.scopeArm 0 0) s = [] ∧
     recs0 (.scopeArm 0 0) (unitUp [] [(U_CTL 15, 6)]) = [(0xA, 2 ^ 15)] ∧ recs0 (.scopeArm 0 0) (unitUp [(8, 3)] []) = [(2, 0)] ∧
     recs0 (.scopeArm 0 0) (unitUp [] [(MEM_STATUS, 0)]) = [(5, 0)] ∧ recs0 (.scopeDisarm 0 0) (unitUp [(8, 1)] [(MEM_STATUS, 0)]) = [(5, 0)] ∧
     recs0 (.scopeForce 0 0) (unitUp [(8, 2)] [(MEM_STATUS, 0)]) = [(5, 0)] ∧ ready0 12 (unitUp [(8, 1)] []) ∧
     recs0 (.scopeDisarm 0 0) (unitUp [(8, 1)] []) = [(0, 0)] ∧ recs0 (.scopeForce 0 0) (unitUp [(8, 2)] []) = [(0xA, 2 ^ 15)] ∧
     recs0 (.scopeForce 0 0) (unitUp [(8, 2)] [(U_STATUS 15, 2)]) = [(0, 0)] ∧ ready0 12 (unitUp [(8, 2)] [(U_STATUS 15, 2)])) := by
  unfold ready0 readyDesc; decide +kernel

theorem witness_ScopeLines :
    (let s := filled 1 [(U_TRIG_LEVEL 15, 200)]
     uOf (.scopeLine 15 0 2) s = (2, 3, 0, 14) ∧ ((after (.scopeLine 15 0 2) s).mem.line (s.body.devKey 0)).extractLsb' 0 36 = 0x1900007 ∧
     s.body.mcFail (s.body.mcOf 0).1 = false ∧
     (let x := s.body.unit 15
      let new := (ptsOf 2).map (s.body.formPoint 15 2 0)
      s.body.srcOn 15 = true ∧ s.body.uEff 15 = x.a ∧ new.find? (·.forced) = none ∧
      (s.body.trigTest 15 x ((x.pts ++ new).filter (fun p => decide (28 ≤ p.idx))) new).2.2 = none)) ∧
    uOf (.scopeLine 15 0 2) (filled 1 [(U_TRIG_LEVEL 15, 100), (U_POST 15, 2)]) = (3, 3, 0, 14) ∧ after (.scopeLine 15 0 0) (unitUp [] []) = unitUp [] [] ∧
    (let s := taken 31
     let t := s.body.closeLine 15 56
     (s.body.unit 15).lines = 31 ∧ (t.unit 15).lines = 32 ∧ (t.unit 15).take = 4 ∧ (t.unit 15).cur = ptsOf 4) ∧
    (let t := (taken 32).body.closeLine 15 56
     ((taken 32).body.unit 15).lines = 32 ∧ t.rget SCOPE_OVERRUN_COUNT = 1 ∧ t.rget SCOPE_STATUS = 0x400 ∧ (t.unit 15).lines = 32 ∧
     (t.unit 15).buf.getLast? = some .over) ∧
    after (.scopeRecordEnd 15) (unitUp [] []) = unitUp [] [] ∧
    (let s := (hosted 50 [(U_STATUS 15, 3)]).on (fun b => b.setUnit 15 { ScopeUnit.reset with ends := [⟨64, List.replicate 64 5, true, false⟩] })
     uOf (.scopeRecordEnd 15) s = (4, 0, 0, 0) ∧ (after (.scopeRecordEnd 15) s).mem.bytes (s.body.devKey 64) 64 = List.replicate 64 5 ∧
     regsAfter (.scopeRecordEnd 15) s [U_STATUS 15] = [0x10004]) := by
  decide +kernel

/-- An interface 0 that scrubs, with an error of the listed kind (R305) on its last line but none. -/
def scrubs (e : Nat) : State :=
  let s := hosted 50 [(MEM_CTL, 1)]
  { s with mem := { s.mem with err := s.mem.err.put 0 (mcKey 0 (64 * 2 ^ 20 - 64)) e } }
theorem witness_MemoryAndHostResets :
    (let s := at_ 50 50 [(FLT_STATUS, 0x20), (BOOT_MEMCFG, 3)]
     s.body.memReady = false ∧ regsAfter (.memTrainingDone 15 5 3) s [USABLE_MIB, MEM_CFG, MEM_STATUS, MC_STATUS 3] = [172032, 0x35F, 1, 1] ∧
     regsAfter (.memTrainingDone 1 0 0) s [USABLE_MIB, MC_STATUS 3] = [7168, 0] ∧ after (.memTrainingDone 1 0 3) (at_ 5 5 [(BOOT_MEMCFG, 2)]) = at_ 5 5 [(BOOT_MEMCFG, 2)]) ∧
    after .driftTrack (hosted 50 []) = hosted 50 [] ∧
    (let a := 64 * 2 ^ 20 - 64
     let at_ := fun (e : Nat) => (scrubs e).on (fun b => { b with scrubAt := 2 ^ 20 - 1 })
     let read : Instr := .scrubRead 0 a true
     after (.scrubRead 0 a false) (at_ 0) = at_ 0 ∧ after (.scrubRead 1 a true) (at_ 0) = at_ 0 ∧
     (scrubs 0).body.mcSize = a + 64 ∧ (scrubs 0).body.usable = a + 64 ∧ (scrubs 0).body.mcFail 0 = false ∧
     regsAfter read (at_ 0) [SCRUB_PASS] = [1] ∧ (after read (at_ 0)).body.scrubAt = 0 ∧ (after (.scrubRead 0 0 false) (scrubs 0)).body.scrubAt = 1 ∧
     regsAfter read (at_ 1) [ECC_CORR_COUNT] = [1] ∧ (after read (at_ 1)).mem.errAt a = 0 ∧
     regsAfter read (at_ 2) [ECC_UNCORR_COUNT, MEM_STATUS] = [1, 0x2001] ∧
     (let s := (at_ 2).on (fun b => { b with badLines := b.badLines.put [] 0 [a] })
      (after read s).body.host = s.body.host ∧ (after read s).body.badLines = s.body.badLines) ∧
     after read (hosted 50 [(MEM_CTL, 0)]) = hosted 50 [(MEM_CTL, 0)]) ∧
    (let s := (hosted 50 []).on (fun b => b.setFifo 15 15 { Fifo.reset with bind := some ⟨0, 0, 0, 7, true, 0, 7, false, 0, 0, [], [], none, none, false, false⟩ })
     s.body.touches 0 (64 * 2 ^ 7) 0 = true ∧ regsAfter (.interfaceFail 0 true false) s [MEM_STATUS, MC_STATUS 0, FLT_STATUS] = [0x4011, 4, 0x100000] ∧
     ((after (.interfaceFail 0 false true) s).body.fifo 15 15).bind.map (·.lost) = some true ∧ after (.interfaceFail 3 true true) s = s ∧
     regsAfter (.interfaceFail 3 true false) (hosted 50 [(MEM_STATUS, 0), (MEM_CFG, 0)]) [MC_STATUS 3] = [4] ∧
     ((after .hostReset s).body.fifo 15 15).bind.map (·.host) = some false ∧ regsAfter .hostReset s [RING_CFG 0] = [0x404]) ∧
    (let s := hosted 50 []
     s.body.usable = 64 * 2 ^ 20 ∧ (after (.bar2Access false 0x4000000 64 []) s).body.out = [.unsupported] ∧
     (after (.bar2Access true 0x3FFFFC0 0 (lineBytes 77)) s).mem.line (s.body.devKey 0x3FFFFC0) = 77 ∧
     (after (.bar2Access false 0x3FFFFC0 64 []) s).body.out = [.bar2 (lineBytes 0)] ∧ (after (.bar2Access false 0x3FFFFC0 64 []) (scrubs 2)).body.out = [.poisoned]) := by
  decide +kernel

/-! ### Events, power, temperatures, faults -/

/-- An event in flight on channel 63, due; task input 2 of engine 191, marker 7, the export and republication 15 take it. -/
def eventDue (imp : Bool) (lin : BitVec 64) : State :=
  (at_ 50 50 [(SUB_HI 191 2, 0x80000000), (TRG_CFG 7, 0x103F1#32), (EV_EXPORT_HI, 0x80000000), (REPUB_CFG 15, BitVec.ofNat 32 (63 + 2 ^ 12)), (RING_CTL, 0x40)]).on
    (fun b => { b with evt := { b.evt with flight := [⟨63, lin, 50, imp⟩] } })
def legCfg (n : Nat) : BitVec 32 := BitVec.ofNat 32 n
/-- Legacy channel 7 takes LEG_SW. -/
def legacy (cfg sw : Nat) (ws : List (Nat × Reg32)) (m : PwrMode) : State :=
  (at_ 50 50 ([(LEG_CFG 7, BitVec.ofNat 32 (cfg + 2 ^ 9)), (LEG_SW, BitVec.ofNat 32 sw)] ++ ws)).on (fun b => { b with pwr := { b.pwr with mode := m } })

theorem witness_EventPremises :
    (let s := eventDue false 0
     let e : RouterEv := ⟨63, 0, 50, false⟩
     s.body.evt.flight = [e] ∧ s.body.subscribes 191 2 63 = true ∧ s.body.tiSeen (4 * 191 + 2) = none ∧ s.body.tiPending (4 * 191 + 2) = none ∧
     s.body.rfld (TRG_CFG 7) 0 2 = 1 ∧ s.body.rfld (TRG_CFG 7) 4 6 = 63 ∧ s.body.chBit EV_EXPORT_LO EV_EXPORT_HI 63 = true ∧ s.body.canSend = true ∧
     s.body.ring.evOut = [] ∧ s.body.rbit (REPUB_CFG 15) 12 = true ∧ s.body.rfld (REPUB_CFG 15) 0 6 = 63 ∧
     after .eventDelivery { s with clock := { s.clock with cyc := 49 } } = { s with clock := { s.clock with cyc := 49 } }) := by
  decide +kernel

theorem witness_EventPins :
    (let s := at_ 50 50 [(TRG_CFG 7, BitVec.ofNat 32 (63 * 16 + 4)), (TI_STAT 191, 0x800)]
     (after (.evFire true 0x80000001) s).body.evt.flight.map (fun x => (x.ch, x.due)) = [(32, 52), (63, 52)] ∧
     (after (.evFire false 1) (after (.evFire false 1) s)).body.evt.flight.length = 1 ∧ (after (.tiClr 191 0x10800) s).body.rget (TI_STAT 191) = 0 ∧
     (after (.trgEdge 7 true) s).body.evt.flight.map (fun x => (x.ch, x.due)) = [(63, 53)] ∧ (after (.trgEdge 7 false) s).body.evt.flight = [] ∧
     ((after (.markerEnd 7) (s.on (fun b => { b with evt := { b.evt with marker := b.evt.marker.put [] 7 [(40, 50), (50, 60)] } }))).body.evt.marker.get [] 7) = [(50, 60)] ∧
     after (.markerEnd 7) s = s) := by
  decide +kernel

/-- The pulses of marker pin 7 as listed. -/
def pulses (l : List (Nat × Nat)) (s : State) : State := s.on (fun b => { b with evt := { b.evt with marker := b.evt.marker.put [] 7 l } })
def marked (l : List (Nat × Nat)) : List (Nat × Nat) :=
  let s := pulses l (eventDue false 0)
  (s.body.marker s.clock 7).evt.marker.get [] 7
theorem witness_Markers :
    marked [] = [(56, 57)] ∧ marked [(52, 55)] = [(52, 55), (56, 57)] ∧ marked [(52, 56)] = [(52, 57)] ∧
    (let s := eventDue false 0
     s.body.rbit (TRG_CFG 7) 10 = false ∧ s.clock.on = true ∧ s.body.trgPin s.clock 7 = some false ∧
     (pulses [(50, 51)] s).body.trgPin s.clock 7 = some true) := by
  decide +kernel

theorem witness_LegacyChannels :
    (let s := legacy (2 ^ 22 + 63 * 2 ^ 16) 0x80 [] .on
     regsAfter (.legacyRise 7 false) s [LEG_STATUS] = [0x8080] ∧ (after (.legacyRise 7 false) s).body.evt.flight.map (fun x => (x.ch, x.due)) = [(63, 53)] ∧
     regsAfter (.legacyRise 7 true) (legacy 0 0 [] .on) [LEG_STATUS] = [0x10000] ∧ s.body.cal.runs = [] ∧
     regsAfter (.legacyFall 7 false) s [LEG_STATUS] = [0] ∧ regsAfter (.legacyFall 7 false) (legacy 0 0 [(LEG_STATUS, 0x8080)] .on) [LEG_STATUS] = [0x8000]) ∧
    (let s := legacy (2 ^ 14 + 2 ^ 13) 0x80 [(PORT_CTL 63, 1), (FLX_CTL 31, 1), (PORT_CTL 47, 1)] .on
     regsAfter (.legacyRise 7 false) s [EV_STATUS, PORT_CTL 63, FLX_CTL 31, PORT_CTL 47] = [0x80000, 0, 0, 1] ∧ (after (.legacyRise 7 false) s).body.evt.safeTiles = 8) ∧
    (let s := legacy (2 ^ 15) 0x80 [] .neap
     regsAfter (.legacyRise 7 false) s [WAKE_CAUSE] = [0x8002] ∧ (after (.legacyRise 7 false) s).body.pwr.mainEn = true) := by
  decide +kernel

def inMode (m : PwrMode) (ws : List (Nat × Reg32)) : State :=
  (at_ 50 50 ([(FLT_STATUS, 0x2F), (LEG_STATUS, 0x0100), (NEAP_CFG, 3), (TRG_CFG 7, 0x10000), (FIFO_CTL 15 15, 1)] ++ ws)).on
    (fun b => { b with pwr := { b.pwr with mode := m, mainEn := false, rails := 0x1FFFF } })
def mainUp (s : State) : State := s.on (fun b => { b with pwr := { b.pwr with mainEn := true } })
def perstLow (s : State) : State := s.on (fun b => { b with pwr := { b.pwr with perst := true } })
/-- Mode, core clock, MAIN_EN, an island register, one outside, SEEN. -/
def pwrOf (i : Instr) (s : State) : PwrMode × List Nat :=
  let t := after i s
  (t.body.pwr.mode, [t.clock.on.toNat, t.body.pwr.mainEn.toNat, (t.body.rget (TRG_CFG 7)).toNat, (t.body.rget (FIFO_CTL 15 15)).toNat, (t.body.rget LEG_STATUS).toNat])

theorem witness_Resets :
    pwrOf .powerOn (inMode .on []) = (.vaux, [0, 1, 0x10000, 16, 0]) ∧ pwrOf .lossOfVaux (inMode .on []) = (.off, [0, 0, 0x10000, 16, 0]) ∧
    pwrOf .coldStart (mainUp (inMode .neap [])) = (.on, [1, 1, 0x10000, 16, 0x100]) ∧ pwrOf .coldStart (perstLow (mainUp (inMode .vaux []))) = (.on, [0, 1, 0x10000, 16, 0x100]) ∧
    after .coldStart (inMode .shut []) = inMode .shut [] ∧ after .coldStart (mainUp (inMode .on [])) = mainUp (inMode .on []) := by
  decide +kernel
theorem witness_DeviceResets :
    pwrOf (.deviceReset 0x71920001) (inMode .on []) = (.on, [1, 0, 0x10000, 16, 0]) ∧ pwrOf (.deviceReset 0x71920000) (inMode .on []) = (.on, [1, 0, 0x10000, 1, 0x100]) ∧
    regsAfter (.deviceReset 0x71920000) (inMode .on []) [GLB_STATUS] = [0x100] ∧ pwrOf (.deviceReset 0x71920001) (inMode .entry []) = (.neap, [0, 0, 0x10000, 16, 0]) ∧
    after (.deviceReset 0x71920001) (inMode .shut []) = inMode .shut [] ∧
    pwrOf .reset (inMode .on []) = (.on, [1, 0, 0x10000, 16, 0]) ∧ pwrOf .reset (inMode .shut []) = (.shut, [1, 0, 0x10000, 1, 0x100]) ∧
    (after .reset (inMode .off [])).body.out = [] ∧ pwrOf .perstAssert (inMode .on []) = (.on, [0, 0, 0x10000, 16, 0]) ∧
    pwrOf .perstAssert (inMode .neap []) = (.neap, [1, 0, 0x10000, 1, 0x100]) ∧ pwrOf .perstAssert (inMode .entry []) = (.neap, [0, 0, 0x10000, 16, 0]) := by
  decide +kernel

theorem witness_WakesAndRails :
    after (.perstDeassert true) (inMode .on []) = inMode .on [] ∧ pwrOf (.perstDeassert true) (perstLow (inMode .on [])) = (.on, [1, 0, 0x10000, 1, 0x100]) ∧
    (after (.perstDeassert true) (perstLow (inMode .on []))).clock.cyc = 0 ∧
    regsAfter (.perstDeassert true) (perstLow (inMode .neap [])) [WAKE_CAUSE] = [4] ∧ (after (.perstDeassert false) (perstLow (inMode .shut []))).body.pwr.mainEn = false ∧
    (after (.perstDeassert true) (perstLow (inMode .shut []))).body.pwr.mainEn = true ∧ after (.railFault 0 true true 0 0 0) (inMode .off []) = inMode .off [] ∧
    pwrOf (.railFault 2 false false 0 0 0) (inMode .on []) = (.vaux, [0, 0, 0x10000, 16, 0]) ∧
    regsAfter (.railFault 15 false false 0 0 0) (inMode .on []) [PMC_STATUS, FLT_STATUS] = [0x200, 0x8002F] ∧
    (let s := (inMode .neap []).on (fun b => { b with pwr := { b.pwr with wake := some 1 } })
     regsAfter .neapExit s [WAKE_CAUSE] = [1] ∧ after .neapExit (inMode .neap []) = inMode .neap []) ∧
    regsAfter (.wake false) (inMode .neap []) [WAKE_CAUSE] = [1] ∧ (after (.wake true) (inMode .neap [(NEAP_CFG, 0)])).body.pwr.mainEn = false ∧
    (after (.wake true) (inMode .shut [])).body.pwr.mainEn = true ∧ after (.wake true) (inMode .off []) = inMode .off [] := by
  decide +kernel

theorem witness_Neap :
    (let s := inMode .on [(HST_STATUS, 1), (PORT_CTL 79, 1), (WAKE_CAUSE, 5)]
     regsAfter (.neapReq 1) s [HST_STATUS, PORT_CTL 79, WAKE_CAUSE, LEG_STATUS] = [0, 0, 0, 0] ∧ (after (.neapReq 1) s).body.pwr.mode = .entry ∧
     regsAfter (.neapReq 1) (inMode .on [(TIDE_STATUS, 3)]) [PMC_STATUS] = [0x100] ∧ after (.neapReq 0) s = s ∧ (after .neap s).body.pwr.mode = .entry ∧
     (after .neap (inMode .on [(LEG_STATUS, 0x80), (LEG_CFG 7, 0x8000)])).body.pwr.refused = true ∧ after .neap (inMode .off []) = inMode .off [] ∧
     (after .neap (inMode .shut [])).body.out = [.smbus 0 true]) := by
  decide +kernel

def bootAt (st : Nat) (ws : List (Nat × Reg32)) : State := at_ 50 50 ([(BOOT_STATUS, BitVec.ofNat 32 st)] ++ ws)
/-- A firmware image of one line of body, its form as R384 gives it; the keys of this device are blank. -/
def fwImage : List Byte := leBytes 4 0x48574246 ++ [1, 0, 1, 0] ++ leBytes 4 77 ++ leBytes 4 64 ++ List.replicate 48 0 ++ [4] ++ List.replicate 287 0

theorem witness_Boot :
    let bootOf := fun (a b al rom : Bool) (t : BitVec 11) => Instr.boot a b al rom 0xABCD 5 true 3 (List.replicate 23 0 ++ [t])
    regsAfter (bootOf false false true true 0) (bootAt 0 []) [BOOT_STATUS, FLT_STATUS] = [0x80, 0x14] ∧
    regsAfter (bootOf true true true false 0) (bootAt 0 []) [BOOT_STATUS, FLT_STATUS] = [0x81, 0xB] ∧
    regsAfter (bootOf false true true true 879) (bootAt 0 [(THM_CTL, 0)]) [BOOT_STATUS, FLT_STATUS, GLB_DATE, GLB_SERIAL_LO, MC_VERSION 15, TILE_STATUS 3, TEMP 23] =
      [1, 6, 5, 0xABCD, 0x80010000, 0xF, 0xC000 + 879] ∧
    regsAfter (bootOf true false true true 880) (bootAt 0 [(THM_CTL, 0)]) [BOOT_STATUS] = [0x86] ∧
    regsAfter (bootOf true true true true 719) (bootAt 0x86 []) [BOOT_STATUS, TEMP 23] = [1, 0x8000 + 719] ∧
    after (bootOf true true true true 0) (bootAt 1 []) = bootAt 1 [] := by
  decide +kernel
theorem witness_Firmware :
    after (.go 0) (bootAt 1 []) = bootAt 1 [] ∧ regsAfter (.go 1) (bootAt 2 []) [GLB_STATUS] = [0x100] ∧ regsAfter (.go 1) (bootAt 1 [(BOOT_LEN, 351)]) [BOOT_STATUS] = [0x8201] ∧
    regsAfter (.go 1) (bootAt 1 [(BOOT_LEN, 352)]) [BOOT_STATUS] = [2] ∧ regsAfter (.go 1) (bootAt 1 [(BOOT_LEN, 4194592)]) [BOOT_STATUS] = [2] ∧
    regsAfter (.fwCheckDone none 9) (bootAt 2 []) [BOOT_STATUS, BOOT_DETAIL] = [0x8501, 9] ∧ regsAfter (.fwCheckDone (some []) 0) (bootAt 2 []) [BOOT_STATUS] = [0x8201] ∧
    fwImage.length = 352 ∧ fwForm fwImage 352 = true ∧ State.reset.mem.keyOk (imgFld fwImage 7 1 == 1) (imgKey fwImage) = false ∧
    regsAfter (.fwCheckDone (some fwImage) 0) (bootAt 2 [(BOOT_LEN, 352)]) [BOOT_STATUS] = [0x8301] ∧
    after (.fwCheckDone (some []) 0) (bootAt 1 []) = bootAt 1 [] ∧ regsAfter .fwReady (bootAt 0xAA04 [(MEM_STATUS, 1), (FLT_STATUS, 0x20)]) [BOOT_STATUS] = [0xAA05] ∧
    after .fwReady (bootAt 4 [(MEM_STATUS, 1)]) = bootAt 4 [(MEM_STATUS, 1)] := by
  decide +kernel
/-- With the words of a Vilgon key slot that hash and sign the image (R253: the functions are those of the device), the image starts. -/
theorem witness_FirmwareStarts (m : Mem) (hk : m.keyOk false (imgKey fwImage) = true) (hs : imgSigned fwImage 64 = true) :
    let s : State := { bootAt 2 [(BOOT_LEN, 352)] with mem := m }
    ∃ t, exec (.fwCheckDone (some fwImage) 0) s = .next t ∧ t.body.thm.fwAt = 50 := by
  intro s
  have hf : fwForm fwImage 352 = true := by decide +kernel
  have h7 : (imgFld fwImage 7 1 == 1) = false := by decide +kernel
  have h12 : imgFld fwImage 12 4 = 64 := by decide +kernel
  have hb : s.body.bootStatus = 2 := by change (bootAt 2 [(BOOT_LEN, 352)]).body.bootStatus = 2; decide +kernel
  have hn : s.body.rfld BOOT_LEN 0 23 = 352 := by change (bootAt 2 [(BOOT_LEN, 352)]).body.rfld BOOT_LEN 0 23 = 352; decide +kernel
  refine ⟨_, rfl, ?_⟩
  change (if s.clock.on then s.body.fwCheck s.clock m (some fwImage) 0 else s.body).thm.fwAt = 50
  have hon : s.clock.on = true := rfl
  rw [if_pos hon]
  simp only [Body.fwCheck, hb, hn, hf, h7, h12, hk, hs]
  rfl
theorem witness_Port :
    (let s := (bootAt 5 [(TEMP_MAX, 0x70123), (LEG_STATUS, 0x18081)]).on (fun b => { b with pwr := { b.pwr with mode := .on, refused := true, rails := 0x1ABCD } })
     (after .readState s).body.out = [.smbus 129 true] ∧ (after .readState s).body.pwr.refused = false ∧ (after .readTemp s).body.out = [.smbus 0x123 true] ∧
     (after .readRails s).body.out = [.smbus 0xABCD true] ∧ (after .readLeg s).body.out = [.smbus 0x8081 true] ∧ regsAfter (.writeLegSw 255) s [LEG_SW] = [255]) ∧
    after .readTemp (inMode .off []) = inMode .off [] := by
  decide +kernel

/-- Harbour serves, the fault ring takes records; a sensor has a history. -/
def thermal (k : Nat) (x : Sensor) (ws : List (Nat × Reg32)) : State :=
  (at_ 50 50 ([(FLT_STATUS, 0x2F), (THM_CTL, BitVec.ofNat 32 (5 + 4 * 16 + 63 * 1024 + 65536)), (HRING_CTL 0, 1), (BOOT_STATUS, 5), (HST_CTL, 0x10000), (THM_STATUS, 0)] ++ ws)).on
    (fun b => b.setSensor k x)
def fresh : Sensor := ⟨(0, 0, 0), (0, 0), (false, false), (none, none)⟩
def faults0 (i : Instr) (s : State) : List (Nat × Nat) := ((after i s).body.hring 0).recs.map (fun x => (x.d0.toNat, x.d1.toNat))

theorem witness_Sensors :
    (let s := thermal 23 { fresh with hi := (3, 0, 0) } []
     s.body.faultRingOk = true ∧ regsAfter (.tempSample 23 760) s [TEMP 23, TEMP_MAX, THM_STATUS] = [0xCAF8, 0x17CAF8, 0x205] ∧
     faults0 (.tempSample 23 760) s = [(0x17010D, 0xCAF8)] ∧ (after (.tempSample 23 760) s).body.evt.flight.map (fun x => (x.ch, x.due)) = [(63, 52)] ∧
     regsAfter (.tempSample 23 0x7FF) s [TEMP 23, TEMP_MAX] = [0x87FF, 0x1787FF]) ∧
    (let s := thermal 23 { fresh with hi := (9, 3, 0), held := (true, false) } [(GOV_STATUS, 0)]
     regsAfter (.tempSample 23 800) s [TEMP 23, THM_STATUS, GOV_STATUS] = [0xD320, 0x406, 0x21] ∧ (after (.tempSample 23 800) s).body.thm.stepAt = 10000050) ∧
    (let s := thermal 23 { fresh with lo := (3, 0), held := (true, false) } []
     regsAfter (.tempSample 23 719) s [TEMP 23] = [0xA2CF] ∧ ((after (.tempSample 23 719) s).body.sensor 23).dwell.1 = some 100000050 ∧
     regsAfter (.tempSample 23 720) s [TEMP 23] = [0xCAD0]) ∧
    (let s := thermal 23 { fresh with hi := (9, 9, 3) } [(PORT_CTL 0, 1)]
     (after (.tempSample 23 880) s).body.pwr.mode = .shut ∧ (after (.tempSample 23 879) s).body.pwr.mode ≠ .shut ∧ (after (.tempSample 23 880) s).clock.on = false) ∧
    after (.tempSample 0 900) (at_ 5 5 [(FLT_STATUS, 0xF)]) = at_ 5 5 [(FLT_STATUS, 0xF)] := by
  decide +kernel
theorem witness_Fallback :
    (let s := (thermal 23 fresh [(THM_STATUS, 8), (TEMP 0, 0x8000)]).on (fun b => { b with thm := { b.thm with seen := 0x7FFFFE } })
     (after (.tempSample 23 5) s).body.thm.seen = 0xFFFFFE ∧ regsAfter (.tempSample 0 5) (after (.tempSample 23 5) s) [THM_STATUS, TEMP 0] = [0, 0x8005] ∧
     regsAfter (.housekeeping (List.replicate 24 7) 1) s [TEMP 0, TEMP 23] = [0x8007, 0x8007]) ∧
    (let s := thermal 23 { fresh with dwell := (some 50, some 51) } [(TEMP 23, 0x2000)]
     regsAfter (.housekeeping (List.replicate 24 7) 1) s [TEMP 23] = [0x2000] ∧ ((after (.dwellEnd 23) s).body.sensor 23).dwell = (none, some 51) ∧
     regsAfter (.dwellEnd 23) s [TEMP 23] = [0x2000] ∧ after .fallback s = s ∧
     regsAfter .fallback { s with clock := { s.clock with cyc := 3000000 } } [THM_STATUS, TEMP 23] = [0x808, 0x2000]) := by
  decide +kernel
theorem witness_RiseAndSteps :
    (let s := (thermal 22 fresh [(TEMP 22, 100), (TEMP 23, 60)]).on (fun b => { b with thm := { b.thm with tiles := b.thm.tiles.put .reset 3 ⟨[(50, 60)], 3, 0, false, none⟩ } })
     let t : State := { s with clock := { s.clock with cyc := 1000000050 } }
     ((after (.riseEval 3) s).body.thm.tiles.get .reset 3).hist = [(50, 160), (50, 60)] ∧ regsAfter (.riseEval 3) t [RISE_TILE 3, THM_STATUS, DRIFT_COUNT] = [625, 0x8000, 1] ∧
     (after (.riseEval 3) t).body.cal.queue = [⟨none, 0x40, 5, 3, 0, true, false, 0, 0⟩]) ∧
    (let s := thermal 0 fresh [(THM_STATUS, 2), (GOV_STATUS, 15 * 32)]
     regsAfter .throttleStep s [GOV_STATUS, THROTTLE_COUNT] = [16 * 33, 1] ∧ regsAfter .throttleStep (thermal 0 fresh [(GOV_STATUS, 32)]) [GOV_STATUS] = [0] ∧
     after .throttleStep (thermal 0 fresh []) = thermal 0 fresh [] ∧ regsAfter .throttleStep (thermal 0 fresh [(THM_STATUS, 2), (GOV_STATUS, 16 * 32)]) [GOV_STATUS] = [16 * 32]) := by
  decide +kernel
theorem witness_PowerSamples :
    (let s := thermal 0 fresh [(TIDE_STATUS, 3)]
     regsAfter (.powerSample 3201) s [POWER_NOW, POWER_PEAK] = [3201, 3201] ∧ (after (.powerSample 3201) s).body.thm.shed = some true ∧ (after (.powerSample 3200) s).body.thm.shed = none ∧
     (let t : State := { ((s.on (fun b => b.rset GOV_STATUS 0x400)).on (fun b => { b with thm := { b.thm with below := some 50 } })) with clock := { s.clock with cyc := 100000050 } }
      (after (.powerSample 3071) t).body.thm.shed = some false ∧ (after (.powerSample 3072) t).body.thm.shed = none)) ∧
    regsAfter (.powerSample 3201) (thermal 0 fresh []) [GOV_STATUS, SCOPE_STATUS] = [0x400, 1] ∧
    (let s : State := { thermal 0 fresh [(GOV_STATUS, 0x1000), (GOV_CTL, 0x20), (PORT_CTL 63, 1), (PORT_STATUS 63, 2)] with clock := { State.reset.clock with on := true, cyc := 10000000 } }
     (after (.park (.cove 15)) s).body.thm.parked = [143] ∧ (after (.park (.port (.dp 63))) s).body.thm.parked = [63] ∧
     (after (.park (.port (.dp 63))) s).body.rfld (PORT_STATUS 63) 0 2 = 0 ∧ s.body.parkBusy s.clock 63 = false) := by
  decide +kernel

def faulty (flt : Nat) (ws : List (Nat × Reg32)) : State := thermal 0 fresh ([(FLT_STATUS, BitVec.ofNat 32 flt), (REF_STATUS, 0xF)] ++ ws)
theorem witness_TileFaults :
    (let s := faulty 0x2B [(PORT_CTL 63, 1), (PORT_CTL 79, 1), (FLX_CTL 31, 1), (RCV_CTL 15, 1), (BIAS_CTL 15, 1), (PORT_CTL 47, 1)]
     let i : Instr := .tileFail 3 true true 5 true 0xABC 9
     regsAfter i s [FLT_STATUS, TILE_STATUS 3, TILE_LINK_ERR 3, PMC_STATUS, PORT_CTL 63, PORT_CTL 79, FLX_CTL 31, RCV_CTL 15, BIAS_CTL 15, PORT_CTL 47] =
       [0x8002B, 0xF04, 9, 0x200, 0, 0, 0, 0, 0, 1] ∧ faults0 i s = [(3 + 3 * 2 ^ 8 + 15 * 2 ^ 10, 0xABC)] ∧ s.body.cal.runs = [] ∧
     after (.tileFail 3 false false 0 false 0 0) s = s ∧ after (.tileFail 3 true true 5 false 0 0) (faulty 0x8002B []) = faulty 0x8002B [] ∧
     regsAfter i (faulty 0x8002B []) [PMC_STATUS] = [0x200]) := by
  decide +kernel
theorem witness_References :
    (let i : Instr := .refLoss true false
     regsAfter i (faulty 0x2B []) [FLT_STATUS, REF_STATUS] = [0x21, 0x5] ∧ faults0 i (faulty 0x2B []) = [(1 + 2 ^ 8 + 2 ^ 10, 0)] ∧
     regsAfter i (faulty 0x2F []) [FLT_STATUS, REF_STATUS] = [0x21, 0x5] ∧ faults0 i (faulty 0x2F []) = [(1 + 2 ^ 8 + 0x600, 50)] ∧
     regsAfter i (faulty 0x27 []) [FLT_STATUS, TIDE_INC, TIDE_STATUS] = [0x21, 0x01000000, 0x18] ∧
     faults0 i (faulty 0x26 []) = [(2, 0)] ∧ regsAfter i (faulty 0x26 []) [TIDE_INC] = [0x01000000] ∧
     regsAfter (.refLoss true true) (faulty 0x21 []) [REF_STATUS] = [0x7] ∧ faults0 (.refLoss true true) (faulty 0x21 []) = []) ∧
    (let s := faulty 0x2B [(FLT_CTL, 3)]
     let t : State := { s with clock := { s.clock with cyc := 1000000 } }
     after .refRevert s = s ∧ regsAfter .refRevert t [FLT_STATUS, REF_STATUS] = [0x2F, 0x2F] ∧ (after .refRevert (t.on (fun b => b.rset TIDE_STATUS 3))).body.flt.revert = true) ∧
    regsAfter (.referenceReturn true true) (faulty 0x21 [(REF_STATUS, 5)]) [FLT_STATUS, REF_STATUS, BOOT_STATUS] = [0x2B, 0xF, 5] ∧
    regsAfter (.referenceReturn true true) (faulty 0x30 [(REF_STATUS, 0), (BOOT_STATUS, 0x80)]) [FLT_STATUS, REF_STATUS, BOOT_STATUS] = [0x26, 0x2A, 0] := by
  decide +kernel
theorem witness_Harbour :
    regsAfter .harbourFail (faulty 0x2B [(TEMP 23, 0x8005)]) [FLT_STATUS, THM_STATUS, TEMP 23] = [0xB, 0x808, 5] ∧
    faults0 .harbourFail (faulty 0x2B []) = [(0x11, 0)] ∧ after .harbourFail (faulty 0xB []) = faulty 0xB [] := by
  decide +kernel

end Sys2Proof.Tests
end

section
/-! Entry of pulse commands (R90 to R99): what a discard notes, what an accepted command leaves in its queue, and the order of the checks. -/

namespace Sys2Proof.Machine

/-! ### Bits of registers after an update -/

theorem bit_setFld (v : Reg32) (lo len x i : Nat) (hi : i < 32) :
    bit (setFld v lo len x) i = if lo ≤ i ∧ i < lo + len then x.testBit (i - lo) else bit v i :=
  getLsbD_setFld v lo len x i hi

theorem satInc_zero (v : Reg32) : satInc v 0 = v := by
  apply BitVec.eq_of_toNat_eq
  have := v.isLt
  simp only [satInc, BitVec.toNat_ofNat]
  omega

@[simp] theorem Body.rget_gatherFlag (b : Body) (c : Clock) (n i j : Nat) : (b.gatherFlag c n i).rget j = b.rget j := rfl
@[simp] theorem Body.rbit_gatherFlag (b : Body) (c : Clock) (n i j l : Nat) : (b.gatherFlag c n i).rbit j l = b.rbit j l := rfl
@[simp] theorem Body.gatherFlag_comps (b : Body) (c : Clock) (n i : Nat) : (b.gatherFlag c n i).comps = b.comps := rfl

/-! ### Discards (R93, R105)

The registers of a port are spoken of by a base `k` that stays a variable: `portBase q` is a case split over three register blocks. -/

/-- The port's counters as a discard leaves them: DISCARD_COUNT, and LATE_COUNT for a late command (R93). -/
def Body.discardCounts (b : Body) (k i : Nat) : Body :=
  let b := b.count (k + 0x24) 1
  if i = 0 then b.count (k + 0x20) 1 else b

/-- A flag in SHOT_FLAGS of the registers at `k`, under the current epoch, and its sticky copy (R105). -/
def Body.flagAt (b : Body) (k i : Nat) : Body :=
  ((b.rsetBit (k + 0x1C) i true).rsetFld (k + 0x1C) 16 16 b.epoch).stick (k + 4) (16 + i)

/-- A discard at port `q` with registers at `k`, but for the flag on its way to the cove. -/
def Body.discardNoted (b : Body) (k q i : Nat) : Body := ((b.discardCounts k i).perf 0x21 q 1).flagAt k i

theorem Body.discardOn_eq (b : Body) (c : Clock) (q i : Nat) :
    b.discardOn c q i = (b.discardNoted (portBase q) q i).gatherFlag c (coveOfPort q) i := rfl

theorem Body.rget_discardCounts (b : Body) (k i j : Nat) :
    (b.discardCounts k i).rget j =
      if j = k + 0x20 then satInc (b.rget (k + 0x20)) (if i = 0 then 1 else 0)
      else if j = k + 0x24 then satInc (b.rget (k + 0x24)) 1
      else b.rget j := by
  unfold Body.discardCounts
  by_cases hi : i = 0
  · simp [hi, Body.rget_count]
  · by_cases hj : j = k + 0x20 <;> simp [hi, hj, Body.rget_count, satInc_zero]

theorem Body.rget_flagAt (b : Body) (k i j : Nat) :
    (b.flagAt k i).rget j =
      if j = k + 4 then setBit (b.rget (k + 4)) (16 + i) true
      else if j = k + 0x1C then setFld (setBit (b.rget (k + 0x1C)) i true) 16 16 b.epoch
      else b.rget j := by
  unfold Body.flagAt
  by_cases h : j = k + 0x1C <;> simp [h, Body.rget_stick, Body.rget_rsetFld, Body.rget_rsetBit]

section
variable (b : Body) (k q : Nat)

theorem Body.rget_discardNoted_other (i : Nat) {j : Nat} (hj : j ∉ [k + 4, k + 0x1C, k + 0x20, k + 0x24]) :
    (b.discardNoted k q i).rget j = b.rget j := by
  simp only [List.mem_cons, List.not_mem_nil, or_false, not_or] at hj
  obtain ⟨h1, h2, h3, h4⟩ := hj
  rw [Body.discardNoted, Body.rget_flagAt, if_neg h1, if_neg h2, Body.rget_perf, Body.rget_discardCounts, if_neg h3, if_neg h4]

theorem Body.rget_discardNoted_discards (i : Nat) : (b.discardNoted k q i).rget (k + 0x24) = satInc (b.rget (k + 0x24)) 1 := by
  simp [Body.discardNoted, Body.rget_flagAt, Body.rget_discardCounts]

theorem Body.rget_discardNoted_late (i : Nat) :
    (b.discardNoted k q i).rget (k + 0x20) = satInc (b.rget (k + 0x20)) (if i = 0 then 1 else 0) := by
  simp [Body.discardNoted, Body.rget_flagAt, Body.rget_discardCounts]

theorem Body.rbit_discardNoted_flag {i : Nat} (hi : i < 16) : (b.discardNoted k q i).rbit (k + 0x1C) i = true := by
  simp [Body.discardNoted, Body.rbit, Body.rget_flagAt, bit_setFld, show i < 32 by omega, hi]

theorem Body.rbit_discardNoted_sticky {i : Nat} (hi : i < 16) : (b.discardNoted k q i).rbit (k + 4) (16 + i) = true := by
  simp [Body.discardNoted, Body.rbit, Body.rget_flagAt, show 16 + i < 32 by omega]

theorem Body.discardNoted_comps (i : Nat) : (b.discardNoted k q i).comps = b.comps := by
  unfold Body.discardNoted Body.flagAt Body.discardCounts
  split <;> rfl

/-- What a discard changes in the registers of its port, and that it changes no queue. -/
theorem Body.discardNoted_effect (c : Clock) (n : Nat) {i : Nat} (hi : i < 16) :
    let u := (b.discardNoted k q i).gatherFlag c n i
    u.comps = b.comps ∧ u.rget (k + 0x24) = satInc (b.rget (k + 0x24)) 1 ∧
    u.rget (k + 0x20) = satInc (b.rget (k + 0x20)) (if i = 0 then 1 else 0) ∧
    (∀ j, j ∉ [k + 4, k + 0x1C, k + 0x20, k + 0x24] → u.rget j = b.rget j) ∧
    u.rbit (k + 0x1C) i = true ∧ u.rbit (k + 4) (16 + i) = true := by
  intro u
  have hr : ∀ j, u.rget j = (b.discardNoted k q i).rget j := fun j => Body.rget_gatherFlag _ c n i j
  have hb : ∀ j l, u.rbit j l = (b.discardNoted k q i).rbit j l := fun j l => Body.rbit_gatherFlag _ c n i j l
  exact ⟨(Body.gatherFlag_comps _ c n i).trans (b.discardNoted_comps k q i), (hr _).trans (b.rget_discardNoted_discards k q i),
    (hr _).trans (b.rget_discardNoted_late k q i), fun j hj => (hr j).trans (b.rget_discardNoted_other k q i hj),
    (hb _ _).trans (b.rbit_discardNoted_flag k q hi), (hb _ _).trans (b.rbit_discardNoted_sticky k q hi)⟩
end

/-- A discarded command whose slot has no waiting arm takes no other along (R99). -/
theorem Body.discardAt_alone (b : Body) (c : Clock) (w1 : Word) (i q : Nat) (h : b.waitingArm q (fld w1 24 4) = none) :
    b.discardAt c w1 i q = b.discardOn c q i := by
  simp [Body.discardAt, Body.dropWaiting, h]

/-! ### The checks (R93, R94) -/

section
variable (b : Body) (c : Clock) (q : Nat) (v : Int) (w0 w1 w2 w3 : Word)

/-- What check 1 refuses at one port is BAD_CMD, before any other check. -/
theorem Body.firstFail_badCmd (h : b.check1 q w1 w2 w3 = false) : b.firstFail c [q] v w0 w1 w2 w3 = some 5 := by
  simp [Body.firstFail, h]

/-- What passes check 1 and comes less than 40 ns ahead is LATE. -/
theorem Body.firstFail_late (h : b.check1 q w1 w2 w3 = true) (hv : v < c.now + 40) : b.firstFail c [q] v w0 w1 w2 w3 = some 0 := by
  simp [Body.firstFail, h, hv]

theorem Body.check1_notAnchored (h : b.anchored = false) : b.check1 q w1 w2 w3 = false := by simp [Body.check1, h]

theorem Body.check1_reservedOp (h : opOf w1 = 0 ∨ 8 ≤ opOf w1) : b.check1 q w1 w2 w3 = false := by
  have : opValid (decide (80 ≤ q)) (opOf w1) = false := by
    rcases h with h | h
    · simp [opValid, h]
    · simp [opValid, show ¬ opOf w1 ≤ 7 by omega]
  simp [Body.check1, this]

/-- The flags that stand for a failed check are LATE, BAD_CMD, ORDER and FORK_ERR. -/
theorem Body.firstFail_lt (qs : List Nat) {i : Nat} (h : b.firstFail c qs v w0 w1 w2 w3 = some i) : i < 16 := by
  unfold Body.firstFail at h
  split at h
  · cases h; decide
  split at h
  · cases h; decide
  split at h
  · cases h; decide
  split at h
  · cases h; decide
  · cases h
end

/-! ### Resolved times (R6) -/

/-- A short tide resolves to the time within 2³⁵ ns of the present that has its low 36 bits. -/
theorem resolveTide_spec (t : Int) (s : Nat) :
    t - 2 ^ 35 ≤ resolveTide t s ∧ resolveTide t s < t + 2 ^ 35 ∧ (resolveTide t s - s) % 2 ^ 36 = 0 := by
  dsimp only [resolveTide]
  omega

/-! ### Queues (R94, R95, R99) -/

@[simp] theorem Body.comp_setComp_same (b : Body) (q : Nat) (x : Composer) : (b.setComp q x).comp q = x := SMap.get_put_same _ _ _ _

theorem Body.comp_setComp_other (b : Body) {p q : Nat} (h : p ≠ q) (x : Composer) : (b.setComp q x).comp p = b.comp p :=
  SMap.get_put_other _ _ _ h _

theorem opFork_iff (op : Nat) : opFork op = true ↔ op = 2 ∨ op = 7 := by simp [opFork]
theorem opPulse_of_arm {op : Nat} (h : op = 2 ∨ op = 7) : opPulse op = decide (op = 2) := by
  rcases h with rfl | rfl <;> rfl
theorem opPulse_of_ne_two {op : Nat} (h : op ≠ 2) : opPulse op = decide (op = 1 ∨ op = 3) := by
  rw [Bool.eq_iff_iff]
  simp [opPulse, h]
theorem opOf_eq_extract (w1 : Word) : opOf w1 = (w1.extractLsb' 32 4).toNat := fld_eq_extract w1 32 4

/-- The command as it stands in the queue of port `q`. -/
def cmdOf (q : Nat) (v : Int) (w0 w1 w2 w3 : Word) (st : CmdSt) : PulseCmd :=
  ⟨v, fld w1 28 4, fld w1 24 4, cmdLen (decide (80 ≤ q)) w1 w2, w0, w1, w2, w3, st⟩

/-- The horizons of its slot after an accepted command of `n` cc (R94). -/
def Composer.horizonAfter (x : Composer) (v : Int) (w1 : Word) (n : Nat) : Horizon :=
  let t := 16 * v + fld w1 28 4
  ⟨t, if opPulse (opOf w1) then t + 16 * n else (x.horizon (fld w1 24 4)).fin⟩

/-- The composer of port `q` once the command is in its queue: a first arm waits and moves no horizon; its partner comes in behind it under the
longer of the two lengths; any other command is queued (R94, R95, R99). -/
def Body.queuedAt (b : Body) (q : Nat) (v : Int) (w0 w1 w2 w3 : Word) : Composer :=
  let x := b.comp q
  let slot := fld w1 24 4
  let cmd := cmdOf q v w0 w1 w2 w3
  if opFork (opOf w1) then
    match b.waitingArm q slot with
    | none => { x with queue := x.queue ++ [cmd .waiting] }
    | some p => { x with queue := swapFirst p (some { p with st := .queued }) x.queue ++ [cmd .queued],
                         hz := x.hz.put ⟨0, 0⟩ slot (x.horizonAfter v w1 (max (cmd .queued).len p.len)) }
  else { x with queue := x.queue ++ [cmd .queued], hz := x.hz.put ⟨0, 0⟩ slot (x.horizonAfter v w1 (cmd .queued).len) }

theorem Body.enqueue_eq (b : Body) (q : Nat) (v : Int) (w0 w1 w2 w3 : Word) :
    b.enqueue q v w0 w1 w2 w3 = (b.perf 0x20 q 1).setComp q (b.queuedAt q v w0 w1 w2 w3) := by
  have hw : (b.perf 0x20 q 1).waitingArm q (fld w1 24 4) = b.waitingArm q (fld w1 24 4) := rfl
  unfold Body.enqueue Body.queuedAt
  by_cases hf : opFork (opOf w1) = true
  · simp only [hf, if_true, hw]
    cases b.waitingArm q (fld w1 24 4) <;> rfl
  · simp only [hf]; rfl

/-! ### Entry at one port (R23, R93, R96) -/

section
variable (b : Body) (c : Clock) (n : Nat) (w0 w1 w2 w3 : Word)

theorem Body.pulseIn_sent (h : b.sentOn n false w0 w1 w2 w3 = true) : b.pulseIn c n w0 w1 w2 w3 = b := by simp [Body.pulseIn, h]

theorem Body.pulseIn_nowhere (h : b.sentOn n false w0 w1 w2 w3 = false) (ht : b.targets n (fld w1 20 4) = []) :
    b.pulseIn c n w0 w1 w2 w3 = b.badIssue c n := by
  simp [Body.pulseIn, h, Body.enterPulse, ht]

variable {q : Nat}

theorem Body.pulseIn_full (h : b.sentOn n false w0 w1 w2 w3 = false) (ht : b.targets n (fld w1 20 4) = [q])
    (hr : b.queueRoom q (fld w1 24 4) = false) : b.pulseIn c n w0 w1 w2 w3 = b := by
  simp [Body.pulseIn, h, Body.enterPulse, ht, hr]

theorem Body.pulseIn_discards (h : b.sentOn n false w0 w1 w2 w3 = false) (ht : b.targets n (fld w1 20 4) = [q])
    (hr : b.queueRoom q (fld w1 24 4) = true) {i : Nat} (hf : b.firstFail c [q] (resolveTide c.now w0.toNat) w0 w1 w2 w3 = some i) :
    b.pulseIn c n w0 w1 w2 w3 = b.discardAt c w1 i q := by
  simp [Body.pulseIn, h, Body.enterPulse, ht, hr, hf]

theorem Body.pulseIn_enters (h : b.sentOn n false w0 w1 w2 w3 = false) (ht : b.targets n (fld w1 20 4) = [q])
    (hr : b.queueRoom q (fld w1 24 4) = true) (hf : b.firstFail c [q] (resolveTide c.now w0.toNat) w0 w1 w2 w3 = none) :
    b.pulseIn c n w0 w1 w2 w3 =
      (b.perf 0x20 q 1).setComp q (b.queuedAt q (resolveTide c.now w0.toNat) w0 w1 w2 w3) := by
  simp [Body.pulseIn, h, Body.enterPulse, ht, hr, hf, Body.enqueue_eq]
end

/-- Every row that carries a pulse or flux command offers it to the same entry. -/
theorem exec_pulseRow {row : Fin 16 → Word → Word → Word → Word → Instr}
    (h : row ∈ ([.pulse, .forkArm, .const, .setFreq, .setFrame, .shiftFrame, .forkShift, .fluxPulse, .fluxForkArm, .ramp, .setLevel,
      .shiftLevel, .fluxForkShift, .reservedCommand false] : List (Fin 16 → Word → Word → Word → Word → Instr)))
    (n : Fin 16) (w0 w1 w2 w3 : Word) (s : State) :
    exec (row n w0 w1 w2 w3) s = .next { s with body := s.body.pulseIn s.clock n w0 w1 w2 w3 } := by
  simp only [List.mem_cons, List.not_mem_nil, or_false] at h
  rcases h with rfl | rfl | rfl | rfl | rfl | rfl | rfl | rfl | rfl | rfl | rfl | rfl | rfl | rfl <;> rfl

/-! ### The statement -/

section
variable (b : Body) (q : Nat) (v : Int) (w0 w1 w2 w3 : Word)

/-- A first arm waits (R99). -/
theorem Body.queuedAt_arm (ho : opOf w1 = 2 ∨ opOf w1 = 7) (hw : b.waitingArm q (fld w1 24 4) = none) :
    b.queuedAt q v w0 w1 w2 w3 = { b.comp q with queue := (b.comp q).queue ++ [cmdOf q v w0 w1 w2 w3 .waiting] } := by
  simp [Body.queuedAt, (opFork_iff _).2 ho, hw]

/-- Its partner joins behind it (R99). -/
theorem Body.queuedAt_partner {p : PulseCmd} (ho : opOf w1 = 2 ∨ opOf w1 = 7) (hw : b.waitingArm q (fld w1 24 4) = some p) :
    b.queuedAt q v w0 w1 w2 w3 = { b.comp q with
      queue := swapFirst p (some { p with st := .queued }) (b.comp q).queue ++ [cmdOf q v w0 w1 w2 w3 .queued],
      hz := (b.comp q).hz.put ⟨0, 0⟩ (fld w1 24 4)
        ((b.comp q).horizonAfter v w1 (max (cmdLen (decide (80 ≤ q)) w1 w2) p.len)) } := by
  simp [Body.queuedAt, (opFork_iff _).2 ho, hw, cmdOf]

/-- Any other command is queued at once (R95). -/
theorem Body.queuedAt_plain (h2 : opOf w1 ≠ 2) (h7 : opOf w1 ≠ 7) :
    b.queuedAt q v w0 w1 w2 w3 = { b.comp q with
      queue := (b.comp q).queue ++ [cmdOf q v w0 w1 w2 w3 .queued],
      hz := (b.comp q).hz.put ⟨0, 0⟩ (fld w1 24 4) ((b.comp q).horizonAfter v w1 (cmdLen (decide (80 ≤ q)) w1 w2)) } := by
  have hf : opFork (opOf w1) = false := by simp [opFork, h2, h7]
  simp [Body.queuedAt, hf, cmdOf]

theorem Composer.horizon_put (x : Composer) (qu : List PulseCmd) (slot : Nat) (h : Horizon) :
    ({ x with queue := qu, hz := x.hz.put ⟨0, 0⟩ slot h } : Composer).horizon slot = h := SMap.get_put_same _ _ _ _
end

/-- The state after an accepted command: one composer and the record of the cycle have changed. -/
theorem enters_frame (s : State) (q : Nat) (x : Composer) :
    let t : State := { s with body := (s.body.perf 0x20 q 1).setComp q x }
    t = { s with body := { s.body with log := t.body.log, comps := t.body.comps } } ∧ ∀ p, p ≠ q → t.body.comp p = s.body.comp p :=
  ⟨rfl, fun _ hp => Body.comp_setComp_other _ hp _⟩

/-- Settles O24: an entry at one port, case by case over room, the first failing check and the kind of command. -/
theorem pulseCommandsEnter : Obligations.PulseCommandsEnter := by
  intro row hrow n w0 w1 w2 w3 q s
  simp only [← opOf_eq_extract]
  simp only [← fld_eq_extract, exec_pulseRow hrow]
  refine ⟨fun h => by rw [Body.pulseIn_sent _ _ _ _ _ _ _ h], fun hs => ?_⟩
  obtain ⟨hv1, hv2, hv3⟩ := resolveTide_spec s.clock.now w0.toNat
  refine ⟨resolveTide s.clock.now w0.toNat, hv1, hv2, hv3, fun ht hroom => ?_, fun ht hfull => ?_, fun ht => ?_⟩
  · have hr : s.body.queueRoom q (fld w1 24 4) = true := by simpa [Body.queueRoom] using hroom
    have enters := fun h => Body.pulseIn_enters s.body s.clock n w0 w1 w2 w3 hs ht hr h
    refine ⟨fun hf ho hw => ?_, fun p hf ho hw => ?_, fun hf h2 h7 => ?_, fun i hf hw => ?_, fun h => ?_, fun h1 hv => ?_⟩
    · refine ⟨_, rfl, ?_, ?_⟩
      · rw [enters hf]; exact enters_frame s q _
      · rw [enters hf, Body.queuedAt_arm _ _ _ _ _ _ _ ho hw]; simp [cmdOf]
    · refine ⟨_, rfl, ?_, ?_, ?_⟩
      · rw [enters hf]; exact enters_frame s q _
      · rw [enters hf, Body.queuedAt_partner _ _ _ _ _ _ _ ho hw]; simp [cmdOf]
      · rw [enters hf, Body.queuedAt_partner _ _ _ _ _ _ _ ho hw]
        simp only [Body.comp_setComp_same, Composer.horizon_put, Composer.horizonAfter, opPulse_of_arm ho, decide_eq_true_eq]
    · refine ⟨_, rfl, ?_, ?_, ?_⟩
      · rw [enters hf]; exact enters_frame s q _
      · rw [enters hf, Body.queuedAt_plain _ _ _ _ _ _ _ h2 h7]; simp [cmdOf]
      · rw [enters hf, Body.queuedAt_plain _ _ _ _ _ _ _ h2 h7]
        simp only [Body.comp_setComp_same, Composer.horizon_put, Composer.horizonAfter, opPulse_of_ne_two h2, decide_eq_true_eq]
    · have hi := Body.firstFail_lt _ _ _ _ _ _ _ _ hf
      rw [Body.pulseIn_discards _ _ _ _ _ _ _ hs ht hr hf, Body.discardAt_alone _ _ _ _ _ hw, Body.discardOn_eq]
      exact ⟨_, rfl, rfl, Body.discardNoted_effect s.body (portBase q) q s.clock (coveOfPort q) hi⟩
    · refine Body.firstFail_badCmd _ _ _ _ _ _ _ _ ?_
      rcases h with h | h
      · exact Body.check1_notAnchored _ _ _ _ _ h
      · exact Body.check1_reservedOp _ _ _ _ _ h
    · exact Body.firstFail_late _ _ _ _ _ _ _ _ h1 hv
  · have hr : s.body.queueRoom q (fld w1 24 4) = false := by simp [Body.queueRoom, Nat.not_lt.2 hfull]
    rw [Body.pulseIn_full _ _ _ _ _ _ _ hs ht hr]
  · rw [Body.pulseIn_nowhere _ _ _ _ _ _ _ hs ht]
    refine ⟨_, rfl, rfl, fun k hk => ?_, ?_⟩
    · simp only [List.mem_singleton] at hk
      simp [Body.badIssue, Body.rget_count, hk]
    · simp [Body.badIssue, Body.rget_count]

end Sys2Proof.Machine
end

section
/-! Reading bits and fields after an update of a register, and which registers an operation leaves alone. -/

namespace Sys2Proof.Machine

/-! ### Bits and fields -/

theorem fld_setBit (v : Reg32) (i : Nat) (on : Bool) (lo len : Nat) (h : i < lo ∨ lo + len ≤ i) : fld (setBit v i on) lo len = fld v lo len :=
  fld_setFld_other v i 1 _ lo len (by omega)

theorem bit_setFld_other (v : Reg32) (lo len x : Nat) {i : Nat} (hi : i < 32) (h : i < lo ∨ lo + len ≤ i) :
    bit (setFld v lo len x) i = bit v i := by
  rw [bit_setFld v lo len x i hi, if_neg (by omega)]

theorem bit_setBit_other (v : Reg32) {i j : Nat} (on : Bool) (hj : j < 32) (h : j ≠ i) : bit (setBit v i on) j = bit v j := by
  rw [bit_setBit v i j on hj, if_neg h]

theorem fld_r32 (x lo len : Nat) (h : lo + len ≤ 32) : fld (r32 x) lo len = x / 2 ^ lo % 2 ^ len := by
  have hs : 2 ^ 32 = 2 ^ lo * 2 ^ (32 - lo) := by rw [← Nat.pow_add]; congr 1; omega
  have hd : 2 ^ len ∣ 2 ^ (32 - lo) := Nat.pow_dvd_pow 2 (by omega)
  rw [fld, bitsAt, r32, BitVec.toNat_ofNat, hs, Nat.mod_mul_right_div_self, Nat.mod_mod_of_dvd _ hd]

theorem fld_lt {w : Nat} (v : BitVec w) (lo len : Nat) : fld v lo len < 2 ^ len := Nat.mod_lt _ (Nat.two_pow_pos len)

theorem sval_toNat {w : Nat} (v : BitVec w) : sval w v.toNat = v.toInt := by
  rw [sval, Nat.mod_eq_of_lt v.isLt, BitVec.toInt_eq_toNat_cond]
  norm_cast

/-! ### Registers an operation leaves alone -/

/-- Every setup register but those listed holds what it held. -/
def Body.regsKept (ks : List Nat) (b u : Body) : Prop := ∀ j, j ∉ ks → u.rget j = b.rget j

section
variable {ks ls : List Nat} {b u w : Body}

theorem Body.regsKept.refl (ks : List Nat) (b : Body) : b.regsKept ks b := fun _ _ => rfl
theorem Body.regsKept.trans (h : b.regsKept ks u) (k : u.regsKept ks w) : b.regsKept ks w := fun j hj => (k j hj).trans (h j hj)
theorem Body.regsKept.mono (h : b.regsKept ks u) (hs : ks ⊆ ls) : b.regsKept ls u := fun j hj => h j fun hk => hj (hs hk)
theorem Body.regsKept.rget (h : b.regsKept ks u) {j : Nat} (hj : j ∉ ks) : u.rget j = b.rget j := h j hj
theorem Body.regsKept.rbit (h : b.regsKept ks u) {j : Nat} (hj : j ∉ ks) (i : Nat) : u.rbit j i = b.rbit j i := by
  simp [Body.rbit, h j hj]
theorem Body.regsKept.rfld (h : b.regsKept ks u) {j : Nat} (hj : j ∉ ks) (lo len : Nat) : u.rfld j lo len = b.rfld j lo len := by
  simp [Body.rfld, h j hj]
theorem Body.regsKept.of_rget (h : ∀ j, u.rget j = b.rget j) : b.regsKept ks u := fun j _ => h j

theorem Body.regsKept.rset (h : b.regsKept ks u) {k : Nat} (hk : k ∈ ks) (v : Reg32) : b.regsKept ks (u.rset k v) := fun j hj => by
  rw [u.rget_rset_other (ne_of_mem_of_not_mem hk hj).symm, h j hj]
theorem Body.regsKept.rsetBit (h : b.regsKept ks u) {k : Nat} (hk : k ∈ ks) (i : Nat) (on : Bool) : b.regsKept ks (u.rsetBit k i on) :=
  h.rset hk _
theorem Body.regsKept.rsetFld (h : b.regsKept ks u) {k : Nat} (hk : k ∈ ks) (lo len x : Nat) : b.regsKept ks (u.rsetFld k lo len x) :=
  h.rset hk _
theorem Body.regsKept.stick (h : b.regsKept ks u) {k : Nat} (hk : k ∈ ks) (i : Nat) : b.regsKept ks (u.stick k i) := h.rset hk _
theorem Body.regsKept.count (h : b.regsKept ks u) {k : Nat} (hk : k ∈ ks) (n : Nat) : b.regsKept ks (u.count k n) := h.rset hk _
theorem Body.regsKept.fault (h : b.regsKept ks u) (hk : FAULT_DROP ∈ ks) (c : Clock) (code d0 d1 : Nat) :
    b.regsKept ks (u.fault c code d0 d1) := fun j hj => by
  rw [rget_fault _ _ _ _ _ _ (ne_of_mem_of_not_mem hk hj).symm, h j hj]

/-- Each step of a fold leaves the registers alone, so the fold does. -/
theorem Body.regsKept.foldl {α : Type} {f : Body → α → Body} {l : List α} (h : b.regsKept ks u)
    (hf : ∀ b : Body, ∀ x ∈ l, b.regsKept ks (f b x)) : b.regsKept ks (l.foldl f u) := by
  induction l generalizing u with
  | nil => exact h
  | cons x t ih => exact ih (h.trans (hf u x (by simp))) (fun b y hy => hf b y (by simp [hy]))
end

theorem Body.rbit_rsetBit_other (b : Body) {j k : Nat} (h : j ≠ k) (i l : Nat) (on : Bool) : (b.rsetBit k l on).rbit j i = b.rbit j i := by
  simp [Body.rbit, Body.rget_rsetBit, h]

/-- Publishing changes the router alone, but for a loop. -/
theorem publish_fresh (b : Body) (c : Clock) (ch delay : Nat) (imported : Bool) :
    b.publish c ch 0 delay imported =
      { b with evt := { b.evt with flight := mergeFlight ⟨ch, 0, c.cyc + delay + 2, imported⟩ b.evt.flight } } :=
  publish_open b c ch 0 delay imported BitVec.getLsbD_zero

end Sys2Proof.Machine
end

section
/-! Temperature samples (R392, R393, R396, R399): what each step of a sample changes, and the sample as a whole. -/

namespace Sys2Proof.Machine

/-! ### Where a sample reaches -/

/-- Registers, the record of the cycle, the host rings, the event router and the thermal loop may differ; nothing else does. -/
def Body.thermalFrame (b u : Body) : Prop :=
  ∃ r l h e t, u = { b with regs := r, log := l, host := h, evt := e, thm := t }

/-- Registers, the record of the cycle and the start of the step period may differ; nothing else does. -/
def Body.stepFrame (b u : Body) : Prop := ∃ r l n, u = { b with regs := r, log := l, thm := { b.thm with stepAt := n } }

section
variable {b u w : Body}

theorem Body.thermalFrame.refl (b : Body) : b.thermalFrame b := ⟨_, _, _, _, _, rfl⟩
theorem Body.thermalFrame.trans (h : b.thermalFrame u) (k : u.thermalFrame w) : b.thermalFrame w := by
  obtain ⟨_, _, _, _, _, rfl⟩ := h
  obtain ⟨_, _, _, _, _, rfl⟩ := k
  exact ⟨_, _, _, _, _, rfl⟩
theorem Body.stepFrame.thermal (h : b.stepFrame u) : b.thermalFrame u := by
  obtain ⟨_, _, _, rfl⟩ := h
  exact ⟨_, _, _, _, _, rfl⟩
theorem Body.thermalFrame.pwr (h : b.thermalFrame u) : u.pwr = b.pwr := by obtain ⟨_, _, _, _, _, rfl⟩ := h; rfl
theorem Body.thermalFrame.fuseWr (h : b.thermalFrame u) : u.fuseWr = b.fuseWr := by obtain ⟨_, _, _, _, _, rfl⟩ := h; rfl
theorem Body.stepFrame.sensors (h : b.stepFrame u) : u.thm.sensors = b.thm.sensors := by obtain ⟨_, _, _, rfl⟩ := h; rfl
theorem Body.stepFrame.host (h : b.stepFrame u) : u.host = b.host := by obtain ⟨_, _, _, rfl⟩ := h; rfl
theorem Body.stepFrame.evt (h : b.stepFrame u) : u.evt = b.evt := by obtain ⟨_, _, _, rfl⟩ := h; rfl
end

theorem fault_thermalFrame (b : Body) (c : Clock) (code d0 d1 : Nat) : b.thermalFrame (b.fault c code d0 d1) := by
  cases he : b.rbit HST_CTL 16
  · rw [fault_disabled _ _ _ _ _ he]; exact .refl b
  cases hr : b.faultRingOk
  · rw [fault_dropped _ _ _ _ _ hr he]; exact ⟨_, _, _, _, _, rfl⟩
  · rw [fault_taken _ _ _ _ _ hr]; exact ⟨_, _, _, _, _, rfl⟩

theorem fault_thm (b : Body) (c : Clock) (code d0 d1 : Nat) : (b.fault c code d0 d1).thm = b.thm := by
  cases he : b.rbit HST_CTL 16
  · rw [fault_disabled _ _ _ _ _ he]
  cases hr : b.faultRingOk
  · rw [fault_dropped _ _ _ _ _ hr he]; rfl
  · rw [fault_taken _ _ _ _ _ hr]; rfl

/-- Whether the fault ring takes a record depends on the host rings and their registers alone. -/
theorem faultRingOk_congr {b u : Body} {ks : List Nat} (h : b.regsKept ks u) (hh : u.host = b.host)
    (hk : ∀ k ∈ ks, k < 0x10000 ∨ 0x20000 ≤ k) : u.faultRingOk = b.faultRingOk ∧ u.rfld HST_CTL 8 8 = b.rfld HST_CTL 8 8 := by
  have out : ∀ k, 0x10000 ≤ k → k < 0x20000 → k ∉ ks := fun k h1 h2 hm => by have := hk k hm; omega
  have hctl : u.rget HST_CTL = b.rget HST_CTL := h _ (out _ (by decide) (by decide))
  have hr : u.rfld HST_CTL 8 8 = b.rfld HST_CTL 8 8 := by simp [Body.rfld, hctl]
  have hlt : b.rfld HST_CTL 8 8 < 256 := fld_lt _ 8 8
  obtain ⟨n, hn⟩ : ∃ n, b.rfld HST_CTL 8 8 = n := ⟨_, rfl⟩
  rw [hn] at hr hlt
  have h1 := h (HRING_CTL n) (out _ (by unfold HRING_CTL; omega) (by unfold HRING_CTL; omega))
  have h2 := h (HRING_STATUS n) (out _ (by unfold HRING_STATUS; omega) (by unfold HRING_STATUS; omega))
  have h3 := h (RING_CQ_PROD n) (out _ (by unfold RING_CQ_PROD; omega) (by unfold RING_CQ_PROD; omega))
  have h4 : u.rfld (RING_CFG n) 8 5 = b.rfld (RING_CFG n) 8 5 := by
    rw [Body.rfld, h (RING_CFG n) (out _ (by unfold RING_CFG; omega) (by unfold RING_CFG; omega)), Body.rfld]
  refine ⟨?_, hr.trans hn.symm⟩
  simp only [Body.faultRingOk, hr, hn, Body.cqUsed, Body.cqSize, Body.hring, hh, Body.rbit, hctl, h1, h2, h3, h4]

/-! ### The register of a sensor (R399) -/

theorem TEMP_injective {i j : Nat} (h : TEMP i = TEMP j) : i = j := by unfold TEMP at h; omega

/-- A sensor's register with the reading `t`. -/
def withReading (v : Reg32) (t : BitVec 11) : Reg32 :=
  setBit (setBit (setFld v 0 11 t.toNat) 15 true) 14 (decide (720 ≤ t.toInt))

/-- A sensor's register with LEVEL and DWELL of the sensor. -/
def withLevel (v : Reg32) (x : Sensor) : Reg32 :=
  setBit (setFld v 11 2 (if x.held.2 then 2 else if x.held.1 then 1 else 0)) 13 (x.dwell.1.isSome || x.dwell.2.isSome)

theorem rget_setReading (b : Body) (s : Nat) (t : BitVec 11) (j : Nat) :
    (b.setReading s t).rget j = if j = TEMP s then withReading (b.rget (TEMP s)) t else b.rget j := by
  by_cases h : j = TEMP s <;>
    simp [Body.setReading, Body.rget_rsetBit, Body.rget_rsetFld, h, withReading, sval_toNat]

theorem setReading_regs (b : Body) (s : Nat) (t : BitVec 11) : b.regsKept [TEMP s] (b.setReading s t) := fun j hj => by
  rw [rget_setReading, if_neg (by simpa using hj)]

theorem rget_fixLevel (b : Body) (s j : Nat) :
    (b.fixLevel s).rget j = if j = TEMP s then withLevel (b.rget (TEMP s)) (b.sensor s) else b.rget j := by
  by_cases h : j = TEMP s <;> simp [Body.fixLevel, Body.rget_rsetBit, Body.rget_rsetFld, h, withLevel]

theorem fld_withReading (v : Reg32) (t : BitVec 11) : fld (withReading v t) 0 11 = t.toNat := by
  rw [withReading, fld_setBit _ _ _ _ _ (by omega), fld_setBit _ _ _ _ _ (by omega), fld_setFld_same _ _ _ _ (by omega)]
  exact Nat.mod_eq_of_lt t.isLt

theorem bit_withReading_valid (v : Reg32) (t : BitVec 11) : bit (withReading v t) 15 = true := by
  rw [withReading, bit_setBit_other _ _ (by omega) (by omega), bit_setBit_same _ _ _ (by omega)]

theorem bit_withReading_near (v : Reg32) (t : BitVec 11) : bit (withReading v t) 14 = decide (720 ≤ t.toInt) :=
  bit_setBit_same _ _ _ (by omega)

theorem fld_withLevel_reading (v : Reg32) (x : Sensor) : fld (withLevel v x) 0 11 = fld v 0 11 := by
  rw [withLevel, fld_setBit _ _ _ _ _ (by omega), fld_setFld_other _ _ _ _ _ _ (by omega)]

theorem fld_withLevel_level (v : Reg32) (x : Sensor) :
    fld (withLevel v x) 11 2 = if x.held.2 then 2 else if x.held.1 then 1 else 0 := by
  rw [withLevel, fld_setBit _ _ _ _ _ (by omega), fld_setFld_same _ _ _ _ (by omega)]
  split <;> [rfl; split <;> rfl]

theorem bit_withLevel_dwell (v : Reg32) (x : Sensor) : bit (withLevel v x) 13 = (x.dwell.1.isSome || x.dwell.2.isSome) :=
  bit_setBit_same _ _ _ (by omega)

theorem bit_withLevel_other (v : Reg32) (x : Sensor) {i : Nat} (hi : i < 32) (h : i < 11 ∨ 14 ≤ i) : bit (withLevel v x) i = bit v i := by
  rw [withLevel, bit_setBit_other _ _ hi (by omega), bit_setFld_other _ _ _ _ hi (by omega)]

/-! ### A level is entered (R393) -/

section
variable (b : Body) (c : Clock) (s l : Nat)

/-- The body after the sticky bit and the record, before the event. -/
def Body.levelRecorded : Body := (b.stick THM_STATUS (8 + l)).fault c 0x0D (l * 2 ^ 8 + s * 2 ^ 16) (b.rnat (TEMP s))

theorem TEMP_ne_status : TEMP s ≠ THM_STATUS := by unfold TEMP THM_STATUS; omega

theorem levelEntry_eq : b.levelEntry c s l =
    if b.rbit THM_CTL 16 then (b.levelRecorded c s l).publish c (b.rfld THM_CTL 10 6) 0 0 false else b.levelRecorded c s l := by
  have hn : (b.stick THM_STATUS (8 + l)).rnat (TEMP s) = b.rnat (TEMP s) := by
    simp [Body.rnat, Body.rget_stick, TEMP_ne_status]
  have hc : (b.levelRecorded c s l).rget THM_CTL = b.rget THM_CTL := by
    rw [Body.levelRecorded, rget_fault _ _ _ _ _ _ (by decide), Body.rget_stick, if_neg (by decide)]
  have h : b.levelEntry c s l =
      if (b.levelRecorded c s l).rbit THM_CTL 16 then
        (b.levelRecorded c s l).publish c ((b.levelRecorded c s l).rfld THM_CTL 10 6) 0 0 false
      else b.levelRecorded c s l := by
    rw [Body.levelRecorded, ← hn]; rfl
  rw [h, Body.rbit, Body.rfld, hc]; rfl

theorem rget_levelEntry (j : Nat) : (b.levelEntry c s l).rget j = (b.levelRecorded c s l).rget j := by
  rw [levelEntry_eq]
  split
  · rw [publish_fresh]; rfl
  · rfl

theorem levelEntry_regs : b.regsKept [THM_STATUS, FAULT_DROP] (b.levelEntry c s l) := fun j hj => by
  rw [rget_levelEntry]
  exact ((Body.regsKept.refl _ b).stick (by simp) _).fault (by simp) _ _ _ _ j hj

theorem levelEntry_status : (b.levelEntry c s l).rget THM_STATUS = setBit (b.rget THM_STATUS) (8 + l) true := by
  rw [rget_levelEntry, Body.levelRecorded, rget_fault _ _ _ _ _ _ (by decide), Body.rget_stick, if_pos rfl]

theorem levelEntry_frame : b.thermalFrame (b.levelEntry c s l) := by
  have h : b.thermalFrame (b.levelRecorded c s l) := Body.thermalFrame.trans ⟨_, _, _, _, _, rfl⟩ (fault_thermalFrame _ _ _ _ _)
  rw [levelEntry_eq]
  split
  · rw [publish_fresh]; exact h.trans ⟨_, _, _, _, _, rfl⟩
  · exact h

theorem levelEntry_thm : (b.levelEntry c s l).thm = b.thm := by
  have h : (b.levelRecorded c s l).thm = b.thm := fault_thm _ _ _ _ _
  rw [levelEntry_eq]
  split
  · rw [publish_fresh]; exact h
  · exact h

/-- With THM_EV_EN the entry publishes its event. -/
theorem levelEntry_publishes (h : b.rbit THM_CTL 16 = true) :
    ∃ e ∈ (b.levelEntry c s l).evt.flight, e.ch = b.rfld THM_CTL 10 6 ∧ e.due = c.cyc + 2 := by
  rw [levelEntry_eq, if_pos h, publish_fresh]
  obtain ⟨e, he, hch, hdue, _⟩ := mergeFlight_has ⟨b.rfld THM_CTL 10 6, 0, c.cyc + 0 + 2, false⟩ (b.levelRecorded c s l).evt.flight
  exact ⟨e, he, hch, hdue⟩

/-- The record of the entry stands in the fault ring. -/
theorem levelEntry_records (h : b.faultRingOk = true) (hr : (b.hring (b.rfld HST_CTL 8 8)).recs = []) :
    ((b.levelEntry c s l).hring (b.rfld HST_CTL 8 8)).recs =
      [⟨0x81, 0, 0, 0, r32 (0x0D + (l * 2 ^ 8 + s * 2 ^ 16)), BitVec.ofNat 64 (b.rnat (TEMP s)), BitVec.ofNat 64 c.now, false, none, none⟩] := by
  have hk : b.regsKept [THM_STATUS] (b.stick THM_STATUS (8 + l)) := (Body.regsKept.refl _ b).stick (by simp) _
  obtain ⟨hok, hf⟩ := faultRingOk_congr hk rfl (by simp [THM_STATUS])
  have hh : (b.levelEntry c s l).host = (b.levelRecorded c s l).host := by
    rw [levelEntry_eq]
    split
    · rw [publish_fresh]
    · rfl
  have hw : ((b.stick THM_STATUS (8 + l)).hring (b.rfld HST_CTL 8 8)).recs = [] := hr
  rw [Body.hring, hh, ← Body.hring, Body.levelRecorded, fault_taken _ _ _ _ _ (hok.trans h), hf, hring_setHring, hw]
  rfl
end

end Sys2Proof.Machine
end

section
/-! Temperature samples, continued: the thermal state, THROTTLE_STEP, TEMP_MAX, and the sample put together. -/

namespace Sys2Proof.Machine

/-! ### STEP and THROTTLE_STEP (R396) -/

section
variable (b : Body)

theorem fixStep_regs (n : Nat) : b.regsKept [GOV_STATUS] (b.fixStep n) :=
  ((Body.regsKept.refl _ b).rsetFld (by simp) _ _ _).rsetFld (by simp) _ _ _

theorem fixStep_fields {n : Nat} (hn : n < 32) :
    (b.fixStep n).rfld GOV_STATUS 5 5 = n ∧ (b.fixStep n).rfld GOV_STATUS 0 5 = max n (b.rfld GOV_CTL 0 5) := by
  have hl : b.rfld GOV_CTL 0 5 < 32 := fld_lt _ 0 5
  constructor
  · rw [Body.fixStep, Body.rfld, Body.rget_rsetFld, if_pos rfl, fld_setFld_other _ _ _ _ _ _ (by omega), Body.rget_rsetFld, if_pos rfl,
      fld_setFld_same _ _ _ _ (by omega)]
    omega
  · rw [Body.fixStep, Body.rfld, Body.rget_rsetFld, if_pos rfl, fld_setFld_same _ _ _ _ (by omega)]
    omega

theorem stepUp_frame : ∃ r l, b.stepUp = { b with regs := r, log := l } := by
  unfold Body.stepUp
  split
  · exact ⟨_, _, rfl⟩
  · exact ⟨_, _, rfl⟩

theorem stepUp_regs : b.regsKept [GOV_STATUS, THROTTLE_COUNT] b.stepUp := by
  unfold Body.stepUp
  split
  · exact ((fixStep_regs b _).mono (by simp)).count (by simp) _
  · exact .refl _ b

/-- Below 16 the step rises by one. -/
theorem stepUp_fields (h : b.throttleStep < 16) :
    b.stepUp.rfld GOV_STATUS 5 5 = b.throttleStep + 1 ∧
    b.stepUp.rfld GOV_STATUS 0 5 = max (b.throttleStep + 1) (b.rfld GOV_CTL 0 5) ∧
    b.stepUp.rget THROTTLE_COUNT = satInc (b.rget THROTTLE_COUNT) 1 := by
  obtain ⟨h1, h2⟩ := fixStep_fields b (n := b.throttleStep + 1) (by omega)
  have hg : ∀ lo len, b.stepUp.rfld GOV_STATUS lo len = (b.fixStep (b.throttleStep + 1)).rfld GOV_STATUS lo len := fun lo len => by
    rw [Body.stepUp, if_pos h, Body.rfld, Body.rget_count, if_neg (by decide), Body.rfld]
  refine ⟨(hg 5 5).trans h1, (hg 0 5).trans h2, ?_⟩
  rw [Body.stepUp, if_pos h, Body.rget_count, if_pos rfl, fixStep_regs b _ _ (by decide)]

/-! ### The thermal state (R393, R396) -/

theorem fixState_frame (c : Clock) : b.stepFrame (b.fixState c) := by
  obtain ⟨r, l, h⟩ := stepUp_frame (b.rsetFld THM_STATUS 0 2 b.thermalState)
  unfold Body.fixState
  dsimp only
  split
  · rw [h]; exact ⟨_, _, _, rfl⟩
  split
  · exact ⟨_, _, _, rfl⟩
  · exact ⟨_, _, _, rfl⟩

/-- The thermal state is put into its field; entry to Throttle raises the step besides. -/
theorem rget_fixState (c : Clock) (j : Nat) :
    (b.fixState c).rget j =
      (if b.thermalState = 2 ∧ b.rfld THM_STATUS 0 2 ≠ 2 then (b.rsetFld THM_STATUS 0 2 b.thermalState).stepUp
        else b.rsetFld THM_STATUS 0 2 b.thermalState).rget j := by
  unfold Body.fixState
  dsimp only
  split
  · rfl
  split <;> rfl

theorem fixState_regs (c : Clock) : b.regsKept [THM_STATUS, GOV_STATUS, THROTTLE_COUNT] (b.fixState c) := fun j hj => by
  have h := (Body.regsKept.refl [THM_STATUS, GOV_STATUS, THROTTLE_COUNT] b).rsetFld (k := THM_STATUS) (by simp) 0 2 b.thermalState
  rw [rget_fixState]
  split
  · exact (h.trans ((stepUp_regs _).mono (by simp))) j hj
  · exact h j hj

theorem fixState_status (c : Clock) : (b.fixState c).rget THM_STATUS = setFld (b.rget THM_STATUS) 0 2 b.thermalState := by
  rw [rget_fixState]
  split
  · rw [stepUp_regs _ _ (by decide), Body.rget_rsetFld, if_pos rfl]
  · rw [Body.rget_rsetFld, if_pos rfl]

/-- Entry to Throttle. -/
theorem fixState_enters (c : Clock) (hn : b.thermalState = 2) (hw : b.rfld THM_STATUS 0 2 ≠ 2) (hs : b.rfld GOV_STATUS 5 5 < 16) :
    (b.fixState c).rfld GOV_STATUS 5 5 = b.rfld GOV_STATUS 5 5 + 1 ∧
    (b.fixState c).rfld GOV_STATUS 0 5 = max (b.rfld GOV_STATUS 5 5 + 1) (b.rfld GOV_CTL 0 5) ∧
    (b.fixState c).thm.stepAt = c.cyc + 10000000 := by
  have hg : ∀ j, j ≠ THM_STATUS → (b.rsetFld THM_STATUS 0 2 b.thermalState).rget j = b.rget j := fun j hj => b.rget_rset_other hj _
  have ht : (b.rsetFld THM_STATUS 0 2 b.thermalState).throttleStep = b.rfld GOV_STATUS 5 5 := by
    rw [Body.throttleStep, Body.rfld, hg _ (by decide), Body.rfld]
  have hc : (b.rsetFld THM_STATUS 0 2 b.thermalState).rfld GOV_CTL 0 5 = b.rfld GOV_CTL 0 5 := by
    rw [Body.rfld, hg _ (by decide), Body.rfld]
  obtain ⟨h1, h2, _⟩ := stepUp_fields (b.rsetFld THM_STATUS 0 2 b.thermalState) (by omega)
  have hr : ∀ lo len, (b.fixState c).rfld GOV_STATUS lo len =
      (b.rsetFld THM_STATUS 0 2 b.thermalState).stepUp.rfld GOV_STATUS lo len := fun lo len => by
    rw [Body.rfld, rget_fixState, if_pos ⟨hn, hw⟩, Body.rfld]
  refine ⟨?_, ?_, ?_⟩
  · rw [hr, h1, ht]
  · rw [hr, h2, ht, hc]
  · simp [Body.fixState, hn, hw]

end

/-! ### The sensors of a table -/

theorem mem_of_get_ne {α : Type} {m : SMap α} {d : α} {k : Nat} (h : m.get d k ≠ d) : ∃ e ∈ m.entries, e.2 = m.get d k := by
  obtain ⟨l⟩ := m
  simp only [SMap.get] at h ⊢
  induction l with
  | nil => exact absurd rfl h
  | cons e t ih =>
    by_cases hk : e.1 = k
    · exact ⟨e, by simp, by simp [lookupIn, hk]⟩
    · have hl : lookupIn d k (e :: t) = lookupIn d k t := by simp [lookupIn, hk]
      rw [hl] at h ⊢
      obtain ⟨x, hx, hv⟩ := ih h
      exact ⟨x, by simp [hx], hv⟩

theorem get_mem_or_default {α : Type} (m : SMap α) (d : α) (k : Nat) : m.get d k = d ∨ ∃ e ∈ m.entries, e.2 = m.get d k := by
  by_cases h : m.get d k = d
  · exact .inl h
  · exact .inr (mem_of_get_ne h)

/-- A sensor that holds Throttle puts the device into Throttle. -/
theorem thermalState_throttle {b : Body} {s : Nat} (h : (b.sensor s).held.2 = true) : b.thermalState = 2 := by
  have hne : b.thm.sensors.get .reset s ≠ .reset := fun e => by
    rw [Body.sensor, e] at h; exact absurd h (by decide)
  obtain ⟨e, he, hv⟩ := mem_of_get_ne hne
  have ha : ((b.thm.sensors.entries.map (·.2.held)).any (·.2)) = true := by
    simp only [List.any_map, List.any_eq_true]
    exact ⟨e, he, by rw [Body.sensor, ← hv] at h; exact h⟩
  simp [Body.thermalState, ha]

/-! ### TEMP_MAX and NEAR (R398, R399) -/

/-- The first of the hottest among `h` and those after it. -/
def hottest (f : Nat → Int) (h : Nat) (t : List Nat) : Nat := t.foldl (fun m s => if f m < f s then s else m) h

theorem hottest_spec (f : Nat → Int) (h : Nat) (t : List Nat) (hs : (h :: t).Pairwise (· < ·)) :
    hottest f h t ∈ h :: t ∧ ∀ i ∈ h :: t, f i < f (hottest f h t) ∨ (f i = f (hottest f h t) ∧ hottest f h t ≤ i) := by
  induction t generalizing h with
  | nil => simp [hottest]
  | cons x t ih =>
    simp only [List.pairwise_cons, List.mem_cons] at hs
    obtain ⟨hh, hx, ht⟩ := hs
    by_cases hlt : f h < f x
    · obtain ⟨hm, hb⟩ := ih x (List.pairwise_cons.2 ⟨hx, ht⟩)
      have e : hottest f h (x :: t) = hottest f x t := by simp [hottest, hlt]
      rw [e]
      refine ⟨List.mem_cons_of_mem _ hm, fun i hi => ?_⟩
      rcases List.mem_cons.1 hi with rfl | hi
      · rcases hb x (by simp) with hb | ⟨hb, _⟩
        · exact .inl (hlt.trans hb)
        · exact .inl (hb ▸ hlt)
      · exact hb i hi
    · have hht : (h :: t).Pairwise (· < ·) := List.pairwise_cons.2 ⟨fun a ha => hh a (.inr ha), ht⟩
      obtain ⟨hm, hb⟩ := ih h hht
      have e : hottest f h (x :: t) = hottest f h t := by simp [hottest, hlt]
      rw [e]
      refine ⟨?_, fun i hi => ?_⟩
      · rcases List.mem_cons.1 hm with hm | hm
        · rw [hm]; simp
        · simp [hm]
      rcases List.mem_cons.1 hi with rfl | hi
      · exact hb i (by simp)
      rcases List.mem_cons.1 hi with rfl | hi
      · have hxl : h < i := hh i (.inl rfl)
        rcases hb h (by simp) with hb | ⟨hb, hle⟩
        · exact .inl (by omega)
        · rcases lt_or_eq_of_le (not_lt.1 hlt) with hl | hl
          · exact .inl (by omega)
          · exact .inr ⟨by omega, by omega⟩
      · exact hb i (by simp [hi])

section
variable (b : Body)

theorem fixTemps_frame : ∃ r, b.fixTemps = { b with regs := r } := by
  unfold Body.fixTemps
  dsimp only
  split <;> exact ⟨_, rfl⟩

theorem fixTemps_regs : b.regsKept [THM_STATUS, TEMP_MAX] b.fixTemps := by
  have h := (Body.regsKept.refl [THM_STATUS, TEMP_MAX] b).rsetBit (k := THM_STATUS) (by simp) 2
    ((List.range 24).any (fun s => b.rbit (TEMP s) 14))
  unfold Body.fixTemps
  dsimp only
  split
  · exact h
  · exact h.rset (by simp) _

theorem fixTemps_status : ∃ on, b.fixTemps.rget THM_STATUS = setBit (b.rget THM_STATUS) 2 on := by
  refine ⟨(List.range 24).any (fun s => b.rbit (TEMP s) 14), ?_⟩
  unfold Body.fixTemps
  dsimp only
  split
  · rw [Body.rget_rsetBit, if_pos rfl]
  · rw [Body.rget_rset_other _ (by decide), Body.rget_rsetBit, if_pos rfl]

theorem TEMP_not_status_max (i : Nat) : TEMP i ∉ [THM_STATUS, TEMP_MAX] := by simp [TEMP, THM_STATUS, TEMP_MAX]; omega

/-- The body on which TEMP_MAX is worked out: NEAR has been set. -/
def Body.nearNoted : Body := b.rsetBit THM_STATUS 2 ((List.range 24).any (fun s => b.rbit (TEMP s) 14))

theorem fixTemps_max {h : Nat} {t : List Nat} (hl : (List.range 24).filter (fun s => b.rbit (TEMP s) 15) = h :: t) :
    b.fixTemps.rget TEMP_MAX =
      r32 (b.nearNoted.rfld (TEMP (hottest b.nearNoted.reading h t)) 0 16 + hottest b.nearNoted.reading h t * 2 ^ 16) := by
  unfold Body.fixTemps
  dsimp only
  rw [hl]
  exact Body.rget_rset _ _ _

theorem nearNoted_temp (i lo len : Nat) : b.nearNoted.rfld (TEMP i) lo len = b.rfld (TEMP i) lo len := by
  rw [Body.rfld, Body.nearNoted, Body.rget_rsetBit, if_neg (TEMP_ne_status i), Body.rfld]

theorem nearNoted_reading : b.nearNoted.reading = b.reading := by
  funext i
  rw [Body.reading, nearNoted_temp, Body.reading]

/-- TEMP_MAX holds the hottest valid reading and the number of its sensor, the lowest among equals. -/
theorem fixTemps_hottest {k : Nat} (hk : k < 24) (hv : b.rbit (TEMP k) 15 = true) :
    ∃ m : Nat, m < 24 ∧ b.fixTemps.rbit (TEMP m) 15 = true ∧ b.fixTemps.rfld TEMP_MAX 0 16 = b.fixTemps.rfld (TEMP m) 0 16 ∧
      b.fixTemps.rfld TEMP_MAX 16 5 = m ∧
      ∀ i : Nat, i < 24 → b.fixTemps.rbit (TEMP i) 15 = true →
        b.fixTemps.reading i < b.fixTemps.reading m ∨ (b.fixTemps.reading i = b.fixTemps.reading m ∧ m ≤ i) := by
  have hb : ∀ i, b.fixTemps.rbit (TEMP i) 15 = b.rbit (TEMP i) 15 := fun i => (fixTemps_regs b).rbit (TEMP_not_status_max i) 15
  have hf : ∀ i lo len, b.fixTemps.rfld (TEMP i) lo len = b.rfld (TEMP i) lo len :=
    fun i => (fixTemps_regs b).rfld (TEMP_not_status_max i)
  have hrd : ∀ i, b.fixTemps.reading i = b.reading i := fun i => by rw [Body.reading, hf, Body.reading]
  simp only [hb, hf, hrd]
  have hkv : k ∈ (List.range 24).filter (fun s => b.rbit (TEMP s) 15) := by simp [hk, hv]
  cases hl : (List.range 24).filter (fun s => b.rbit (TEMP s) 15) with
  | nil => rw [hl] at hkv; cases hkv
  | cons h t =>
    have hsort : (h :: t).Pairwise (· < ·) := hl ▸ List.Pairwise.filter _ List.pairwise_lt_range
    have hmem : ∀ i, i ∈ h :: t ↔ i < 24 ∧ b.rbit (TEMP i) 15 = true := fun i => by rw [← hl]; simp
    obtain ⟨hm, hbest⟩ := hottest_spec b.reading h t hsort
    obtain ⟨hm24, hmv⟩ := (hmem _).1 hm
    have hmax : b.fixTemps.rget TEMP_MAX = r32 (b.rfld (TEMP (hottest b.reading h t)) 0 16 + hottest b.reading h t * 2 ^ 16) := by
      rw [fixTemps_max b hl, nearNoted_reading, nearNoted_temp]
    have hlt : b.rfld (TEMP (hottest b.reading h t)) 0 16 < 65536 := fld_lt _ 0 16
    refine ⟨hottest b.reading h t, hm24, hmv, ?_, ?_, fun i hi hv => hbest i ((hmem i).2 ⟨hi, hv⟩)⟩
    · rw [Body.rfld, hmax, fld_r32 _ _ _ (by omega)]; omega
    · rw [Body.rfld, hmax, fld_r32 _ _ _ (by omega)]; omega
end

end Sys2Proof.Machine
end

section
/-! A sample of a temperature sensor on the path in use, as a whole (R393, R396, R399). -/

namespace Sys2Proof.Machine

/-! ### What a sample makes of its sensor (R393) -/

section
variable (b : Body) (c : Clock) (s : Nat)

/-- The fourth sample in a row at the limit enters Warning, unless a dwell holds. -/
def Body.entersWarning (t : Int) : Bool :=
  let x := b.sensor s
  ! x.held.1 && decide (4 ≤ runOf (decide (760 ≤ t)) x.hi.1) && ! dwelling c x.dwell.1

/-- The same for Throttle. -/
def Body.entersThrottle (t : Int) : Bool :=
  let x := b.sensor s
  ! x.held.2 && decide (4 ≤ runOf (decide (800 ≤ t)) x.hi.2.1) && ! dwelling c x.dwell.2

/-- The sensor after the sample: its runs, the levels it holds, the dwells of those it has left. -/
def Body.afterSample (t : Int) : Sensor :=
  let x := b.sensor s
  let lo := (runOf (decide (t < 760 - b.hyst)) x.lo.1, runOf (decide (t < 800 - b.hyst)) x.lo.2)
  let out1 := x.held.1 && decide (4 ≤ lo.1)
  let out2 := x.held.2 && decide (4 ≤ lo.2)
  ⟨(runOf (decide (760 ≤ t)) x.hi.1, runOf (decide (800 ≤ t)) x.hi.2.1, runOf (decide (880 ≤ t)) x.hi.2.2), lo,
    ((x.held.1 || b.entersWarning c s t) && ! out1, (x.held.2 || b.entersThrottle c s t) && ! out2),
    (if out1 then some (c.cyc + 100000000) else x.dwell.1, if out2 then some (c.cyc + 100000000) else x.dwell.2)⟩

/-- The body with the sensor and its register brought up to date. -/
def Body.sensorNoted (t : Int) : Body := (b.setSensor s (b.afterSample c s t)).fixLevel s

/-- The body with Warning noted where it is entered. -/
def Body.warningNoted (t : Int) : Body :=
  if b.entersWarning c s t then (b.sensorNoted c s t).levelEntry c s 1 else b.sensorNoted c s t

/-- The body with Throttle noted where it is entered. -/
def Body.levelsNoted (t : Int) : Body :=
  if b.entersThrottle c s t then (b.warningNoted c s t).levelEntry c s 2 else b.warningNoted c s t

theorem levels_eq (t : Int) : b.levels c s t = (b.levelsNoted c s t).fixState c := rfl

theorem sensorNoted_frame (t : Int) :
    ∃ r, b.sensorNoted c s t = { b with regs := r, thm := { b.thm with sensors := b.thm.sensors.put .reset s (b.afterSample c s t) } } :=
  ⟨_, rfl⟩

theorem rget_sensorNoted (t : Int) (j : Nat) :
    (b.sensorNoted c s t).rget j = if j = TEMP s then withLevel (b.rget (TEMP s)) (b.afterSample c s t) else b.rget j := by
  have hs : (b.setSensor s (b.afterSample c s t)).sensor s = b.afterSample c s t := SMap.get_put_same _ _ _ _
  have hr : ∀ j, (b.setSensor s (b.afterSample c s t)).rget j = b.rget j := fun _ => rfl
  rw [Body.sensorNoted, rget_fixLevel, hs, hr, hr]

theorem sensorNoted_regs (t : Int) : b.regsKept [TEMP s] (b.sensorNoted c s t) := fun j hj => by
  rw [rget_sensorNoted, if_neg (by simpa using hj)]

theorem warningNoted_regs (t : Int) : (b.sensorNoted c s t).regsKept [THM_STATUS, FAULT_DROP] (b.warningNoted c s t) := by
  unfold Body.warningNoted
  split
  · exact levelEntry_regs _ _ _ _
  · exact .refl _ _

theorem levelsNoted_regs (t : Int) : (b.sensorNoted c s t).regsKept [THM_STATUS, FAULT_DROP] (b.levelsNoted c s t) := by
  unfold Body.levelsNoted
  split
  · exact (warningNoted_regs b c s t).trans (levelEntry_regs _ _ _ _)
  · exact warningNoted_regs b c s t

theorem levelsNoted_frame (t : Int) : b.thermalFrame (b.levelsNoted c s t) := by
  have h0 : b.thermalFrame (b.sensorNoted c s t) := by
    obtain ⟨r, h⟩ := sensorNoted_frame b c s t
    rw [h]; exact ⟨_, _, _, _, _, rfl⟩
  have h1 : b.thermalFrame (b.warningNoted c s t) := by
    unfold Body.warningNoted
    split
    · exact h0.trans (levelEntry_frame _ _ _ _)
    · exact h0
  unfold Body.levelsNoted
  split
  · exact h1.trans (levelEntry_frame _ _ _ _)
  · exact h1

theorem levelsNoted_sensors (t : Int) : (b.levelsNoted c s t).thm.sensors = b.thm.sensors.put .reset s (b.afterSample c s t) := by
  have h1 : (b.warningNoted c s t).thm = (b.sensorNoted c s t).thm := by
    unfold Body.warningNoted
    split
    · exact levelEntry_thm _ _ _ _
    · rfl
  have h2 : (b.levelsNoted c s t).thm = (b.sensorNoted c s t).thm := by
    unfold Body.levelsNoted
    split
    · rw [levelEntry_thm, h1]
    · exact h1
  obtain ⟨r, h⟩ := sensorNoted_frame b c s t
  rw [h2, h]

theorem levelsNoted_sensor (t : Int) : (b.levelsNoted c s t).sensor s = b.afterSample c s t := by
  rw [Body.sensor, levelsNoted_sensors]; exact SMap.get_put_same _ _ _ _

/-- The sticky bits of the levels entered; every other bit of THM_STATUS is as it was. -/
theorem levelsNoted_status (t : Int) {i : Nat} (hi : i < 32) :
    (b.levelsNoted c s t).rbit THM_STATUS i =
      (b.rbit THM_STATUS i || (decide (i = 9) && b.entersWarning c s t) || (decide (i = 10) && b.entersThrottle c s t)) := by
  have h0 : (b.sensorNoted c s t).rget THM_STATUS = b.rget THM_STATUS := by
    rw [rget_sensorNoted, if_neg (TEMP_ne_status s).symm]
  have h1 : (b.warningNoted c s t).rbit THM_STATUS i = (b.rbit THM_STATUS i || (decide (i = 9) && b.entersWarning c s t)) := by
    unfold Body.warningNoted Body.rbit
    cases b.entersWarning c s t
    · simp [h0]
    · rw [if_pos rfl, levelEntry_status, bit_setBit _ _ _ _ hi, h0]
      by_cases h : i = 9 <;> simp [h]
  unfold Body.levelsNoted
  cases b.entersThrottle c s t
  · simp [h1]
  · rw [if_pos rfl, Body.rbit, levelEntry_status, bit_setBit _ _ _ _ hi, ← Body.rbit, h1]
    by_cases h : i = 10 <;> simp [h]

theorem levelsNoted_state (t : Int) : (b.levelsNoted c s t).rfld THM_STATUS 0 2 = b.rfld THM_STATUS 0 2 := by
  have h0 : (b.sensorNoted c s t).rget THM_STATUS = b.rget THM_STATUS := by
    rw [rget_sensorNoted, if_neg (TEMP_ne_status s).symm]
  have h1 : (b.warningNoted c s t).rfld THM_STATUS 0 2 = b.rfld THM_STATUS 0 2 := by
    unfold Body.warningNoted Body.rfld
    split
    · rw [levelEntry_status, fld_setBit _ _ _ _ _ (by omega), h0]
    · rw [h0]
  unfold Body.levelsNoted
  split
  · rw [Body.rfld, levelEntry_status, fld_setBit _ _ _ _ _ (by omega), ← Body.rfld, h1]
  · exact h1
end

/-! ### The sample -/

/-- The body after a sample that does not shut the device down. -/
def Body.sampled (b : Body) (c : Clock) (s : Nat) (t : BitVec 11) : Body :=
  ((b.setReading s t).levels c s (sval 11 t.toNat)).fixTemps

section
variable (b : Body) (c : Clock) (s : Nat) (t : BitVec 11)

/-- The body after the levels of the sample are noted, before the thermal state. -/
def Body.sampleNoted : Body := (b.setReading s t).levelsNoted c s t.toInt

theorem sampled_eq : b.sampled c s t = ((b.sampleNoted c s t).fixState c).fixTemps := by
  rw [Body.sampled, sval_toNat, levels_eq, Body.sampleNoted]

theorem afterSample_setReading (x : Int) : (b.setReading s t).afterSample c s x = b.afterSample c s x := by
  have hs : (b.setReading s t).sensor s = b.sensor s := rfl
  have hh : (b.setReading s t).hyst = b.hyst := by
    rw [Body.hyst, (setReading_regs b s t).rfld (by simp [TEMP, THM_CTL]; omega), Body.hyst]
  unfold Body.afterSample Body.entersWarning Body.entersThrottle
  rw [hs, hh]

theorem sampleNoted_regs : b.regsKept [TEMP s, THM_STATUS, FAULT_DROP] (b.sampleNoted c s t) :=
  (((setReading_regs b s t).trans (sensorNoted_regs _ c s _)).mono (by simp)).trans ((levelsNoted_regs _ c s _).mono (by simp))

theorem sampleNoted_frame : b.thermalFrame (b.sampleNoted c s t) :=
  Body.thermalFrame.trans ⟨_, _, _, _, _, rfl⟩ (levelsNoted_frame _ _ _ _)

theorem sampleNoted_sensors : (b.sampleNoted c s t).thm.sensors = b.thm.sensors.put .reset s (b.afterSample c s t.toInt) := by
  rw [Body.sampleNoted, levelsNoted_sensors, afterSample_setReading]; rfl

theorem sampleNoted_sensor : (b.sampleNoted c s t).sensor s = b.afterSample c s t.toInt := by
  rw [Body.sampleNoted, levelsNoted_sensor, afterSample_setReading]

theorem sampled_regs : b.regsKept [TEMP s, THM_STATUS, FAULT_DROP, GOV_STATUS, THROTTLE_COUNT, TEMP_MAX] (b.sampled c s t) := by
  rw [sampled_eq]
  exact (((sampleNoted_regs b c s t).mono (by simp)).trans ((fixState_regs _ c).mono (by simp))).trans ((fixTemps_regs _).mono (by simp))

theorem sampled_frame : b.thermalFrame (b.sampled c s t) := by
  rw [sampled_eq]
  obtain ⟨r, h⟩ := fixTemps_frame ((b.sampleNoted c s t).fixState c)
  rw [h]
  exact ((sampleNoted_frame b c s t).trans (fixState_frame _ c).thermal).trans ⟨_, _, _, _, _, rfl⟩

/-- The thermal loop after the sample is that after the thermal state was put right. -/
theorem sampled_thm : (b.sampled c s t).thm = ((b.sampleNoted c s t).fixState c).thm := by
  rw [sampled_eq]
  obtain ⟨r, h⟩ := fixTemps_frame ((b.sampleNoted c s t).fixState c)
  rw [h]

theorem sampled_sensors : (b.sampled c s t).thm.sensors = b.thm.sensors.put .reset s (b.afterSample c s t.toInt) := by
  rw [sampled_thm, (fixState_frame _ c).sensors, sampleNoted_sensors]

theorem sampled_sensor : (b.sampled c s t).sensor s = b.afterSample c s t.toInt := by
  rw [Body.sensor, sampled_sensors]; exact SMap.get_put_same _ _ _ _

theorem sampled_host_evt :
    (b.sampled c s t).host = (b.sampleNoted c s t).host ∧ (b.sampled c s t).evt = (b.sampleNoted c s t).evt := by
  rw [sampled_eq]
  obtain ⟨r, h⟩ := fixTemps_frame ((b.sampleNoted c s t).fixState c)
  rw [h]
  exact ⟨(fixState_frame _ c).host, (fixState_frame _ c).evt⟩

theorem TEMP_not_state (i : Nat) : TEMP i ∉ [THM_STATUS, GOV_STATUS, THROTTLE_COUNT] := by
  simp [TEMP, THM_STATUS, GOV_STATUS, THROTTLE_COUNT]; omega

theorem TEMP_not_noted (i : Nat) : TEMP i ∉ [THM_STATUS, FAULT_DROP] := by simp [TEMP, THM_STATUS, FAULT_DROP]; omega

/-- The register of the sensor after its sample. -/
theorem sampled_temp :
    (b.sampled c s t).rget (TEMP s) = withLevel (withReading (b.rget (TEMP s)) t) (b.afterSample c s t.toInt) := by
  rw [sampled_eq, fixTemps_regs _ _ (TEMP_not_status_max s), fixState_regs _ _ _ (TEMP_not_state s), Body.sampleNoted,
    levelsNoted_regs _ _ _ _ _ (TEMP_not_noted s), rget_sensorNoted, if_pos rfl, afterSample_setReading, rget_setReading, if_pos rfl]

theorem sampled_temp_other {i : Nat} (h : i ≠ s) : (b.sampled c s t).rget (TEMP i) = b.rget (TEMP i) := by
  have hne : TEMP i ≠ TEMP s := fun e => h (TEMP_injective e)
  refine sampled_regs b c s t _ ?_
  simp only [List.mem_cons, hne, false_or]
  simp [TEMP, THM_STATUS, FAULT_DROP, GOV_STATUS, THROTTLE_COUNT, TEMP_MAX]; omega

/-- Above the thermal state and NEAR, THM_STATUS gains the sticky bits of the levels entered alone. -/
theorem sampled_status {i : Nat} (hi : 3 ≤ i) (h32 : i < 32) :
    (b.sampled c s t).rbit THM_STATUS i =
      (b.rbit THM_STATUS i || (decide (i = 9) && b.entersWarning c s t.toInt) || (decide (i = 10) && b.entersThrottle c s t.toInt)) := by
  obtain ⟨on, hn⟩ := fixTemps_status ((b.sampleNoted c s t).fixState c)
  rw [sampled_eq, Body.rbit, hn, bit_setBit_other _ _ h32 (by omega), fixState_status, bit_setFld_other _ _ _ _ h32 (by omega),
    ← Body.rbit, Body.sampleNoted, levelsNoted_status _ _ _ _ h32, (setReading_regs b s t).rbit (by simp [TEMP, THM_STATUS]; omega)]
  rfl

theorem sampled_state : (b.sampled c s t).rfld THM_STATUS 0 2 = (b.sampleNoted c s t).thermalState % 4 := by
  obtain ⟨on, hn⟩ := fixTemps_status ((b.sampleNoted c s t).fixState c)
  rw [sampled_eq, Body.rfld, hn, fld_setBit _ _ _ _ _ (by omega), fixState_status, fld_setFld_same _ _ _ _ (by omega)]
  rfl

/-- TEMP_MAX after a sample holds the hottest valid reading. -/
theorem sampled_hottest (hs : s < 24) :
    let u := b.sampled c s t
    ∃ m : Nat, m < 24 ∧ u.rbit (TEMP m) 15 = true ∧ u.rfld TEMP_MAX 0 16 = u.rfld (TEMP m) 0 16 ∧ u.rfld TEMP_MAX 16 5 = m ∧
      ∀ i : Nat, i < 24 → u.rbit (TEMP i) 15 = true → u.reading i < u.reading m ∨ (u.reading i = u.reading m ∧ m ≤ i) := by
  have hv : ((b.sampleNoted c s t).fixState c).rbit (TEMP s) 15 = true := by
    rw [← (fixTemps_regs _).rbit (TEMP_not_status_max s), ← sampled_eq, Body.rbit, sampled_temp,
      bit_withLevel_other _ _ (by omega) (by omega), bit_withReading_valid]
  dsimp only
  rw [sampled_eq]
  exact fixTemps_hottest _ hs hv

/-- The reading, its validity and NEAR in the register of the sensor. -/
theorem sampled_reading : (b.sampled c s t).rfld (TEMP s) 0 11 = t.toNat ∧ (b.sampled c s t).rbit (TEMP s) 15 = true ∧
    (b.sampled c s t).rbit (TEMP s) 14 = decide (720 ≤ t.toInt) := by
  refine ⟨?_, ?_, ?_⟩
  · rw [Body.rfld, sampled_temp, fld_withLevel_reading, fld_withReading]
  · rw [Body.rbit, sampled_temp, bit_withLevel_other _ _ (by omega) (by omega), bit_withReading_valid]
  · rw [Body.rbit, sampled_temp, bit_withLevel_other _ _ (by omega) (by omega), bit_withReading_near]

end

end Sys2Proof.Machine
end

section
/-! TEMP_SAMPLE (R392, R393): Warning and Throttle entered and left, and the paths of a sample. -/

namespace Sys2Proof.Machine

/-! ### Warning and Throttle entered, Warning left -/

section
variable {b : Body} (c : Clock) {s : Nat} {t : BitVec 11}

theorem now_eq_extract (c : Clock) : BitVec.ofNat 64 c.now = c.tt.extractLsb' 32 64 := by
  apply BitVec.eq_of_toNat_eq
  simp [Clock.now, Nat.shiftRight_eq_div_pow]

/-- A sensor that holds nothing and dwells on nothing, at its fourth sample in a row from 95 °C and not its fourth from 100 °C, holds Warning. -/
theorem afterSample_warns (h760 : 760 ≤ t.toInt) (h3 : (b.sensor s).hi.1 = 3) (hlt : t.toInt < 800 ∨ (b.sensor s).hi.2.1 < 3)
    (hh : (b.sensor s).held = (false, false)) (hd : (b.sensor s).dwell = (none, none)) :
    b.entersWarning c s t.toInt = true ∧ b.entersThrottle c s t.toInt = false ∧ (b.afterSample c s t.toInt).held = (true, false) := by
  have hw : b.entersWarning c s t.toInt = true := by simp [Body.entersWarning, runOf, h760, h3, hh, hd, dwelling]
  have ht : b.entersThrottle c s t.toInt = false := by
    have hr : ¬ 4 ≤ runOf (decide (800 ≤ t.toInt)) (b.sensor s).hi.2.1 := by
      unfold runOf
      split
      · rename_i h; simp only [decide_eq_true_eq] at h; omega
      · omega
    simp [Body.entersThrottle, hr]
  exact ⟨hw, ht, by simp [Body.afterSample, hw, ht, hh]⟩

/-- A sensor in Warning at its fourth sample in a row from 100 °C holds Throttle too. -/
theorem afterSample_throttles (h800 : 800 ≤ t.toInt) (h3 : (b.sensor s).hi.2.1 = 3) (hh : (b.sensor s).held = (true, false))
    (hd : (b.sensor s).dwell = (none, none)) :
    b.entersThrottle c s t.toInt = true ∧ (b.afterSample c s t.toInt).held = (true, true) := by
  have ht : b.entersThrottle c s t.toInt = true := by simp [Body.entersThrottle, runOf, h800, h3, hh, hd, dwelling]
  have hlo : ¬ t.toInt < 760 - b.hyst := by unfold Body.hyst; omega
  exact ⟨ht, by simp [Body.afterSample, ht, hh, runOf, hlo]⟩

/-- A sensor in Warning at its fourth sample in a row below 95 °C less HYST holds nothing, and its dwell begins. -/
theorem afterSample_leaves (hlt : t.toInt < 760 - b.hyst) (h3 : (b.sensor s).lo.1 = 3) (hh : (b.sensor s).held = (true, false)) :
    (b.afterSample c s t.toInt).held = (false, false) ∧ (b.afterSample c s t.toInt).dwell.1 = some (c.cyc + 100000000) := by
  have h800 : ¬ 800 ≤ t.toInt := by unfold Body.hyst at hlt; omega
  have ht : b.entersThrottle c s t.toInt = false := by simp [Body.entersThrottle, runOf, h800]
  exact ⟨by simp [Body.afterSample, ht, hh, runOf, hlt, h3], by simp [Body.afterSample, hh, runOf, hlt, h3]⟩

/-- LEVEL after the sample shows the highest level held. -/
theorem sampled_level : (b.sampled c s t).rfld (TEMP s) 11 2 =
    if (b.afterSample c s t.toInt).held.2 then 2 else if (b.afterSample c s t.toInt).held.1 then 1 else 0 := by
  rw [Body.rfld, sampled_temp, fld_withLevel_level]

theorem sampled_dwell : (b.sampled c s t).rbit (TEMP s) 13 =
    ((b.afterSample c s t.toInt).dwell.1.isSome || (b.afterSample c s t.toInt).dwell.2.isSome) := by
  rw [Body.rbit, sampled_temp, bit_withLevel_dwell]

/-- The body of a sample just before the entry to Warning. -/
def Body.beforeWarning (b : Body) (c : Clock) (s : Nat) (t : BitVec 11) : Body := (b.setReading s t).sensorNoted c s t.toInt

theorem beforeWarning_regs (b : Body) (c : Clock) (s : Nat) (t : BitVec 11) : b.regsKept [TEMP s] (b.beforeWarning c s t) :=
  (setReading_regs b s t).trans (sensorNoted_regs _ c s _)

theorem sampleNoted_warns (hw : b.entersWarning c s t.toInt = true) (ht : b.entersThrottle c s t.toInt = false) :
    b.sampleNoted c s t = (b.beforeWarning c s t).levelEntry c s 1 := by
  have hw' : (b.setReading s t).entersWarning c s t.toInt = true := hw
  have ht' : (b.setReading s t).entersThrottle c s t.toInt = false := ht
  rw [Body.sampleNoted, Body.levelsNoted, ht', if_neg (by decide), Body.warningNoted, if_pos hw', Body.beforeWarning]

theorem sampled_publishes (hw : b.entersWarning c s t.toInt = true) (ht : b.entersThrottle c s t.toInt = false)
    (he : b.rbit THM_CTL 16 = true) : ∃ e ∈ (b.sampled c s t).evt.flight, e.ch = b.rfld THM_CTL 10 6 ∧ e.due = c.cyc + 2 := by
  have hc : THM_CTL ∉ [TEMP s] := by simp [TEMP, THM_CTL]; omega
  rw [(sampled_host_evt b c s t).2, sampleNoted_warns c hw ht, ← (beforeWarning_regs b c s t).rfld hc]
  exact levelEntry_publishes _ _ _ _ (((beforeWarning_regs b c s t).rbit hc 16).trans he)

theorem sampled_records (hs : s < 24) (hw : b.entersWarning c s t.toInt = true) (ht : b.entersThrottle c s t.toInt = false)
    (hok : b.faultRingOk = true) (hr : (b.hring (b.rfld HST_CTL 8 8)).recs = []) :
    ((b.sampled c s t).hring (b.rfld HST_CTL 8 8)).recs =
      [⟨0x81, 0, 0, 0, BitVec.ofNat 32 (0x10D + s * 2 ^ 16), BitVec.ofNat 64 ((b.sampled c s t).rnat (TEMP s)), c.tt.extractLsb' 32 64,
        false, none, none⟩] := by
  have hhost : (b.beforeWarning c s t).host = b.host := rfl
  obtain ⟨hok', hf⟩ := faultRingOk_congr (beforeWarning_regs b c s t) hhost (by simp [TEMP]; omega)
  have hrec : ((b.beforeWarning c s t).hring ((b.beforeWarning c s t).rfld HST_CTL 8 8)).recs = [] := by rw [hf]; exact hr
  have htemp : (b.sampled c s t).rnat (TEMP s) = (b.beforeWarning c s t).rnat (TEMP s) := by
    rw [Body.rnat, sampled_eq, fixTemps_regs _ _ (TEMP_not_status_max s), fixState_regs _ _ _ (TEMP_not_state s),
      sampleNoted_warns c hw ht, levelEntry_regs _ _ _ _ _ (TEMP_not_noted s), ← Body.rnat]
  have hh := levelEntry_records (b.beforeWarning c s t) c s 1 (hok'.trans hok) hrec
  rw [← sampleNoted_warns c hw ht, hf] at hh
  rw [Body.hring, (sampled_host_evt b c s t).1, ← Body.hring, hh, htemp, now_eq_extract]
  have hd : 0x0D + (1 * 2 ^ 8 + s * 2 ^ 16) = 0x10D + s * 2 ^ 16 := by omega
  rw [hd]; rfl

/-- Entry to Throttle: the state, the step raised and its period begun. -/
theorem sampled_enters_throttle (hheld : (b.afterSample c s t.toInt).held.2 = true) (hst : b.rfld THM_STATUS 0 2 ≠ 2)
    (hstep : b.rfld GOV_STATUS 5 5 < 16) :
    (b.sampled c s t).rfld THM_STATUS 0 2 = 2 ∧ (b.sampled c s t).rfld GOV_STATUS 5 5 = b.rfld GOV_STATUS 5 5 + 1 ∧
    (b.sampled c s t).rfld GOV_STATUS 0 5 = max (b.rfld GOV_STATUS 5 5 + 1) (b.rfld GOV_CTL 0 5) ∧
    (b.sampled c s t).thm.stepAt = c.cyc + 10000000 := by
  have hts : (b.sampleNoted c s t).thermalState = 2 := thermalState_throttle (by rw [sampleNoted_sensor]; exact hheld)
  have hwas : (b.sampleNoted c s t).rfld THM_STATUS 0 2 = b.rfld THM_STATUS 0 2 := by
    rw [Body.sampleNoted, levelsNoted_state, (setReading_regs b s t).rfld (by simp [TEMP, THM_STATUS]; omega)]
  have hgs : ∀ lo len, (b.sampleNoted c s t).rfld GOV_STATUS lo len = b.rfld GOV_STATUS lo len :=
    (sampleNoted_regs b c s t).rfld (by simp [TEMP, THM_STATUS, FAULT_DROP, GOV_STATUS]; omega)
  have hgc : (b.sampleNoted c s t).rfld GOV_CTL 0 5 = b.rfld GOV_CTL 0 5 :=
    (sampleNoted_regs b c s t).rfld (by simp [TEMP, THM_STATUS, FAULT_DROP, GOV_CTL]; omega) 0 5
  obtain ⟨h1, h2, h3⟩ := fixState_enters (b.sampleNoted c s t) c hts (by rw [hwas]; exact hst) (by rw [hgs]; exact hstep)
  have hg : ∀ lo len, (b.sampled c s t).rfld GOV_STATUS lo len = ((b.sampleNoted c s t).fixState c).rfld GOV_STATUS lo len := fun lo len => by
    rw [sampled_eq, (fixTemps_regs _).rfld (by decide)]
  refine ⟨by rw [sampled_state, hts], ?_, ?_, by rw [sampled_thm, h3]⟩
  · rw [hg, h1, hgs]
  · rw [hg, h2, hgs, hgc]
end

/-! ### The paths of a sample -/

/-- The body with the sample of the fast loop noted (R392). -/
def Body.fastSeen (b : Body) (c : Clock) (s : Nat) : Body :=
  { b with thm := { b.thm with last := c.cyc, seen := setBit b.thm.seen s true } }

/-- A sensor whose run of consecutive samples starts afresh. -/
def Sensor.afresh (x : Sensor) : Sensor := { x with hi := (0, 0, 0), lo := (0, 0) }

/-- The body once the fast loop has updated every sensor: FALLBACK clear, every run begun afresh, no reading valid (R392). -/
def Body.fastAgain (b : Body) (c : Clock) : Body :=
  (List.range 24).foldl (fun b s => b.rsetBit (TEMP s) 15 false)
    (({ b with thm := { b.thm with last := c.cyc, seen := 0, sensors := b.thm.sensors.mapVals .reset Sensor.afresh } } : Body).rsetBit
      THM_STATUS 3 false)

section
variable {st : State} {s : Nat} (t : BitVec 11)

theorem tempSample_eq (s : Nat) (st : State) : tempSample s t st =
    if ! st.clock.on || ! st.body.rbit FLT_STATUS 5 then st
    else if ! st.body.rbit THM_STATUS 3 then thermalSample s t { st with body := st.body.fastSeen st.clock s }
    else if setBit st.body.thm.seen s true = 0xFFFFFF then thermalSample s t { st with body := st.body.fastAgain st.clock }
    else { st with body := st.body.fastSeen st.clock s } := rfl

theorem tempSample_off (h : st.clock.on = false ∨ st.body.rbit FLT_STATUS 5 = false) : tempSample s t st = st := by
  rw [tempSample_eq, if_pos]
  rcases h with h | h <;> simp [h]

section
variable (hon : st.clock.on = true) (hfw : st.body.rbit FLT_STATUS 5 = true)
include hon hfw

theorem tempSample_fast (hfb : st.body.rbit THM_STATUS 3 = false) :
    tempSample s t st = thermalSample s t { st with body := st.body.fastSeen st.clock s } := by
  rw [tempSample_eq, if_neg (by simp [hon, hfw]), if_pos (by simp [hfb])]

theorem tempSample_counts (hfb : st.body.rbit THM_STATUS 3 = true) (hall : setBit st.body.thm.seen s true ≠ 0xFFFFFF) :
    tempSample s t st = { st with body := st.body.fastSeen st.clock s } := by
  rw [tempSample_eq, if_neg (by simp [hon, hfw]), if_neg (by simp [hfb]), if_neg hall]

theorem tempSample_again (hfb : st.body.rbit THM_STATUS 3 = true) (hall : setBit st.body.thm.seen s true = 0xFFFFFF) :
    tempSample s t st = thermalSample s t { st with body := st.body.fastAgain st.clock } := by
  rw [tempSample_eq, if_neg (by simp [hon, hfw]), if_neg (by simp [hfb]), if_pos hall]
end

theorem thermalSample_eq (s : Nat) (st : State) : thermalSample s t st =
    if 4 ≤ (((st.body.setReading s t).levels st.clock s (sval 11 t.toNat)).sensor s).hi.2.2 then
      shutDown { st with body := st.body.sampled st.clock s t }
    else { st with body := st.body.sampled st.clock s t } := rfl

/-- The sensor a sample judges is the one it leaves. -/
theorem levels_sensor (s : Nat) (b : Body) (c : Clock) :
    ((b.setReading s t).levels c s (sval 11 t.toNat)).sensor s = b.afterSample c s t.toInt := by
  rw [levels_eq, sval_toNat, Body.sensor, (fixState_frame _ c).sensors, ← Body.sensor, levelsNoted_sensor, afterSample_setReading]

/-- A sample that is not the fourth in a row from 110 °C. -/
theorem thermalSample_cool (h : (st.body.afterSample st.clock s t.toInt).hi.2.2 < 4) :
    thermalSample s t st = { st with body := st.body.sampled st.clock s t } := by
  rw [thermalSample_eq, levels_sensor, if_neg (by omega)]

/-- One that is. -/
theorem thermalSample_hot (h : 4 ≤ (st.body.afterSample st.clock s t.toInt).hi.2.2) :
    thermalSample s t st = shutDown { st with body := st.body.sampled st.clock s t } := by
  rw [thermalSample_eq, levels_sensor, if_pos h]
end

end Sys2Proof.Machine
end

section
/-! FALLBACK, the housekeeping round and dwells (R392, R393). -/

namespace Sys2Proof.Machine

/-! ### No reading valid -/

/-- Every sensor's reading made invalid. -/
def Body.invalidated (b : Body) (l : List Nat) : Body := l.foldl (fun b s => b.rsetBit (TEMP s) 15 false) b

theorem invalidated_frame (b : Body) (l : List Nat) : ∃ r, b.invalidated l = { b with regs := r } := by
  induction l generalizing b with
  | nil => exact ⟨_, rfl⟩
  | cons x t ih =>
    obtain ⟨r, h⟩ := ih (b.rsetBit (TEMP x) 15 false)
    exact ⟨r, h⟩

theorem invalidated_regs (b : Body) (l : List Nat) : b.regsKept (l.map TEMP) (b.invalidated l) :=
  (Body.regsKept.refl _ b).foldl fun b _ hx => (Body.regsKept.refl _ b).rsetBit (List.mem_map_of_mem hx) _ _

theorem rbit_invalidated (b : Body) (l : List Nat) {i : Nat} (h : i ∈ l ∨ b.rbit (TEMP i) 15 = false) :
    (b.invalidated l).rbit (TEMP i) 15 = false := by
  induction l generalizing b with
  | nil => exact h.resolve_left List.not_mem_nil
  | cons x t ih =>
    refine ih (b.rsetBit (TEMP x) 15 false) ?_
    by_cases hx : i = x
    · subst hx; exact .inr (b.rbit_rsetBit_same _ _ _ (by omega))
    · rcases h with h | h
      · exact .inl ((List.mem_cons.1 h).resolve_left hx)
      · refine .inr ?_
        rw [b.rbit_rsetBit_other (fun e => hx (TEMP_injective e)), h]

theorem TEMP_range_not_mem {k : Nat} (h : ∀ i, i < 24 → k ≠ TEMP i) : k ∉ (List.range 24).map TEMP := by
  simp only [List.mem_map, List.mem_range, not_exists, not_and]
  exact fun i hi e => h i hi e.symm

theorem status_not_temps : THM_STATUS ∉ (List.range 24).map TEMP := TEMP_range_not_mem fun i _ => (TEMP_ne_status i).symm

/-- What holds of the unlisted value and of every changed one holds of every value read. -/
theorem get_mapVals {α : Type} [DecidableEq α] {P : α → Prop} (m : SMap α) (d : α) (f : α → α) (hd : P d) (hf : ∀ x, P (f x)) (k : Nat) :
    P ((m.mapVals d f).get d k) := by
  rcases get_mem_or_default (m.mapVals d f) d k with h | ⟨e, he, h⟩
  · rw [h]; exact hd
  · rw [← h]
    simp only [SMap.mapVals, List.mem_filter, List.mem_map] at he
    obtain ⟨⟨x, _, rfl⟩, _⟩ := he
    exact hf _

theorem mem_mapVals_afresh {m : SMap Sensor} {e : Nat × Sensor} (h : e ∈ (m.mapVals .reset Sensor.afresh).entries) :
    e.2.hi = (0, 0, 0) ∧ e.2.lo = (0, 0) := by
  simp only [SMap.mapVals, List.mem_filter, List.mem_map] at h
  obtain ⟨⟨x, _, rfl⟩, _⟩ := h
  exact ⟨rfl, rfl⟩

/-! ### The fast loop again -/

section
variable (b : Body) (c : Clock)

/-- The body before the readings are made invalid. -/
def Body.againNoted : Body :=
  ({ b with thm := { b.thm with last := c.cyc, seen := 0, sensors := b.thm.sensors.mapVals .reset Sensor.afresh } } : Body).rsetBit
    THM_STATUS 3 false

theorem fastAgain_eq : b.fastAgain c = (b.againNoted c).invalidated (List.range 24) := rfl

theorem fastAgain_thm : (b.fastAgain c).thm.sensors = b.thm.sensors.mapVals .reset Sensor.afresh := by
  obtain ⟨r, h⟩ := invalidated_frame (b.againNoted c) (List.range 24)
  rw [fastAgain_eq, h]; rfl

theorem fastAgain_hi (s : Nat) : ((b.fastAgain c).sensor s).hi = (0, 0, 0) := by
  rw [Body.sensor, fastAgain_thm]
  exact get_mapVals (P := fun x : Sensor => x.hi = (0, 0, 0)) _ _ _ rfl (fun _ => rfl) s

theorem fastAgain_fallback : (b.fastAgain c).rbit THM_STATUS 3 = false := by
  rw [fastAgain_eq, (invalidated_regs _ _).rbit status_not_temps]
  exact Body.rbit_rsetBit_same _ _ _ _ (by omega)

theorem fastAgain_valid {i : Nat} (hi : i < 24) : (b.fastAgain c).rbit (TEMP i) 15 = false :=
  rbit_invalidated _ _ (.inl (List.mem_range.2 hi))
end

/-! ### FALLBACK sets (R392) -/

section
variable (b : Body)

/-- The body before the readings are made invalid. -/
def Body.fallbackNoted : Body :=
  let u := (b.rsetBit THM_STATUS 3 true).stick THM_STATUS 11
  { u with thm := { u.thm with seen := 0, sensors := u.thm.sensors.mapVals .reset Sensor.afresh } }

theorem setFallback_eq (h : b.rbit THM_STATUS 3 = false) : b.setFallback = b.fallbackNoted.invalidated (List.range 24) := by
  rw [Body.setFallback, h, if_neg (by decide)]; rfl

theorem setFallback_set (h : b.rbit THM_STATUS 3 = true) : b.setFallback = b := by rw [Body.setFallback, if_pos h]

theorem rget_fallbackNoted (j : Nat) :
    b.fallbackNoted.rget j = if j = THM_STATUS then setBit (setBit (b.rget THM_STATUS) 3 true) 11 true else b.rget j := by
  have h : b.fallbackNoted.rget j = ((b.rsetBit THM_STATUS 3 true).stick THM_STATUS 11).rget j := rfl
  rw [h]
  by_cases hj : j = THM_STATUS <;> simp [Body.rget_stick, Body.rget_rsetBit, hj]

theorem setFallback_status {i : Nat} (h : b.rbit THM_STATUS 3 = false) (hi : i = 3 ∨ i = 11) : b.setFallback.rbit THM_STATUS i = true := by
  rw [setFallback_eq b h, (invalidated_regs _ _).rbit status_not_temps, Body.rbit, rget_fallbackNoted, if_pos rfl]
  rcases hi with rfl | rfl
  · rw [bit_setBit_other _ _ (by omega) (by omega), bit_setBit_same _ _ _ (by omega)]
  · exact bit_setBit_same _ _ _ (by omega)

theorem setFallback_regs (h : b.rbit THM_STATUS 3 = false) : b.regsKept (THM_STATUS :: (List.range 24).map TEMP) b.setFallback := by
  have hn : b.regsKept [THM_STATUS] b.fallbackNoted := fun j hj => by rw [rget_fallbackNoted, if_neg (by simpa using hj)]
  rw [setFallback_eq b h]
  exact (hn.mono (by simp)).trans ((invalidated_regs _ _).mono (List.subset_cons_self _ _))

theorem setFallback_valid (h : b.rbit THM_STATUS 3 = false) {i : Nat} (hi : i < 24) : b.setFallback.rbit (TEMP i) 15 = false := by
  rw [setFallback_eq b h]
  exact rbit_invalidated _ _ (.inl (List.mem_range.2 hi))

theorem setFallback_thm (h : b.rbit THM_STATUS 3 = false) :
    b.setFallback.thm = { b.thm with seen := 0, sensors := b.thm.sensors.mapVals .reset Sensor.afresh } := by
  obtain ⟨r, hr⟩ := invalidated_frame b.fallbackNoted (List.range 24)
  rw [setFallback_eq b h, hr]; rfl
end

/-! ### The housekeeping round (R392) -/

/-- Samples of consecutive sensors from `n` on. -/
def Body.sampledFrom (b : Body) (c : Clock) (n : Nat) : List (BitVec 11) → Body
  | [] => b
  | t :: l => (b.sampled c n t).sampledFrom c (n + 1) l

/-- One step of the round. -/
def houseStep (s : State) (e : BitVec 11 × Nat) : State :=
  if s.clock.on && s.body.rbit THM_STATUS 3 then thermalSample e.2 e.1 s else s

theorem housekeeping_on {s : State} (h : s.clock.on = true) (temps : List (BitVec 11)) (rails : BitVec 17) :
    housekeeping temps rails s =
      ((temps.take 24).zipIdx).foldl houseStep { s with body := { s.body with pwr := { s.body.pwr with rails := rails } } } := by
  rw [housekeeping, if_neg (by simp [h])]; rfl

theorem housekeeping_off {s : State} (h : s.clock.on = false) (temps : List (BitVec 11)) (rails : BitVec 17) :
    housekeeping temps rails s = s := by simp [housekeeping, h]

theorem foldl_houseStep_fast (l : List (BitVec 11 × Nat)) {s : State} (h : s.body.rbit THM_STATUS 3 = false) : l.foldl houseStep s = s := by
  induction l with
  | nil => rfl
  | cons e t ih => rw [List.foldl_cons, houseStep, if_neg (by simp [h]), ih]

theorem afterSample_below (b : Body) (c : Clock) (s : Nat) {t : Int} (h : t < 880) : (b.afterSample c s t).hi.2.2 = 0 := by
  simp [Body.afterSample, runOf, show ¬ 880 ≤ t by omega]

theorem foldl_houseStep (l : List (BitVec 11)) (n : Nat) (s : State) (hon : s.clock.on = true) (hfb : s.body.rbit THM_STATUS 3 = true)
    (hl : ∀ y ∈ l, y.toInt < 880) : (l.zipIdx n).foldl houseStep s = { s with body := s.body.sampledFrom s.clock n l } := by
  induction l generalizing n s with
  | nil => rfl
  | cons t l ih =>
    have ht : (s.body.afterSample s.clock n t.toInt).hi.2.2 < 4 := by
      rw [afterSample_below _ _ _ (hl t (by simp))]; omega
    have hfb' : (s.body.sampled s.clock n t).rbit THM_STATUS 3 = true := by rw [sampled_status _ _ _ _ (by omega) (by omega), hfb]; rfl
    rw [List.zipIdx_cons, List.foldl_cons, houseStep, if_pos (by simp [hon, hfb]), thermalSample_cool t ht]
    exact ih (n + 1) _ hon hfb' (fun y hy => hl y (by simp [hy]))

theorem sampledFrom_frame (b : Body) (c : Clock) (n : Nat) (l : List (BitVec 11)) : b.thermalFrame (b.sampledFrom c n l) := by
  induction l generalizing b n with
  | nil => exact .refl b
  | cons t l ih => exact (sampled_frame b c n t).trans (ih _ _)

theorem sampledFrom_below (b : Body) (c : Clock) (n : Nat) (l : List (BitVec 11)) {i : Nat} (h : i < n) :
    (b.sampledFrom c n l).rget (TEMP i) = b.rget (TEMP i) := by
  induction l generalizing b n with
  | nil => rfl
  | cons t l ih => rw [Body.sampledFrom, ih _ _ (by omega), sampled_temp_other _ _ _ _ (by omega)]

/-- Each sensor of the round holds its own reading. -/
theorem sampledFrom_reading (b : Body) (c : Clock) (n : Nat) (l : List (BitVec 11)) {i : Nat} (h : i < l.length) :
    (b.sampledFrom c n l).rfld (TEMP (n + i)) 0 11 = (l.getD i 0).toNat ∧ (b.sampledFrom c n l).rbit (TEMP (n + i)) 15 = true := by
  induction l generalizing b n i with
  | nil => simp at h
  | cons t l ih =>
    cases i with
    | zero =>
      obtain ⟨h1, h2, _⟩ := sampled_reading b c n t
      rw [Body.sampledFrom, Body.rfld, Body.rbit, Nat.add_zero, sampledFrom_below _ _ _ _ (by omega)]
      exact ⟨h1, h2⟩
    | succ i =>
      have hi := ih (b.sampled c n t) (n + 1) (i := i) (by simpa using h)
      rw [Nat.add_right_comm, Nat.add_assoc] at hi
      simpa [Body.sampledFrom] using hi

/-! ### Dwells end (R393) -/

section
variable (b : Body) (c : Clock) (s : Nat)

/-- A dwell that still holds. -/
def stillDwells (c : Clock) (d : Option Nat) : Option Nat := if dwelling c d then d else none

theorem isSome_stillDwells (d : Option Nat) : (stillDwells c d).isSome = dwelling c d := by
  cases d with
  | none => rfl
  | some t =>
    unfold stillDwells
    by_cases h : dwelling c (some t) = true <;> simp [h]

/-- The sensor once its dwells that are over have ended. -/
def Body.dwellsLeft : Sensor :=
  let x := b.sensor s
  { x with dwell := (stillDwells c x.dwell.1, stillDwells c x.dwell.2) }

theorem dwellEnd_eq : b.dwellEnd c s = (b.setSensor s (b.dwellsLeft c s)).fixLevel s := rfl

theorem dwellEnd_frame : ∃ r, b.dwellEnd c s =
    { b with regs := r, thm := { b.thm with sensors := b.thm.sensors.put .reset s (b.dwellsLeft c s) } } := ⟨_, rfl⟩

theorem rget_dwellEnd (j : Nat) :
    (b.dwellEnd c s).rget j = if j = TEMP s then withLevel (b.rget (TEMP s)) (b.dwellsLeft c s) else b.rget j := by
  have hs : (b.setSensor s (b.dwellsLeft c s)).sensor s = b.dwellsLeft c s := SMap.get_put_same _ _ _ _
  have hr : ∀ j, (b.setSensor s (b.dwellsLeft c s)).rget j = b.rget j := fun _ => rfl
  rw [dwellEnd_eq, rget_fixLevel, hs, hr, hr]

theorem dwellEnd_sensor (i : Nat) : (b.dwellEnd c s).sensor i = if i = s then b.dwellsLeft c s else b.sensor i := by
  obtain ⟨r, h⟩ := dwellEnd_frame b c s
  rw [h]
  by_cases hi : i = s
  · subst hi; rw [if_pos rfl]; exact SMap.get_put_same _ _ _ _
  · rw [if_neg hi]; exact SMap.get_put_other _ _ _ hi _
end

end Sys2Proof.Machine
end

section
/-! Shut-down (R395): what taking tiles to their Safe state leaves alone, and what the VAUX island keeps. -/

namespace Sys2Proof.Machine

/-! ### Ports go Safe (R104, R130, R410) -/

/-- Ports, inputs and bias outputs, with their registers and flags, and the tiles held may differ; LEG_STATUS and the rest do not. -/
def Body.safeFrame (b u : Body) : Prop :=
  (∃ r l cs bs rv g e, u = { b with regs := r, log := l, comps := cs, bias := bs, rcv := rv, gather := g, evt := e }) ∧
    u.rget LEG_STATUS = b.rget LEG_STATUS

section
variable {b u w : Body}

theorem Body.safeFrame.refl (b : Body) : b.safeFrame b := ⟨⟨_, _, _, _, _, _, _, rfl⟩, rfl⟩
theorem Body.safeFrame.trans (h : b.safeFrame u) (k : u.safeFrame w) : b.safeFrame w := by
  obtain ⟨⟨_, _, _, _, _, _, _, rfl⟩, h⟩ := h
  obtain ⟨⟨_, _, _, _, _, _, _, rfl⟩, k⟩ := k
  exact ⟨⟨_, _, _, _, _, _, _, rfl⟩, k.trans h⟩
theorem Body.safeFrame.foldl {α : Type} {f : Body → α → Body} (hf : ∀ (b : Body) (x : α), b.safeFrame (f b x)) (l : List α) (b : Body) :
    b.safeFrame (l.foldl f b) := by
  induction l generalizing b with
  | nil => exact .refl b
  | cons x t ih => exact (hf b x).trans (ih _)
theorem Body.safeFrame.rset (h : b.safeFrame u) {k : Nat} (hk : LEG_STATUS ≠ k) (v : Reg32) : b.safeFrame (u.rset k v) :=
  h.trans ⟨⟨_, _, _, _, _, _, _, rfl⟩, u.rget_rset_other hk v⟩
theorem Body.safeFrame.pwr (h : b.safeFrame u) : u.pwr = b.pwr := by obtain ⟨⟨_, _, _, _, _, _, _, rfl⟩, _⟩ := h; rfl
theorem Body.safeFrame.host (h : b.safeFrame u) : u.host = b.host := by obtain ⟨⟨_, _, _, _, _, _, _, rfl⟩, _⟩ := h; rfl
theorem Body.safeFrame.fuseWr (h : b.safeFrame u) : u.fuseWr = b.fuseWr := by obtain ⟨⟨_, _, _, _, _, _, _, rfl⟩, _⟩ := h; rfl
end

section
variable (b : Body)

theorem setComp_safe (q : Nat) (x : Composer) : b.safeFrame (b.setComp q x) := ⟨⟨_, _, _, _, _, _, _, rfl⟩, rfl⟩
theorem setRecv_safe (n : Nat) (x : Receiver) : b.safeFrame (b.setRecv n x) := ⟨⟨_, _, _, _, _, _, _, rfl⟩, rfl⟩
theorem setBias_safe (n : Nat) (x : BiasSt) : b.safeFrame (b.setBias n x) := ⟨⟨_, _, _, _, _, _, _, rfl⟩, rfl⟩

theorem gatherFlag_safe (c : Clock) (n i : Nat) : b.safeFrame (b.gatherFlag c n i) := ⟨⟨_, _, _, _, _, _, _, rfl⟩, rfl⟩
theorem stick_safe {k : Nat} (hk : LEG_STATUS ≠ k) (i : Nat) : b.safeFrame (b.stick k i) :=
  ⟨⟨_, _, _, _, _, _, _, rfl⟩, b.rget_rset_other hk _⟩

theorem setCore_safe (p : PortRef) (x : CoreSt) : b.safeFrame (b.setCore p x) := by
  cases p with
  | dp q => exact setComp_safe b _ _
  | fx f => exact setComp_safe b _ _
  | rx n => exact setRecv_safe b _ _

theorem ctl_ne_legStatus (p : PortRef) : LEG_STATUS ≠ p.ctl ∧ LEG_STATUS ≠ p.status := by
  cases p <;> simp only [PortRef.status, PortRef.ctl, LEG_STATUS, PORT_CTL, FLX_CTL, RCV_CTL] <;> omega

theorem toSafe_safe (p : PortRef) : b.safeFrame (b.toSafe p) := by
  have h : b.safeFrame ((b.setCore p .reset).rsetFld p.status 0 2 0) := (setCore_safe b p .reset).rset (ctl_ne_legStatus p).2 _
  cases p with
  | dp q => exact h.trans (setComp_safe _ _ _)
  | fx f => exact h.trans (setComp_safe _ _ _)
  | rx n => exact h

theorem disabled_safe (p : PortRef) : b.safeFrame ((b.rsetBit p.ctl 0 false).toSafe p) :=
  ((Body.safeFrame.refl b).rset (ctl_ne_legStatus p).1 _).trans (toSafe_safe _ p)

theorem bias_ne_legStatus (n : Nat) : LEG_STATUS ≠ BIAS_CTL n ∧ LEG_STATUS ≠ BIAS_STATUS n ∧ LEG_STATUS ≠ BIAS_CODE_ACT n := by
  simp only [LEG_STATUS, BIAS_CTL, BIAS_STATUS, BIAS_CODE_ACT]; omega

/-- A range change in progress, or applied and not begun, switches (R128). -/
def Body.rangeSettled (n : Nat) : Body :=
  match (b.biasOf n).apRange with
  | some r => b.rsetFld (BIAS_STATUS n) 6 2 r
  | none => if (b.biasOf n).rangeFrom.isSome then b.rsetFld (BIAS_STATUS n) 6 2 (b.biasOf n).newRange else b

theorem rangeSettled_safe (n : Nat) : b.safeFrame (b.rangeSettled n) := by
  have h : ∀ v, b.safeFrame (b.rsetFld (BIAS_STATUS n) 6 2 v) := fun v => (Body.safeFrame.refl b).rset (bias_ne_legStatus n).2.1 _
  unfold Body.rangeSettled
  split
  · exact h _
  split
  · exact h _
  · exact .refl b

theorem biasSafe_safe (n : Nat) : b.safeFrame (b.biasSafe n) := by
  have h : b.safeFrame (((b.rangeSettled n).rset (BIAS_CODE_ACT n) 0).rsetFld (BIAS_STATUS n) 0 3 0) :=
    ((rangeSettled_safe b n).rset (bias_ne_legStatus n).2.2 _).rset (bias_ne_legStatus n).2.1 _
  exact h.trans (setBias_safe _ _ _)

theorem biasForce_safe (n : Nat) : b.safeFrame (b.biasForce n) :=
  (((Body.safeFrame.refl b).rset (bias_ne_legStatus n).1 _).trans (biasSafe_safe _ n)).trans (setBias_safe _ _ _)

theorem tileSafe_safe (j : Nat) : b.safeFrame (b.tileSafe j) := by
  have hd := Body.safeFrame.foldl (f := fun b i => (b.rsetBit (PORT_CTL (16 * j + i)) 0 false).toSafe (.dp (16 * j + i)))
    (fun b i => disabled_safe b (.dp (16 * j + i))) (List.range 16)
  have hp := Body.safeFrame.foldl (f := fun b i => (b.rsetBit (PORT_CTL (64 + 4 * j + i)) 0 false).toSafe (.dp (64 + 4 * j + i)))
    (fun b i => disabled_safe b (.dp (64 + 4 * j + i))) (List.range 4)
  have hf := Body.safeFrame.foldl (f := fun b i => (b.rsetBit (FLX_CTL (8 * j + i)) 0 false).toSafe (.fx (8 * j + i)))
    (fun b i => disabled_safe b (.fx (8 * j + i))) (List.range 8)
  have hb := Body.safeFrame.foldl (f := fun b i => b.biasForce (4 * j + i)) (fun b i => biasForce_safe b (4 * j + i)) (List.range 4)
  exact (((hd b).trans (hp _)).trans (hf _)).trans (hb _)

theorem rcvFlag_safe (c : Clock) (n i : Nat) : b.safeFrame (b.rcvFlag c n i) := by
  have h1 : LEG_STATUS ≠ RCV_SHOT_FLAGS n := by simp only [LEG_STATUS, RCV_SHOT_FLAGS]; omega
  have h2 : LEG_STATUS ≠ RCV_STATUS n := by simp only [LEG_STATUS, RCV_STATUS]; omega
  have h : b.safeFrame ((b.rsetBit (RCV_SHOT_FLAGS n) i true).rsetFld (RCV_SHOT_FLAGS n) 16 16 b.epoch) :=
    ((Body.safeFrame.refl b).rset h1 _).rset h1 _
  exact (h.trans (stick_safe _ h2 _)).trans (gatherFlag_safe _ _ _ _)

/-- One input of a tile goes Safe (R410). -/
def Body.inputSafe (c : Clock) (n : Nat) : Body :=
  let b := (b.rsetBit (RCV_CTL n) 0 false).toSafe (.rx n)
  let r := b.recv n
  if r.wins.any (·.openNow c) then
    (b.setRecv n { r with wins := r.wins.map (fun w => if w.openNow c then { w with stale := true, isOpen := false } else w) }).rcvFlag c n 6
  else b

theorem inputSafe_safe (c : Clock) (n : Nat) : b.safeFrame (b.inputSafe c n) := by
  have h := disabled_safe b (.rx n)
  unfold Body.inputSafe
  dsimp only
  split
  · exact (h.trans (setRecv_safe _ _ _)).trans (rcvFlag_safe _ _ _ _)
  · exact h

theorem tileOff_safe (c : Clock) (k : Nat) : b.safeFrame (b.tileOff c k) :=
  (tileSafe_safe b k).trans (Body.safeFrame.foldl (f := fun b i => b.inputSafe c (4 * k + i)) (fun b i => inputSafe_safe b c (4 * k + i)) (List.range 4) _)

/-- The body with the tiles held and ILK_SAFE brought up to date (R336). -/
def Body.tilesNoted : Body :=
  let u := { b with evt := { b.evt with safeTiles := b.tilesHeld } }
  u.rsetBit EV_STATUS 19 (! u.safeChannels.isEmpty)

theorem tilesNoted_safe : b.safeFrame b.tilesNoted :=
  Body.safeFrame.rset (u := { b with evt := { b.evt with safeTiles := b.tilesHeld } }) ⟨⟨_, _, _, _, _, _, _, rfl⟩, rfl⟩ (by decide) _

theorem holdTiles_eq : b.holdTiles =
    (List.range 4).foldl (fun u j => if bit b.tilesHeld j && ! bit b.evt.safeTiles j then u.tileSafe j else u) b.tilesNoted := rfl

theorem holdTiles_safe : b.safeFrame b.holdTiles := by
  rw [holdTiles_eq]
  refine (tilesNoted_safe b).trans (Body.safeFrame.foldl (fun u j => ?_) (List.range 4) _)
  split
  · exact tileSafe_safe u j
  · exact .refl u
end

/-! ### The VAUX island (R382, R400) -/

/-- Registers of a list copied from `f`. -/
theorem rget_foldl_rset (f : Nat → Reg32) (l : List Nat) (b : Body) (j : Nat) :
    (l.foldl (fun t k => t.rset k (f k)) b).rget j = if j ∈ l then f j else b.rget j := by
  induction l generalizing b with
  | nil => simp
  | cons k t ih =>
    rw [List.foldl_cons, ih, Body.rget_rset_ite]
    by_cases hj : j = k
    · subst hj; simp
    · simp [hj]

theorem foldl_rset_frame (f : Nat → Reg32) (l : List Nat) (b : Body) : ∃ r, l.foldl (fun t k => t.rset k (f k)) b = { b with regs := r } := by
  induction l generalizing b with
  | nil => exact ⟨_, rfl⟩
  | cons k t ih =>
    obtain ⟨r, h⟩ := ih (b.rset k (f k))
    exact ⟨r, h⟩

theorem legStatus_island : LEG_STATUS ∈ islandRegs := by simp [islandRegs]

/-- What the island keeps, and that the host rings are as after reset. -/
theorem island_spec (b : Body) : b.island.pwr = b.pwr ∧ (∀ r, b.island.hring r = .reset) ∧ b.island.rget LEG_STATUS = b.rget LEG_STATUS := by
  let z : Body := { Body.reset with evt := { Body.reset.evt with trg := b.evt.trg, ilk := b.evt.ilk }, pwr := b.pwr, out := b.out, free := b.free }
  obtain ⟨rg, hx⟩ := foldl_rset_frame (fun k => b.rget k) islandRegs z
  have hs := holdTiles_safe (islandRegs.foldl (fun t k => t.rset k (b.rget k)) z)
  refine ⟨?_, fun r => ?_, ?_⟩
  · exact hs.pwr.trans (by rw [hx])
  · have hh : b.island.host = .reset := hs.host.trans (by rw [hx]; rfl)
    rw [Body.hring, hh]; rfl
  · exact hs.2.trans ((rget_foldl_rset (fun k => b.rget k) islandRegs z LEG_STATUS).trans (if_pos legStatus_island))

/-! ### Shut-down (R395) -/

/-- The body of a device whose tiles are all off. -/
def Body.tilesOff (b : Body) (c : Clock) : Body := (List.range 4).foldl (fun b k => b.tileOff c k) b

theorem tilesOff_safe (b : Body) (c : Clock) : b.safeFrame (b.tilesOff c) := Body.safeFrame.foldl (fun b k => tileOff_safe b c k) _ b

theorem rget_withPwr (b : Body) (p : PwrSt) (j : Nat) : ({ b with pwr := p } : Body).rget j = b.rget j := rfl

/-- The island of a body shut down. -/
def Body.shutIsland (b : Body) : Body :=
  ({ b with pwr := { b.pwr with mode := .shut, mainEn := false, rails := vauxRails, wake := none } } : Body).island

theorem shutIsland_spec (b : Body) :
    let u := b.shutIsland
    u.pwr.mode = .shut ∧ u.pwr.mainEn = false ∧ u.pwr.rails = 0x10008 ∧ (∀ r, u.hring r = .reset) ∧
    u.rget LEG_STATUS = b.rget LEG_STATUS := by
  obtain ⟨hp, hh, hl⟩ := island_spec { b with pwr := { b.pwr with mode := .shut, mainEn := false, rails := vauxRails, wake := none } }
  exact ⟨congrArg PwrSt.mode hp, congrArg PwrSt.mainEn hp, congrArg PwrSt.rails hp, hh, hl.trans (rget_withPwr _ _ _)⟩

/-- What is left once the tiles are off: the clock and MAIN_EN down, only the VAUX island and the fuses kept. -/
def islandLeft (s : State) : State :=
  { s with clock := clockAt false, mem := s.mem.afterReset false, body := s.body.shutIsland }

theorem shutDown_eq (s : State) : shutDown s = islandLeft (fuseFinishWord { s with body := s.body.tilesOff s.clock }) := by
  unfold shutDown islandLeft Body.tilesOff
  rfl

theorem fuseFinishWord_idle {s : State} (h : s.body.fuseWr = none) : fuseFinishWord s = s := by simp [fuseFinishWord, h]

theorem islandLeft_body (s : State) : (islandLeft s).body = s.body.shutIsland := rfl

theorem islandLeft_spec (s : State) :
    let t := islandLeft s
    t.pending = s.pending ∧ t.clock = { Clock.reset with on := false } ∧ t.mem.onDie = .empty ∧ t.mem.dev = .empty ∧
    t.mem.fuse = s.mem.fuse ∧ t.body.pwr.mode = .shut ∧ t.body.pwr.mainEn = false ∧ t.body.pwr.rails = 0x10008 ∧
    (∀ r, t.body.hring r = .reset) ∧ t.body.rget LEG_STATUS = s.body.rget LEG_STATUS := by
  dsimp only
  rw [islandLeft_body]
  exact ⟨rfl, rfl, rfl, rfl, rfl, shutIsland_spec s.body⟩

theorem shutDown_spec {s : State} (h : s.body.fuseWr = none) :
    let t := shutDown s
    t.pending = s.pending ∧ t.clock = { Clock.reset with on := false } ∧ t.mem.onDie = .empty ∧ t.mem.dev = .empty ∧
    t.mem.fuse = s.mem.fuse ∧ t.body.pwr.mode = .shut ∧ t.body.pwr.mainEn = false ∧ t.body.pwr.rails = 0x10008 ∧
    (∀ r, t.body.hring r = .reset) ∧ t.body.rget LEG_STATUS = s.body.rget LEG_STATUS := by
  have hs := tilesOff_safe s.body s.clock
  have hf : fuseFinishWord { s with body := s.body.tilesOff s.clock } = { s with body := s.body.tilesOff s.clock } :=
    fuseFinishWord_idle (hs.fuseWr.trans h)
  have hi := islandLeft_spec { s with body := s.body.tilesOff s.clock }
  rw [← hf, ← shutDown_eq, hf] at hi
  dsimp only at hi ⊢
  rw [← hs.2]
  exact hi

end Sys2Proof.Machine
end

section
/-! Rate of rise (R394) and the Power Governor (R396, R397). -/

namespace Sys2Proof.Machine

/-! ### The rate of a tile (R394) -/

/-- A rate in units of 0.01 °C/s lies within one unit of 25 ÷ 4 of the difference in eighths of a degree, whichever way it was rounded. -/
theorem riseRate_near (d : Int) (up : Bool) : 4 * riseRate d up < 25 * d + 4 ∧ 25 * d < 4 * riseRate d up + 4 := by
  unfold riseRate shrOpen
  split
  · rename_i h
    have := h.1
    omega
  · omega

/-- Sixteen signed bits of a register hold a value in their range. -/
theorem toInt_wrap16 {x : Int} (h1 : -32768 ≤ x) (h2 : x < 32768) : ((r32 (wrap 16 x)).extractLsb' 0 16).toInt = x := by
  have hw : (wrap 16 x : Int) = x % 65536 := Int.toNat_of_nonneg (Int.emod_nonneg _ (by decide))
  have hn : ((r32 (wrap 16 x)).extractLsb' 0 16).toNat = wrap 16 x := by
    simp only [r32, BitVec.extractLsb'_toNat, BitVec.toNat_ofNat, Nat.shiftRight_zero]
    omega
  rw [BitVec.toInt_eq_toNat_cond, hn]
  split <;> omega

theorem fault_cal (b : Body) (c : Clock) (code d0 d1 : Nat) : (b.fault c code d0 d1).cal = b.cal := by
  obtain ⟨_, _, _, _, _, h⟩ := fault_thermalFrame b c code d0 d1
  rw [h]

section
variable (b : Body) (c : Clock) (k : Nat) (d : Int)

/-- The rate lies above RISE_LIMIT. -/
def Body.riseAbove : Bool := decide (16 * (b.rfld THM_CTL 4 6 : Int) < 10 * d)

/-- Nothing keeps the tile from tripping. -/
def RiseSt.free (x : RiseSt) (c : Clock) : Bool :=
  ! x.tripped || (match x.rearm with
    | some t => decide (t ≤ c.cyc)
    | none => false)

/-- The tile trips: four evaluations in a row above the limit. -/
def Body.riseTrips : Bool :=
  let x := b.thm.tiles.get .reset k
  x.free c && decide (4 ≤ runOf (b.riseAbove d) x.hi)

/-- The rate watch of the tile after the evaluation. -/
def Body.riseAfter : RiseSt :=
  let x := b.thm.tiles.get .reset k
  let lo := runOf (! b.riseAbove d) x.lo
  let rearm := if x.tripped && x.rearm.isNone && decide (4 ≤ lo) then some (c.cyc + 100000000) else x.rearm
  { x with hi := runOf (b.riseAbove d) x.hi, lo := lo, tripped := b.riseTrips c k d || ! x.free c,
           rearm := if b.riseTrips c k d || x.free c then none else rearm }

/-- The body with the rate in its register and the watch brought up to date. -/
def Body.riseNoted : Body :=
  let u := b.rset (RISE_TILE k) (r32 (wrap 16 (riseRate d (bit b.openValue 0))))
  { u.draw with thm := { u.thm with tiles := u.thm.tiles.put .reset k (b.riseAfter c k d) } }

/-- The body with the trip in THM_STATUS and its record sent. -/
def Body.tripNoted : Body := (b.stick THM_STATUS (12 + k)).fault c 0x0E (k * 2 ^ 8) (b.rnat (RISE_TILE k))

theorem riseTest_eq : b.riseTest c k d =
    if b.riseTrips c k d then ((b.riseNoted c k d).tripNoted c k).driftRequest k else b.riseNoted c k d := rfl

theorem rget_riseNoted (j : Nat) : (b.riseNoted c k d).rget j =
    if j = RISE_TILE k then r32 (wrap 16 (riseRate d (bit b.openValue 0))) else b.rget j :=
  b.rget_rset_ite j (RISE_TILE k) _

theorem riseNoted_frame : ∃ r n, b.riseNoted c k d =
    { b with regs := r, free := n, thm := { b.thm with tiles := b.thm.tiles.put .reset k (b.riseAfter c k d) } } := ⟨_, _, rfl⟩

theorem tripNoted_regs : b.regsKept [THM_STATUS, FAULT_DROP] (b.tripNoted c k) :=
  ((Body.regsKept.refl _ b).stick (by simp) _).fault (by simp) _ _ _ _

theorem tripNoted_status (hk : k < 4) : (b.tripNoted c k).rbit THM_STATUS (12 + k) = true := by
  rw [Body.rbit, Body.tripNoted, rget_fault _ _ _ _ _ _ (by decide), ← Body.rbit]
  exact Body.rbit_stick_same _ _ _ (by omega)

theorem tripNoted_thm_cal : (b.tripNoted c k).thm = b.thm ∧ (b.tripNoted c k).cal = b.cal :=
  ⟨fault_thm _ _ _ _ _, fault_cal _ _ _ _ _⟩

theorem driftRequest_regs : b.regsKept [DRIFT_COUNT] (b.driftRequest k) := by
  have h : b.regsKept [DRIFT_COUNT] (b.count DRIFT_COUNT 1) := (Body.regsKept.refl _ b).count (by simp) _
  unfold Body.driftRequest
  dsimp only
  split
  · exact h
  · exact h.trans (.of_rget fun _ => rfl)

theorem driftRequest_count : (b.driftRequest k).rget DRIFT_COUNT = satInc (b.rget DRIFT_COUNT) 1 := by
  have h : (b.count DRIFT_COUNT 1).rget DRIFT_COUNT = satInc (b.rget DRIFT_COUNT) 1 := by rw [Body.rget_count, if_pos rfl]
  unfold Body.driftRequest
  dsimp only
  split
  · exact h
  · exact h

theorem driftRequest_thm : (b.driftRequest k).thm = b.thm := by
  unfold Body.driftRequest
  dsimp only
  split <;> rfl

/-- A request with nothing queued stands alone in the queue (R362, R363). -/
theorem driftRequest_queue (h : b.cal.queue = []) : (b.driftRequest k).cal.queue = [⟨none, 0x40, 5, k, 0, true, false, 0, 0⟩] := by
  simp [Body.driftRequest, h]

variable {k} in
theorem RISE_TILE_ne (hk : k < 4) : RISE_TILE k ∉ [THM_STATUS, FAULT_DROP] ∧ RISE_TILE k ∉ [DRIFT_COUNT] := by
  constructor <;> simp [RISE_TILE, THM_STATUS, FAULT_DROP, DRIFT_COUNT] <;> omega

/-- The rate stands in the register of the tile, trip or none. -/
theorem riseTest_rate (hk : k < 4) : (b.riseTest c k d).rget (RISE_TILE k) = r32 (wrap 16 (riseRate d (bit b.openValue 0))) := by
  have h : (b.riseNoted c k d).rget (RISE_TILE k) = r32 (wrap 16 (riseRate d (bit b.openValue 0))) := by rw [rget_riseNoted, if_pos rfl]
  rw [riseTest_eq]
  split
  · rw [driftRequest_regs _ _ _ (RISE_TILE_ne hk).2, tripNoted_regs _ _ _ _ (RISE_TILE_ne hk).1, h]
  · exact h

theorem riseTest_calm (h : b.riseTrips c k d = false) : b.regsKept [RISE_TILE k] (b.riseTest c k d) := fun j hj => by
  rw [riseTest_eq, h, if_neg (by decide), rget_riseNoted, if_neg (by simpa using hj)]

/-- A trip: its bit, the watch, the drift request and the count of them. -/
theorem riseTest_trips (hk : k < 4) (h : b.riseTrips c k d = true) :
    (b.riseTest c k d).rbit THM_STATUS (12 + k) = true ∧ ((b.riseTest c k d).thm.tiles.get .reset k).tripped = true ∧
    (b.riseTest c k d).rget DRIFT_COUNT = satInc (b.rget DRIFT_COUNT) 1 ∧
    (b.cal.queue = [] → (b.riseTest c k d).cal.queue = [⟨none, 0x40, 5, k, 0, true, false, 0, 0⟩]) := by
  have hdn : DRIFT_COUNT ≠ RISE_TILE k := by simp only [DRIFT_COUNT, RISE_TILE]; omega
  obtain ⟨ht, hc⟩ := tripNoted_thm_cal (b.riseNoted c k d) c k
  obtain ⟨r, n, hf⟩ := riseNoted_frame b c k d
  rw [riseTest_eq, if_pos h]
  refine ⟨?_, ?_, ?_, fun hq => driftRequest_queue _ _ ?_⟩
  · rw [(driftRequest_regs _ _).rbit (by decide)]
    exact tripNoted_status _ c k hk
  · rw [driftRequest_thm, ht, hf]
    dsimp only
    rw [SMap.get_put_same, Body.riseAfter, h]
    rfl
  · rw [driftRequest_count, tripNoted_regs _ _ _ _ (by decide), rget_riseNoted, if_neg hdn]
  · rw [hc, hf]
    exact hq
end

/-! ### RISE_EVAL -/

section
variable (b : Body) (c : Clock) (k : Nat)

/-- The sum of the two readings of a tile. -/
def Body.tileSum : Int := b.reading (16 + 2 * k) + b.reading (17 + 2 * k)

/-- The body with an evaluation kept, over those in `keep`. -/
def Body.evalKept (keep : List (Nat × Int)) : Body :=
  { b with thm := { b.thm with tiles := b.thm.tiles.put .reset k { b.thm.tiles.get .reset k with hist := (c.cyc, b.tileSum k) :: keep } } }

theorem riseEval_off (h : b.rbit FLT_STATUS 5 = false) : b.riseEval c k = b := by simp [Body.riseEval, h]

/-- No evaluation is 1 s old: this one is kept besides. -/
theorem riseEval_young (hfw : b.rbit FLT_STATUS 5 = true) (h : ∀ e ∈ (b.thm.tiles.get .reset k).hist, c.cyc < e.1 + 1000000000) :
    b.riseEval c k = b.evalKept c k (b.thm.tiles.get .reset k).hist := by
  have hn : (b.thm.tiles.get .reset k).hist.find? (fun e => decide (e.1 + 1000000000 ≤ c.cyc)) = none := by
    simpa [List.find?_eq_none] using h
  simp [Body.riseEval, hfw, hn]
  rfl

/-- One evaluation 1 s old, firmware 1 s up: the rate is tested. -/
theorem riseEval_aged (hfw : b.rbit FLT_STATUS 5 = true) {o : Nat × Int} (h : (b.thm.tiles.get .reset k).hist = [o])
    (ho : o.1 + 1000000000 ≤ c.cyc) (hf : b.thm.fwAt + 1000000000 ≤ c.cyc) :
    b.riseEval c k = (b.evalKept c k [o]).riseTest c k (b.tileSum k - o.2) := by
  simp [Body.riseEval, hfw, h, ho, hf]
  rfl

theorem evalKept_tile (keep : List (Nat × Int)) :
    (b.evalKept c k keep).thm.tiles.get .reset k = { b.thm.tiles.get .reset k with hist := (c.cyc, b.tileSum k) :: keep } :=
  SMap.get_put_same _ _ _ _

/-- Fewer than four evaluations above the limit trip nothing. -/
theorem evalKept_calm {keep : List (Nat × Int)} {d : Int} (h : b.riseAbove d = false ∨ (b.thm.tiles.get .reset k).hi < 3) :
    (b.evalKept c k keep).riseTrips c k d = false := by
  have ha : (b.evalKept c k keep).riseAbove d = b.riseAbove d := rfl
  have hr : ¬ 4 ≤ runOf (b.riseAbove d) (b.thm.tiles.get .reset k).hi := by
    rcases h with h | h
    · simp [runOf, h]
    · unfold runOf; split <;> omega
  simp [Body.riseTrips, evalKept_tile, ha, hr]

/-- The fourth in a row trips a tile that has not. -/
theorem evalKept_trips {keep : List (Nat × Int)} {d : Int} (h : b.riseAbove d = true) (h3 : 3 ≤ (b.thm.tiles.get .reset k).hi)
    (ht : (b.thm.tiles.get .reset k).tripped = false) : (b.evalKept c k keep).riseTrips c k d = true := by
  have ha : (b.evalKept c k keep).riseAbove d = b.riseAbove d := rfl
  simp [Body.riseTrips, evalKept_tile, ha, h, RiseSt.free, ht, runOf, h3]
end

/-! ### THROTTLE_STEP (R396) -/

section
variable (b : Body) (c : Clock)

theorem stepDue_rises (h : b.thm.stepAt ≤ c.cyc) (ht : b.rfld THM_STATUS 0 2 = 2) :
    b.stepDue c = { b.stepUp with thm := { b.thm with stepAt := b.thm.stepAt + 10000000 } } := by
  rw [Body.stepDue, if_neg (by omega), if_pos ht]

theorem stepDue_falls (h : b.thm.stepAt ≤ c.cyc) (ht : b.rfld THM_STATUS 0 2 ≠ 2) (hs : 0 < b.rfld GOV_STATUS 5 5) :
    b.stepDue c = { b.fixStep (b.rfld GOV_STATUS 5 5 - 1) with thm := { b.thm with stepAt := b.thm.stepAt + 100000000 } } := by
  have hn : ¬ b.throttleStep = 0 := by unfold Body.throttleStep; omega
  rw [Body.stepDue, if_neg (by omega), if_neg ht, if_neg hn, Body.throttleStep]

theorem stepDue_waits (h : c.cyc < b.thm.stepAt ∨ (b.rfld THM_STATUS 0 2 ≠ 2 ∧ b.rfld GOV_STATUS 5 5 = 0)) : b.stepDue c = b := by
  unfold Body.stepDue
  rcases h with h | ⟨h1, h2⟩
  · rw [if_pos h]
  · have hz : b.throttleStep = 0 := h2
    by_cases hc : c.cyc < b.thm.stepAt
    · rw [if_pos hc]
    · rw [if_neg hc, if_neg h1, if_pos hz]

theorem stepUp_top (h : 16 ≤ b.rfld GOV_STATUS 5 5) : b.stepUp = b := by
  have hn : ¬ b.throttleStep < 16 := by unfold Body.throttleStep; omega
  rw [Body.stepUp, if_neg hn]
end

end Sys2Proof.Machine
end

section
/-! POWER_SAMPLE and PARK (R396, R397), and what shedding does to the Scope (R353). -/

namespace Sys2Proof.Machine

/-! ### Fills restart (R344, R353) -/

/-- Registers and Scope units may differ; nothing else does. -/
def Body.scopeFrame (b u : Body) : Prop := ∃ r x, u = { b with regs := r, scope := x }

theorem Body.scopeFrame.trans {b u w : Body} (h : b.scopeFrame u) (k : u.scopeFrame w) : b.scopeFrame w := by
  obtain ⟨_, _, rfl⟩ := h
  obtain ⟨_, _, rfl⟩ := k
  exact ⟨_, _, rfl⟩

/-- The registers a new fill writes. -/
def fillRegs : List Nat := RATE_USED :: (List.range 16).map U_STATUS

section
variable (b : Body) (c : Clock)

theorem fillNow_frame (u : Nat) : b.scopeFrame (b.fillNow c u) := ⟨_, _, rfl⟩

theorem setUnit_regs (ks : List Nat) (u : Nat) (x : ScopeUnit) : b.regsKept ks (b.setUnit u x) := fun _ _ => rfl

theorem fixRate_regs : b.regsKept [RATE_USED] b.fixRate := (Body.regsKept.refl _ b).rset (by simp) _

theorem fillFrom_regs (u l : Nat) : b.regsKept [U_STATUS u, RATE_USED] (b.fillFrom u l) := by
  unfold Body.fillFrom
  dsimp only
  refine Body.regsKept.trans ?_ ((fixRate_regs _).mono (by simp))
  exact ((setUnit_regs b _ u _).rsetFld (by simp) _ _ _).rsetFld (by simp) _ _ _

theorem fillNow_regs (u : Nat) : b.regsKept [U_STATUS u, RATE_USED] (b.fillNow c u) := by
  unfold Body.fillNow
  dsimp only
  exact (setUnit_regs b _ u _).trans (fillFrom_regs _ u _)

/-- A unit that fills or waits begins its fill again. -/
def Body.unitRefilled (u : Nat) : Body := if b.uState u = 1 ∨ b.uState u = 2 then b.fillNow c u else b

/-- Every unit of the list that fills or waits begins its fill again. -/
def Body.refilled (l : List Nat) : Body := l.foldl (fun b u => b.unitRefilled c u) b

theorem unitRefilled_frame (u : Nat) : b.scopeFrame (b.unitRefilled c u) := by
  unfold Body.unitRefilled
  split
  · exact fillNow_frame b c u
  · exact ⟨_, _, rfl⟩

theorem unitRefilled_regs {u : Nat} (h : u < 16) : b.regsKept fillRegs (b.unitRefilled c u) := by
  unfold Body.unitRefilled
  split
  · refine (fillNow_regs b c u).mono ?_
    simp only [List.cons_subset, List.nil_subset, and_true, fillRegs, List.mem_cons, List.mem_map, List.mem_range, true_or]
    exact .inr ⟨u, h, rfl⟩
  · exact .refl _ _

theorem refilled_frame (l : List Nat) : b.scopeFrame (b.refilled c l) := by
  induction l generalizing b with
  | nil => exact ⟨_, _, rfl⟩
  | cons u t ih => exact (unitRefilled_frame b c u).trans (ih _)

theorem refilled_regs {l : List Nat} (hl : ∀ u ∈ l, u < 16) : b.regsKept fillRegs (b.refilled c l) :=
  (Body.regsKept.refl _ b).foldl fun b u hu => unitRefilled_regs b c (hl u hu)

theorem not_mem_fillRegs {k : Nat} (h : k < 0xA0008) : k ∉ fillRegs := by
  simp only [fillRegs, List.mem_cons, List.mem_map, List.mem_range, RATE_USED, U_STATUS, not_or, not_exists, not_and]
  exact ⟨by omega, fun i _ => by omega⟩

theorem scopeShed_eq (on : Bool) : b.scopeShed c on =
    if b.rbit SCOPE_STATUS 0 = on then b else (b.rsetBit SCOPE_STATUS 0 on).refilled c (List.range 16) := rfl

/-- Shedding of the Scope touches neither the thermal loop nor the registers before its own but SHED. -/
theorem scopeShed_spec (on : Bool) : b.scopeFrame (b.scopeShed c on) ∧ (b.scopeShed c on).rbit SCOPE_STATUS 0 = on ∧
    ∀ k, k < SCOPE_STATUS → (b.scopeShed c on).rget k = b.rget k := by
  rw [scopeShed_eq]
  split
  · exact ⟨⟨_, _, rfl⟩, ‹_›, fun _ _ => rfl⟩
  · have hr := refilled_regs (b.rsetBit SCOPE_STATUS 0 on) c (l := List.range 16) (fun u hu => List.mem_range.1 hu)
    refine ⟨Body.scopeFrame.trans ⟨_, _, rfl⟩ (refilled_frame (b.rsetBit SCOPE_STATUS 0 on) c _), ?_, fun k hk => ?_⟩
    · rw [hr.rbit (not_mem_fillRegs (by decide))]
      exact Body.rbit_rsetBit_same _ _ _ _ (by omega)
    · have hk' : k < 0xA0004 := hk
      rw [hr _ (not_mem_fillRegs (by omega))]
      exact b.rget_rset_other (Nat.ne_of_lt hk) _
end

/-! ### POWER_SAMPLE (R396, R397) -/

section
variable (b : Body) (c : Clock) (p : Nat)

/-- POWER_NOW and its peak after a sample. -/
def Body.powerNoted : Body := (b.rset POWER_NOW (r32 p)).rset POWER_PEAK (r32 (max p (b.rnat POWER_PEAK)))

theorem powerNoted_regs : b.regsKept [POWER_NOW, POWER_PEAK] (b.powerNoted p) :=
  ((Body.regsKept.refl _ b).rset (by simp) _).rset (by simp) _

theorem powerNoted_values : (b.powerNoted p).rget POWER_NOW = r32 p ∧ (b.powerNoted p).rget POWER_PEAK = r32 (max p (b.rnat POWER_PEAK)) := by
  constructor
  · rw [Body.powerNoted, Body.rget_rset_other _ (by decide), Body.rget_rset]
  · rw [Body.powerNoted, Body.rget_rset]

/-- POWER_NOW has stayed below L − 8 W for 100 ms. -/
def Body.powerFell : Bool :=
  decide (p + 128 < b.powerLimit) && decide ((b.thm.below.getD c.cyc) + 100000000 ≤ c.cyc)

/-- The cycle since which POWER_NOW has stayed below L − 8 W, after the sample. -/
def Body.belowAfter : Option Nat :=
  if b.powerFell c p then some c.cyc
  else if decide (p + 128 < b.powerLimit) then some (b.thm.below.getD c.cyc) else none

/-- The change of SHED_LEVEL that waits after the sample. -/
def Body.shedAfter : Option Bool :=
  if b.powerLimit < p ∧ b.shedLevel < 5 then some true
  else if b.powerFell c p && decide (0 < b.shedLevel) then some false else b.thm.shed

/-- The body with the sample judged. -/
def Body.powerJudged : Body :=
  { b.powerNoted p with thm := { b.thm with below := b.belowAfter c p, shed := b.shedAfter c p } }

theorem powerSample_eq : b.powerSample c p =
    if b.gridRun then b.powerJudged c p else (b.powerJudged c p).shedCommit c := by
  have hgov : ∀ lo len, (b.powerNoted p).rfld GOV_STATUS lo len = b.rfld GOV_STATUS lo len := (powerNoted_regs b p).rfld (by decide)
  have hl : (b.powerNoted p).powerLimit = b.powerLimit := by rw [Body.powerLimit, hgov, Body.powerLimit]
  have hs : (b.powerNoted p).shedLevel = b.shedLevel := hgov 10 3
  have hg : (b.powerNoted p).gridRun = b.gridRun := (powerNoted_regs b p).rbit (by decide) 1
  have hf : (b.powerNoted p).powerFell c p = b.powerFell c p := by rw [Body.powerFell, hl]; rfl
  have hb : (b.powerNoted p).belowAfter c p = b.belowAfter c p := by rw [Body.belowAfter, hf, hl]; rfl
  have ha : (b.powerNoted p).shedAfter c p = b.shedAfter c p := by rw [Body.shedAfter, hf, hl, hs]; rfl
  rw [Body.powerJudged, ← hg, ← hb, ← ha]
  rfl

theorem shedAfter_rises (h : b.powerLimit < p) (hs : b.shedLevel < 5) : b.shedAfter c p = some true := by
  rw [Body.shedAfter, if_pos ⟨h, hs⟩]

theorem shedAfter_falls (h : p + 128 < b.powerLimit) {t0 : Nat} (hb : b.thm.below = some t0) (ht : t0 + 100000000 ≤ c.cyc)
    (hs : 0 < b.shedLevel) : b.shedAfter c p = some false := by
  have hf : b.powerFell c p = true := by simp [Body.powerFell, h, hb, ht]
  rw [Body.shedAfter, if_neg (by omega), if_pos (by simp [hf, hs])]

theorem shedAfter_waits (h : p ≤ b.powerLimit) (hl : ¬ (p + 128 < b.powerLimit ∧ ∃ t0 : Nat, b.thm.below = some t0 ∧ t0 + 100000000 ≤ c.cyc)) :
    b.shedAfter c p = b.thm.shed := by
  have hf : b.powerFell c p = false := by
    by_contra hn
    simp only [Body.powerFell, Bool.not_eq_false, Bool.and_eq_true, decide_eq_true_eq] at hn
    refine hl ⟨hn.1, ?_⟩
    cases hb : b.thm.below with
    | none => rw [hb] at hn; simp at hn
    | some t0 => rw [hb] at hn; exact ⟨t0, rfl, hn.2⟩
  rw [Body.shedAfter, if_neg (by omega), if_neg (by simp [hf])]

/-- A rise of SHED_LEVEL that waits is made, and the Scope sheds. -/
theorem shedCommit_rises (h : b.thm.shed = some true) (hs : b.shedLevel < 5) :
    (b.shedCommit c).rfld GOV_STATUS 10 3 = b.shedLevel + 1 ∧ (b.shedCommit c).thm.shed = none ∧
    (b.shedCommit c).rbit SCOPE_STATUS 0 = true := by
  have he : b.shedCommit c =
      ({ b.rsetFld GOV_STATUS 10 3 (b.shedLevel + 1) with thm := { b.thm with shed := none } } : Body).scopeShed c true := by
    have hm : min 5 (b.shedLevel + 1) = b.shedLevel + 1 := by omega
    simp [Body.shedCommit, h, hm]
  obtain ⟨⟨r, x, hf⟩, hb, hk⟩ := scopeShed_spec
    ({ b.rsetFld GOV_STATUS 10 3 (b.shedLevel + 1) with thm := { b.thm with shed := none } } : Body) c true
  have hg : ({ b.rsetFld GOV_STATUS 10 3 (b.shedLevel + 1) with thm := { b.thm with shed := none } } : Body).rget GOV_STATUS =
      setFld (b.rget GOV_STATUS) 10 3 (b.shedLevel + 1) := (b.rget_rsetFld _ _ _ _ _).trans (if_pos rfl)
  rw [he]
  refine ⟨?_, by rw [hf], hb⟩
  rw [Body.rfld, hk _ (by decide), hg, fld_setFld_same _ _ _ _ (by omega)]
  omega
end

/-! ### PARK (R19, R397) -/

section
variable (b : Body) (c : Clock)

/-- What keeps a port or cove with this number from being parked, whatever it is. -/
def Body.parkStays (k : Nat) : Prop :=
  b.parking = false ∨ (b.gridRun = true ∧ b.inSlack c.now = false) ∨ b.thm.parked.contains k = true ∨ b.parkBusy c k = true ∨
    c.cyc < b.thm.busy.get 0 k + 10000000

theorem parkStays_not {k : Nat} (hs : 4 ≤ b.rfld GOV_STATUS 10 3) (he : b.rbit GOV_CTL 5 = true) (hp : k ∉ b.thm.parked)
    (hb : b.thm.busy.get 0 k + 10000000 ≤ c.cyc) (hg : b.gridRun = true → b.inSlack c.now = true) (hi : b.parkBusy c k = false) :
    ¬ b.parkStays c k := by
  have hpark : b.parking = true := by simp [Body.parking, Body.shedLevel, hs, he]
  rintro (h | ⟨h1, h2⟩ | h | h | h)
  · simp [hpark] at h
  · simp [hg h1] at h2
  · exact hp (by simpa using h)
  · simp [hi] at h
  · omega

/-- A port that is there with EN set, or a cove that is there. -/
def Body.parkable : ParkRef → Bool
  | .port p => p.ok && b.rbit p.ctl 0
  | .cove n => decide (n < 16)

/-- The body with the port or cove parked. -/
def Body.putAway (t : ParkRef) : Body :=
  let u : Body := { b with thm := { b.thm with parked := b.thm.parked ++ [parkKey t] } }
  match t with
  | .port p => u.toSafe p
  | .cove _ => u

theorem park_eq (t : ParkRef) : b.park c t =
    if ! b.parking ∨ (b.gridRun ∧ ! b.inSlack c.now) ∨ ! b.parkable t ∨ b.thm.parked.contains (parkKey t) ∨ b.parkBusy c (parkKey t) ∨
      c.cyc < b.thm.busy.get 0 (parkKey t) + 10000000 then b
    else b.putAway t := rfl

theorem park_stays (t : ParkRef) (h : b.parkStays c (parkKey t)) : b.park c t = b := by
  rw [park_eq, if_pos]
  rcases h with h | ⟨h1, h2⟩ | h | h | h
  · exact .inl (by simp [h])
  · exact .inr (.inl ⟨h1, by simp [h2]⟩)
  · exact .inr (.inr (.inr (.inl h)))
  · exact .inr (.inr (.inr (.inr (.inl h))))
  · exact .inr (.inr (.inr (.inr (.inr h))))

theorem park_goes {t : ParkRef} (ht : b.parkable t = true) (h : ¬ b.parkStays c (parkKey t)) : b.park c t = b.putAway t := by
  rw [park_eq, if_neg]
  rintro (hx | ⟨h1, h2⟩ | hx | hx | hx | hx)
  · exact h (.inl (by simpa using hx))
  · exact h (.inr (.inl ⟨h1, by simpa using h2⟩))
  · simp [ht] at hx
  · exact h (.inr (.inr (.inl hx)))
  · exact h (.inr (.inr (.inr (.inl hx))))
  · exact h (.inr (.inr (.inr (.inr hx))))

theorem parkBusy_cove {n : Nat} (h : ∀ e : Nat, e < 12 → b.engState (12 * n + e) = 0 ∨ b.engState (12 * n + e) = 5 ∨ b.engState (12 * n + e) = 6) :
    b.parkBusy c (128 + n) = false := by
  have hq : b.coveQuiet n = true := by
    simp only [Body.coveQuiet, List.all_eq_true, List.mem_range]
    intro e he
    rcases h e he with h | h | h <;> simp [h]
  have h1 : ¬ 128 + n < 112 := by omega
  have h2 : ¬ 128 + n < 128 := by omega
  simp [Body.parkBusy, h1, hq]

/-- The safe state of a port leaves every register but its status, and the thermal loop. -/
theorem toSafe_spec (p : PortRef) : (b.toSafe p).thm = b.thm ∧ b.regsKept [p.status] (b.toSafe p) ∧ (b.toSafe p).rfld p.status 0 2 = 0 := by
  have hs : ((b.setCore p .reset).rsetFld p.status 0 2 0).thm = b.thm := by cases p <;> rfl
  have hr : ∀ j, (b.toSafe p).rget j = (b.rsetFld p.status 0 2 0).rget j := by intro j; cases p <;> rfl
  refine ⟨by cases p <;> exact hs, fun j hj => ?_, ?_⟩
  · rw [hr, Body.rget_rsetFld, if_neg (by simpa using hj)]
  · rw [Body.rfld, hr, Body.rget_rsetFld, if_pos rfl, fld_setFld_same _ _ _ _ (by omega)]
    rfl
end

end Sys2Proof.Machine
end

section
/-! Temperatures and the Power Governor (R392 to R399): the commands, and the obligation about them. -/

namespace Sys2Proof.Machine

/-! ### What a sample on the path in use does -/

section
variable {b : Body} (c : Clock) {s : Nat} {t : BitVec 11}

theorem afterSample_cool (h : t.toInt < 880 ∨ (b.sensor s).hi.2.2 < 3) : (b.afterSample c s t.toInt).hi.2.2 < 4 := by
  show runOf (decide (880 ≤ t.toInt)) (b.sensor s).hi.2.2 < 4
  by_cases h880 : 880 ≤ t.toInt
  · simp only [runOf, h880, decide_true, if_true]; omega
  · simp [runOf, h880]

theorem afterSample_hot (h : 880 ≤ t.toInt) (h3 : 3 ≤ (b.sensor s).hi.2.2) : 4 ≤ (b.afterSample c s t.toInt).hi.2.2 := by
  show 4 ≤ runOf (decide (880 ≤ t.toInt)) (b.sensor s).hi.2.2
  simp only [runOf, h, decide_true, if_true]; omega

/-- Entry to Warning: LEVEL, the sticky bit, the sensor, the event and the record. -/
theorem sampled_enters_warning (hs : s < 24) (h760 : 760 ≤ t.toInt) (h3 : (b.sensor s).hi.1 = 3)
    (hlt : t.toInt < 800 ∨ (b.sensor s).hi.2.1 < 3) (hh : (b.sensor s).held = (false, false)) (hd : (b.sensor s).dwell = (none, none)) :
    let u := b.sampled c s t
    u.rfld (TEMP s) 11 2 = 1 ∧ u.rbit THM_STATUS 9 = true ∧ (u.sensor s).held = (true, false) ∧
    (b.rbit THM_CTL 16 = true → ∃ e ∈ u.evt.flight, e.ch = b.rfld THM_CTL 10 6 ∧ e.due = c.cyc + 2) ∧
    (b.faultRingOk = true → (b.hring (b.rfld HST_CTL 8 8)).recs = [] → (u.hring (b.rfld HST_CTL 8 8)).recs =
      [⟨0x81, 0, 0, 0, BitVec.ofNat 32 (0x10D + s * 2 ^ 16), BitVec.ofNat 64 (u.rnat (TEMP s)), c.tt.extractLsb' 32 64, false, none, none⟩]) := by
  obtain ⟨hw, ht, hheld⟩ := afterSample_warns c h760 h3 hlt hh hd
  dsimp only
  refine ⟨?_, ?_, ?_, sampled_publishes c hw ht, sampled_records c hs hw ht⟩
  · rw [sampled_level, hheld]; rfl
  · rw [sampled_status _ _ _ _ (by omega) (by omega), hw]; simp
  · rw [sampled_sensor, hheld]

/-- Entry to Throttle: LEVEL, the sticky bit, the state, the step and its period. -/
theorem sampled_throttles (h800 : 800 ≤ t.toInt) (h3 : (b.sensor s).hi.2.1 = 3) (hh : (b.sensor s).held = (true, false))
    (hd : (b.sensor s).dwell = (none, none)) (hst : b.rfld THM_STATUS 0 2 ≠ 2) (hstep : b.rfld GOV_STATUS 5 5 < 16) :
    let u := b.sampled c s t
    u.rfld (TEMP s) 11 2 = 2 ∧ u.rbit THM_STATUS 10 = true ∧ u.rfld THM_STATUS 0 2 = 2 ∧
    (u.rfld GOV_STATUS 5 5 = b.rfld GOV_STATUS 5 5 + 1 ∧ u.rfld GOV_STATUS 0 5 = max (b.rfld GOV_STATUS 5 5 + 1) (b.rfld GOV_CTL 0 5)) ∧
    u.thm.stepAt = c.cyc + 10000000 := by
  obtain ⟨ht, hheld⟩ := afterSample_throttles c h800 h3 hh hd
  obtain ⟨h1, h2, h3, h4⟩ := sampled_enters_throttle c (by rw [hheld]) hst hstep
  dsimp only
  refine ⟨?_, ?_, h1, ⟨h2, h3⟩, h4⟩
  · rw [sampled_level, hheld]; rfl
  · rw [sampled_status _ _ _ _ (by omega) (by omega), ht]; simp

/-- Warning left: LEVEL, DWELL, and the sensor with its dwell of 100 ms. -/
theorem sampled_leaves_warning (hlt : t.toInt < 760 - b.hyst) (h3 : (b.sensor s).lo.1 = 3) (hh : (b.sensor s).held = (true, false)) :
    let u := b.sampled c s t
    u.rfld (TEMP s) 11 2 = 0 ∧ u.rbit (TEMP s) 13 = true ∧ (u.sensor s).held = (false, false) ∧
    (u.sensor s).dwell.1 = some (c.cyc + 100000000) := by
  obtain ⟨hheld, hdw⟩ := afterSample_leaves c hlt h3 hh
  dsimp only
  refine ⟨?_, ?_, ?_, ?_⟩
  · rw [sampled_level, hheld]; rfl
  · rw [sampled_dwell, hdw]; rfl
  · rw [sampled_sensor, hheld]
  · rw [sampled_sensor, hdw]
end

/-! ### TEMP_SAMPLE -/

section
variable (k : Fin 24) (T : BitVec 11) (s : State)

/-- The body after a sample of the fast loop while it is the path in use. -/
def fastSampled : Body := (s.body.fastSeen s.clock k).sampled s.clock k T

section
variable {k T s} (hon : s.clock.on = true) (hfw : s.body.rbit FLT_STATUS 5 = true)
include hon hfw

theorem exec_tempSample_cool (hfb : s.body.rbit THM_STATUS 3 = false) (h : T.toInt < 880 ∨ (s.body.sensor k).hi.2.2 < 3) :
    exec (.tempSample k T) s = .next { s with body := fastSampled k T s } := by
  have hc : ((s.body.fastSeen s.clock k).afterSample s.clock k T.toInt).hi.2.2 < 4 := afterSample_cool s.clock h
  have he : tempSample k T s = { s with body := fastSampled k T s } := by
    rw [tempSample_fast T hon hfw hfb, thermalSample_cool (st := { s with body := s.body.fastSeen s.clock k }) T hc, fastSampled]
  exact congrArg Host.Outcome.next he

/-- The fourth sample in a row at 110 °C (R395). -/
theorem exec_tempSample_hot (hfb : s.body.rbit THM_STATUS 3 = false) (h : 880 ≤ T.toInt) (h3 : 3 ≤ (s.body.sensor k).hi.2.2)
    (hf : s.body.fuseWr = none) :
    ∃ t, exec (.tempSample k T) s = .next t ∧ t.pending = s.pending ∧ t.clock = { Clock.reset with on := false } ∧
      t.mem.onDie = .empty ∧ t.mem.dev = .empty ∧ t.mem.fuse = s.mem.fuse ∧ t.body.pwr.mode = .shut ∧ t.body.pwr.mainEn = false ∧
      t.body.pwr.rails = 0x10008 ∧ (∀ r, t.body.hring r = .reset) ∧ t.body.rget LEG_STATUS = s.body.rget LEG_STATUS := by
  have hc : 4 ≤ ((s.body.fastSeen s.clock k).afterSample s.clock k T.toInt).hi.2.2 := afterSample_hot s.clock h h3
  have he : tempSample k T s = shutDown { s with body := fastSampled k T s } := by
    rw [tempSample_fast T hon hfw hfb, thermalSample_hot (st := { s with body := s.body.fastSeen s.clock k }) T hc, fastSampled]
  have hfuse : (fastSampled k T s).fuseWr = none := (sampled_frame (s.body.fastSeen s.clock k) s.clock k T).fuseWr.trans hf
  have hleg : (fastSampled k T s).rget LEG_STATUS = s.body.rget LEG_STATUS :=
    sampled_regs (s.body.fastSeen s.clock k) s.clock k T LEG_STATUS
      (by simp [TEMP, LEG_STATUS, THM_STATUS, FAULT_DROP, GOV_STATUS, THROTTLE_COUNT, TEMP_MAX]; omega)
  obtain ⟨h1, h2, h4, h5, h6, h7, h8, h9, h10, h11⟩ := shutDown_spec (s := { s with body := fastSampled k T s }) hfuse
  exact ⟨_, congrArg Host.Outcome.next he, h1, h2, h4, h5, h6, h7, h8, h9, h10, h11.trans hleg⟩

/-- While FALLBACK is set, an update of the fast loop that is not the last of a round is only counted. -/
theorem exec_tempSample_counts (hfb : s.body.rbit THM_STATUS 3 = true) (h : setBit s.body.thm.seen k true ≠ 0xFFFFFF) :
    exec (.tempSample k T) s =
      .next { s with body := { s.body with thm := { s.body.thm with last := s.clock.cyc, seen := setBit s.body.thm.seen k true } } } :=
  congrArg Host.Outcome.next (tempSample_counts T hon hfw hfb h)

/-- The last of a round clears FALLBACK, and its reading alone is valid. -/
theorem exec_tempSample_again (hfb : s.body.rbit THM_STATUS 3 = true) (h : setBit s.body.thm.seen k true = 0xFFFFFF) :
    ∃ t, exec (.tempSample k T) s = .next t ∧ onlyBody s t ∧ t.body.rbit THM_STATUS 3 = false ∧ t.body.rfld (TEMP k) 0 11 = T.toNat ∧
      ∀ i : Nat, i < 24 → t.body.rbit (TEMP i) 15 = decide (i = k.val) := by
  have hc : ((s.body.fastAgain s.clock).afterSample s.clock k T.toInt).hi.2.2 < 4 :=
    afterSample_cool s.clock (.inr (by rw [fastAgain_hi]; decide))
  have he : tempSample k T s = { s with body := (s.body.fastAgain s.clock).sampled s.clock k T } := by
    rw [tempSample_again T hon hfw hfb h, thermalSample_cool (st := { s with body := s.body.fastAgain s.clock }) T hc]
  obtain ⟨hr, hv, _⟩ := sampled_reading (s.body.fastAgain s.clock) s.clock k T
  refine ⟨_, congrArg Host.Outcome.next he, rfl, ?_, hr, fun i hi => ?_⟩
  · show ((s.body.fastAgain s.clock).sampled s.clock k T).rbit THM_STATUS 3 = false
    rw [sampled_status _ _ _ _ (by omega) (by omega), fastAgain_fallback]; rfl
  · show ((s.body.fastAgain s.clock).sampled s.clock k T).rbit (TEMP i) 15 = decide (i = k.val)
    by_cases hik : i = k.val
    · rw [hik, hv]; simp
    · rw [Body.rbit, sampled_temp_other _ _ _ _ hik, ← Body.rbit, fastAgain_valid _ _ hi]; simp [hik]
end

theorem exec_tempSample_off (h : s.clock.on = false ∨ s.body.rbit FLT_STATUS 5 = false) : exec (.tempSample k T) s = .next s :=
  congrArg Host.Outcome.next (tempSample_off T h)
end

/-! ### HOUSEKEEPING, FALLBACK and DWELL_END -/

section
variable (temps : List (BitVec 11)) (rails : BitVec 17) (s : State)

theorem exec_housekeeping_off (h : s.clock.on = false) : exec (.housekeeping temps rails) s = .next s :=
  congrArg Host.Outcome.next (housekeeping_off h temps rails)

theorem exec_housekeeping_fast (hon : s.clock.on = true) (hfb : s.body.rbit THM_STATUS 3 = false) :
    exec (.housekeeping temps rails) s = .next { s with body := { s.body with pwr := { s.body.pwr with rails := rails } } } := by
  refine congrArg Host.Outcome.next ?_
  rw [housekeeping_on hon]
  exact foldl_houseStep_fast _ hfb

theorem exec_housekeeping_fallback (hon : s.clock.on = true) (hfb : s.body.rbit THM_STATUS 3 = true) (hlen : temps.length = 24)
    (hcold : ∀ y ∈ temps, y.toInt < 720) :
    ∃ t, exec (.housekeeping temps rails) s = .next t ∧ onlyBody s t ∧ t.body.pwr.rails = rails ∧
      ∀ i : Nat, i < 24 → t.body.rfld (TEMP i) 0 11 = (temps.getD i 0).toNat ∧ t.body.rbit (TEMP i) 15 = true := by
  let b : Body := { s.body with pwr := { s.body.pwr with rails := rails } }
  have he : housekeeping temps rails s = { s with body := b.sampledFrom s.clock 0 temps } := by
    rw [housekeeping_on hon, List.take_of_length_le (by omega)]
    exact foldl_houseStep temps 0 { s with body := b } hon hfb fun y hy => by have := hcold y hy; omega
  have hp : (b.sampledFrom s.clock 0 temps).pwr = b.pwr := (sampledFrom_frame b s.clock 0 temps).pwr
  refine ⟨_, congrArg Host.Outcome.next he, rfl, congrArg PwrSt.rails hp, fun i hi => ?_⟩
  have hr := sampledFrom_reading b s.clock 0 temps (i := i) (by omega)
  rwa [Nat.zero_add] at hr

theorem exec_fallback : exec .fallback s = .next
    { s with body := if s.clock.on && decide (s.body.thm.last + 3000000 ≤ s.clock.cyc) then s.body.setFallback else s.body } := rfl

theorem exec_fallback_sets (hon : s.clock.on = true) (h : s.body.thm.last + 3000000 ≤ s.clock.cyc) (hfb : s.body.rbit THM_STATUS 3 = false) :
    ∃ t, exec .fallback s = .next t ∧ onlyBody s t ∧ regsBut (THM_STATUS :: (List.range 24).map TEMP) s t ∧
      t.body.rbit THM_STATUS 3 = true ∧ t.body.rbit THM_STATUS 11 = true ∧ t.body.thm.seen = 0 ∧
      (∀ i : Nat, i < 24 → t.body.rbit (TEMP i) 15 = false) ∧ ∀ e ∈ t.body.thm.sensors.entries, e.2.hi = (0, 0, 0) ∧ e.2.lo = (0, 0) := by
  have he : exec .fallback s = .next { s with body := s.body.setFallback } := by
    rw [exec_fallback, if_pos (by simp [hon, h])]
  have ht := setFallback_thm s.body hfb
  refine ⟨_, he, rfl, setFallback_regs s.body hfb, setFallback_status s.body hfb (.inl rfl), setFallback_status s.body hfb (.inr rfl), ?_,
    fun i hi => setFallback_valid s.body hfb hi, fun e hm => ?_⟩
  · exact congrArg ThmSt.seen ht
  · dsimp only at hm
    rw [ht] at hm
    exact mem_mapVals_afresh hm

theorem exec_fallback_stays (h : s.clock.on = false ∨ s.clock.cyc < s.body.thm.last + 3000000 ∨ s.body.rbit THM_STATUS 3 = true) :
    exec .fallback s = .next s := by
  rw [exec_fallback]
  split
  next hd =>
    simp only [Bool.and_eq_true, decide_eq_true_eq] at hd
    rcases h with h | h | h
    · simp [h] at hd
    · omega
    · rw [setFallback_set _ h]
  next => rfl

theorem exec_dwellEnd (k : Fin 24) :
    let x := s.body.sensor k
    ∃ t, exec (.dwellEnd k) s = .next t ∧ regsBut [TEMP k] s t ∧
      t = { s with body := { s.body with regs := t.body.regs, thm := { s.body.thm with sensors := t.body.thm.sensors } } } ∧
      t.body.sensor k =
        { x with dwell := ((if dwelling s.clock x.dwell.1 then x.dwell.1 else none), if dwelling s.clock x.dwell.2 then x.dwell.2 else none) } ∧
      t.body.rbit (TEMP k) 13 = (dwelling s.clock x.dwell.1 || dwelling s.clock x.dwell.2) ∧
      t.body.rfld (TEMP k) 0 11 = s.body.rfld (TEMP k) 0 11 ∧
      ∀ i : Nat, i ≠ k.val → t.body.sensor i = s.body.sensor i := by
  have hsen := dwellEnd_sensor s.body s.clock k
  have hreg := rget_dwellEnd s.body s.clock k
  refine ⟨{ s with body := s.body.dwellEnd s.clock k }, rfl, fun j hj => ?_, ?_, (hsen k).trans (if_pos rfl), ?_, ?_,
    fun i hi => (hsen i).trans (if_neg hi)⟩
  · exact (hreg j).trans (if_neg (by simpa using hj))
  · obtain ⟨r, h⟩ := dwellEnd_frame s.body s.clock k
    rw [h]
  · rw [Body.rbit, hreg, if_pos rfl, bit_withLevel_dwell]
    exact congrArg₂ (· || ·) (isSome_stillDwells _ _) (isSome_stillDwells _ _)
  · rw [Body.rfld, hreg, if_pos rfl, fld_withLevel_reading, ← Body.rfld]
end

end Sys2Proof.Machine
end

section
/-! Temperatures and the Power Governor, continued: RISE_EVAL, THROTTLE_STEP, POWER_SAMPLE and PARK, and the obligation. -/

namespace Sys2Proof.Machine

/-- A command that acts only while the clocks run. -/
theorem nextBody_on {s : State} (h : s.clock.on = true) (f : Clock → Body → Body) :
    nextBody (fun c b => if c.on then f c b else b) s = .next { s with body := f s.clock s.body } := by
  simp [nextBody, onBody, h]

theorem nextBody_off {s : State} (h : s.clock.on = false) (f : Clock → Body → Body) :
    nextBody (fun c b => if c.on then f c b else b) s = .next s := by simp [nextBody, onBody, h]

/-- A command whose function leaves the body as it is leaves the state as it is. -/
theorem nextBody_same {s : State} {f : Clock → Body → Body} (h : f s.clock s.body = s.body) :
    nextBody (fun c b => if c.on then f c b else b) s = .next s := by simp [nextBody, onBody, h]

/-! ### RISE_EVAL -/

section
variable (j : Fin 4) {s : State}

section
variable (hon : s.clock.on = true) (hfw : s.body.rbit FLT_STATUS 5 = true)
include hon hfw

theorem exec_riseEval_young (h : ∀ e ∈ (s.body.thm.tiles.get .reset j).hist, s.clock.cyc < e.1 + 1000000000) :
    let tr := s.body.thm.tiles.get .reset j
    let now := s.body.reading (16 + 2 * j.val) + s.body.reading (17 + 2 * j.val)
    ∃ t, exec (.riseEval j) s = .next t ∧ t = { s with body := { s.body with thm := { s.body.thm with tiles := t.body.thm.tiles } } } ∧
      t.body.thm.tiles.get .reset j = { tr with hist := (s.clock.cyc, now) :: tr.hist } := by
  have he : exec (.riseEval j) s = .next { s with body := s.body.evalKept s.clock j (s.body.thm.tiles.get .reset j).hist } := by
    rw [← riseEval_young s.body s.clock j hfw h]
    exact nextBody_on hon fun c b => b.riseEval c j
  exact ⟨_, he, rfl, evalKept_tile s.body s.clock j _⟩

/-- An evaluation against one 1 s old: the rate, and the trip at the fourth above the limit. -/
theorem exec_riseEval_aged {o : Nat × Int} (h : (s.body.thm.tiles.get .reset j).hist = [o]) (ho : o.1 + 1000000000 ≤ s.clock.cyc)
    (hf : s.body.thm.fwAt + 1000000000 ≤ s.clock.cyc) :
    let tr := s.body.thm.tiles.get .reset j
    let d := s.body.reading (16 + 2 * j.val) + s.body.reading (17 + 2 * j.val) - o.2
    let above := 16 * (s.body.rfld THM_CTL 4 6 : Int) < 10 * d
    d ≤ 5000 → -5000 ≤ d → ∃ t, exec (.riseEval j) s = .next t ∧ onlyBody s t ∧
      4 * ((t.body.rget (RISE_TILE j)).extractLsb' 0 16).toInt < 25 * d + 4 ∧
      25 * d < 4 * ((t.body.rget (RISE_TILE j)).extractLsb' 0 16).toInt + 4 ∧
      (¬ above ∨ tr.hi < 3 → regsBut [RISE_TILE j] s t) ∧
      (above → 3 ≤ tr.hi → tr.tripped = false → t.body.rbit THM_STATUS (12 + j) = true ∧ (t.body.thm.tiles.get .reset j).tripped = true ∧
        t.body.rget DRIFT_COUNT = satInc (s.body.rget DRIFT_COUNT) 1 ∧
        (s.body.cal.queue = [] → t.body.cal.queue = [⟨none, 0x40, 5, j, 0, true, false, 0, 0⟩])) := by
  intro tr d above h1 h2
  let u : Body := s.body.evalKept s.clock j [o]
  have he : exec (.riseEval j) s = .next { s with body := u.riseTest s.clock j d } := by
    have hr : s.body.riseEval s.clock j = u.riseTest s.clock j d := riseEval_aged s.body s.clock j hfw h ho hf
    rw [← hr]
    exact nextBody_on hon fun c b => b.riseEval c j
  have hrate := riseTest_rate u s.clock j d j.isLt
  obtain ⟨hlo, hhi⟩ := riseRate_near d (bit u.openValue 0)
  have hval : (((u.riseTest s.clock j d).rget (RISE_TILE j)).extractLsb' 0 16).toInt = riseRate d (bit u.openValue 0) := by
    rw [hrate, toInt_wrap16 (by omega) (by omega)]
  refine ⟨_, he, rfl, by rw [hval]; exact hlo, by rw [hval]; exact hhi, fun hc => ?_, fun ha h3 ht => ?_⟩
  · have hcalm : s.body.riseAbove d = false ∨ tr.hi < 3 := hc.imp (fun hn => decide_eq_false hn) id
    exact riseTest_calm u s.clock j d (evalKept_calm s.body s.clock j hcalm)
  · exact riseTest_trips u s.clock j d j.isLt (evalKept_trips s.body s.clock j (decide_eq_true ha) h3 ht)
end

theorem exec_riseEval_off (h : s.clock.on = false ∨ s.body.rbit FLT_STATUS 5 = false) : exec (.riseEval j) s = .next s := by
  rcases h with h | h
  · exact nextBody_off h fun c b => b.riseEval c j
  · exact nextBody_same (riseEval_off s.body s.clock j h)
end

/-! ### THROTTLE_STEP -/

section
variable {s : State}

/-- STEP holds `n`, and THROTTLE_STEP the greater of it and GOV_CTL's. -/
def stepHolds (s t : State) (n : Nat) : Prop :=
  t.body.rfld GOV_STATUS 5 5 = n ∧ t.body.rfld GOV_STATUS 0 5 = max n (s.body.rfld GOV_CTL 0 5)

section
variable (hon : s.clock.on = true) (hdue : s.body.thm.stepAt ≤ s.clock.cyc)
include hon hdue

theorem exec_throttleStep_rises (ht : s.body.rfld THM_STATUS 0 2 = 2) (hs : s.body.rfld GOV_STATUS 5 5 < 16) :
    ∃ t, exec .throttleStep s = .next t ∧ stepHolds s t (s.body.rfld GOV_STATUS 5 5 + 1) ∧
      t = { s with body := { s.body with regs := t.body.regs, log := t.body.log,
                                         thm := { s.body.thm with stepAt := s.body.thm.stepAt + 10000000 } } } ∧
      regsBut [GOV_STATUS, THROTTLE_COUNT] s t ∧ t.body.rget THROTTLE_COUNT = satInc (s.body.rget THROTTLE_COUNT) 1 := by
  have he : exec .throttleStep s =
      .next { s with body := { s.body.stepUp with thm := { s.body.thm with stepAt := s.body.thm.stepAt + 10000000 } } } := by
    rw [← stepDue_rises s.body s.clock hdue ht]
    exact nextBody_on hon fun c b => b.stepDue c
  obtain ⟨h1, h2, h3⟩ := stepUp_fields s.body hs
  refine ⟨_, he, ⟨h1, h2⟩, ?_, stepUp_regs s.body, h3⟩
  obtain ⟨r, l, hf⟩ := stepUp_frame s.body
  rw [hf]

theorem exec_throttleStep_falls (ht : s.body.rfld THM_STATUS 0 2 ≠ 2) (hs : 0 < s.body.rfld GOV_STATUS 5 5) :
    ∃ t, exec .throttleStep s = .next t ∧ stepHolds s t (s.body.rfld GOV_STATUS 5 5 - 1) ∧
      t = { s with body := { s.body with regs := t.body.regs, thm := { s.body.thm with stepAt := s.body.thm.stepAt + 100000000 } } } ∧
      regsBut [GOV_STATUS] s t := by
  have he : exec .throttleStep s =
      .next { s with body := { s.body.fixStep (s.body.rfld GOV_STATUS 5 5 - 1) with
        thm := { s.body.thm with stepAt := s.body.thm.stepAt + 100000000 } } } := by
    rw [← stepDue_falls s.body s.clock hdue ht hs]
    exact nextBody_on hon fun c b => b.stepDue c
  have hlt : s.body.rfld GOV_STATUS 5 5 < 32 := fld_lt _ 5 5
  refine ⟨_, he, fixStep_fields s.body (by omega), rfl, fixStep_regs s.body _⟩

theorem exec_throttleStep_top (ht : s.body.rfld THM_STATUS 0 2 = 2) (hs : 16 ≤ s.body.rfld GOV_STATUS 5 5) :
    exec .throttleStep s =
      .next { s with body := { s.body with thm := { s.body.thm with stepAt := s.body.thm.stepAt + 10000000 } } } := by
  have he := stepDue_rises s.body s.clock hdue ht
  rw [stepUp_top s.body hs] at he
  rw [← he]
  exact nextBody_on hon fun c b => b.stepDue c
end

theorem exec_throttleStep_waits
    (h : s.clock.on = false ∨ s.clock.cyc < s.body.thm.stepAt ∨ (s.body.rfld THM_STATUS 0 2 ≠ 2 ∧ s.body.rfld GOV_STATUS 5 5 = 0)) :
    exec .throttleStep s = .next s := by
  rcases h with h | h
  · exact nextBody_off h fun c b => b.stepDue c
  · exact nextBody_same (stepDue_waits s.body s.clock h)
end

/-! ### POWER_SAMPLE -/

section
variable (p : BitVec 16) {s : State}

theorem powerSample_values (b : Body) : (b.powerNoted p.toNat).rget POWER_NOW = p.setWidth 32 := by
  rw [(powerNoted_values b p.toNat).1]
  exact BitVec.eq_of_toNat_eq (by simp [r32])

section
variable (hon : s.clock.on = true)
include hon

/-- A sample while the grid runs: a change of SHED_LEVEL waits. -/
theorem exec_powerSample_grid (hg : s.body.gridRun = true) :
    let b := s.body
    let lim := 3200 - 128 * b.rfld GOV_STATUS 0 5
    let low := p.toNat + 128 < lim ∧ ∃ t0 : Nat, b.thm.below = some t0 ∧ t0 + 100000000 ≤ s.clock.cyc
    ∃ t, exec (.powerSample p) s = .next t ∧ regsBut [POWER_NOW, POWER_PEAK] s t ∧
      t.body.rget POWER_NOW = p.setWidth 32 ∧ t.body.rget POWER_PEAK = BitVec.ofNat 32 (max p.toNat (b.rnat POWER_PEAK)) ∧
      t = { s with body := { b with regs := t.body.regs, thm := { b.thm with below := t.body.thm.below, shed := t.body.thm.shed } } } ∧
      (lim < p.toNat → b.rfld GOV_STATUS 10 3 < 5 → t.body.thm.shed = some true) ∧
      (low → 0 < b.rfld GOV_STATUS 10 3 → t.body.thm.shed = some false) ∧
      (p.toNat ≤ lim → ¬ low → t.body.thm.shed = b.thm.shed) := by
  have he : exec (.powerSample p) s = .next { s with body := s.body.powerJudged s.clock p.toNat } := by
    have hp : s.body.powerSample s.clock p.toNat = s.body.powerJudged s.clock p.toNat := by rw [powerSample_eq, if_pos hg]
    rw [← hp]
    exact nextBody_on hon fun c b => b.powerSample c p.toNat
  exact ⟨_, he, powerNoted_regs s.body p.toNat, powerSample_values p s.body, (powerNoted_values s.body p.toNat).2, rfl,
    shedAfter_rises s.body s.clock p.toNat, fun ⟨hl, t0, hb, ht⟩ hs => shedAfter_falls s.body s.clock p.toNat hl hb ht hs,
    shedAfter_waits s.body s.clock p.toNat⟩

/-- A sample above the limit while the grid is stopped raises SHED_LEVEL at once. -/
theorem exec_powerSample_stopped (hg : s.body.gridRun = false) (hl : s.body.powerLimit < p.toNat) (hs : s.body.rfld GOV_STATUS 10 3 < 5) :
    ∃ t, exec (.powerSample p) s = .next t ∧ onlyBody s t ∧ t.body.rfld GOV_STATUS 10 3 = s.body.rfld GOV_STATUS 10 3 + 1 ∧
      t.body.thm.shed = none ∧ t.body.rbit SCOPE_STATUS 0 = true := by
  have he : exec (.powerSample p) s = .next { s with body := (s.body.powerJudged s.clock p.toNat).shedCommit s.clock } := by
    have hp : s.body.powerSample s.clock p.toNat = (s.body.powerJudged s.clock p.toNat).shedCommit s.clock := by
      rw [powerSample_eq, hg, if_neg (by decide)]
    rw [← hp]
    exact nextBody_on hon fun c b => b.powerSample c p.toNat
  have hlevel : (s.body.powerJudged s.clock p.toNat).shedLevel = s.body.shedLevel := (powerNoted_regs s.body p.toNat).rfld (by decide) 10 3
  obtain ⟨h1, h2, h3⟩ := shedCommit_rises (s.body.powerJudged s.clock p.toNat) s.clock
    (shedAfter_rises s.body s.clock p.toNat hl hs) (by rw [hlevel]; exact hs)
  exact ⟨_, he, rfl, h1.trans (congrArg (· + 1) hlevel), h2, h3⟩
end

theorem exec_powerSample_off (h : s.clock.on = false) : exec (.powerSample p) s = .next s := nextBody_off h fun c b => b.powerSample c p.toNat
end

/-! ### PARK -/

section
variable {s : State}

theorem exec_park_cove {n : Nat} (hn : n < 16) (hon : s.clock.on = true) (hstay : ¬ s.body.parkStays s.clock (128 + n)) :
    exec (.park (.cove n)) s = .next { s with body := { s.body with thm := { s.body.thm with parked := s.body.thm.parked ++ [128 + n] } } } := by
  have hp : s.body.park s.clock (.cove n) = s.body.putAway (.cove n) := park_goes s.body s.clock (decide_eq_true hn) hstay
  refine (nextBody_on hon fun c b => b.park c (.cove n)).trans ?_
  rw [hp]
  rfl

theorem exec_park_port {q : PortRef} (hon : s.clock.on = true) (hq : q.ok = true) (hen : s.body.rbit q.ctl 0 = true)
    (hstay : ¬ s.body.parkStays s.clock q.parkKey) :
    ∃ t, exec (.park (.port q)) s = .next t ∧ onlyBody s t ∧ t.body.thm.parked = s.body.thm.parked ++ [q.parkKey] ∧
      regsBut [q.status] s t ∧ t.body.rfld q.status 0 2 = 0 := by
  have hp : s.body.park s.clock (.port q) = s.body.putAway (.port q) :=
    park_goes s.body s.clock (t := .port q) (by simp [Body.parkable, hq, hen]) hstay
  have he := nextBody_on hon fun c b => b.park c (.port q)
  rw [hp] at he
  obtain ⟨h1, h2, h3⟩ := toSafe_spec { s.body with thm := { s.body.thm with parked := s.body.thm.parked ++ [q.parkKey] } } q
  exact ⟨_, he, rfl, congrArg ThmSt.parked h1, h2, h3⟩

theorem exec_park_stays {q : PortRef} (h : s.clock.on = false ∨ s.body.rfld GOV_STATUS 10 3 < 4 ∨ s.body.rbit GOV_CTL 5 = false ∨
    (s.body.gridRun = true ∧ s.body.inSlack s.clock.now = false)) : exec (.park (.port q)) s = .next s := by
  have hoff : s.body.rfld GOV_STATUS 10 3 < 4 ∨ s.body.rbit GOV_CTL 5 = false → s.body.parking = false := by
    rintro (h | h)
    · have hn : ¬ 4 ≤ s.body.rfld GOV_STATUS 10 3 := by omega
      simp [Body.parking, Body.shedLevel, hn]
    · simp [Body.parking, h]
  rcases h with h | h | h | h
  · exact nextBody_off h fun c b => b.park c (.port q)
  · exact nextBody_same (park_stays s.body s.clock _ (.inl (hoff (.inl h))))
  · exact nextBody_same (park_stays s.body s.clock _ (.inl (hoff (.inr h))))
  · exact nextBody_same (park_stays s.body s.clock _ (.inr (.inl h)))
end

/-- Settles O59: each command of the thermal loop and of the Power Governor, by what its function makes of the body; a sample through the
body it leaves (`Body.sampled`). -/
theorem temperaturesAndGovernor : Obligations.TemperaturesAndGovernor := by
  intro k j T temps rails p q s
  dsimp only
  refine ⟨fun ⟨hon, hfw, hfb⟩ hcool => ?_, fun ⟨hon, hfw, hfb⟩ => exec_tempSample_hot hon hfw hfb, exec_tempSample_off k T s,
    exec_tempSample_counts, exec_tempSample_again, exec_housekeeping_off temps rails s, exec_housekeeping_fast temps rails s,
    exec_housekeeping_fallback temps rails s, exec_fallback_sets s, exec_fallback_stays s, exec_dwellEnd s k, exec_riseEval_young j,
    fun o hon hfw => exec_riseEval_aged j hon hfw, exec_riseEval_off j, exec_throttleStep_rises, exec_throttleStep_falls, exec_throttleStep_top,
    exec_throttleStep_waits, exec_powerSample_grid p, exec_powerSample_stopped p, exec_powerSample_off p, ?_, ?_, exec_park_stays⟩
  · let v : Body := s.body.fastSeen s.clock k
    obtain ⟨hr, hv, hn⟩ := sampled_reading v s.clock k T
    exact ⟨_, exec_tempSample_cool hon hfw hfb hcool, rfl, hr, hv, hn, fun i _ hik => sampled_temp_other v s.clock k T hik,
      sampled_hottest v s.clock k T k.isLt, sampled_enters_warning (b := v) s.clock k.isLt, sampled_throttles (b := v) s.clock,
      sampled_leaves_warning (b := v) s.clock⟩
  · rintro n hn hon ⟨hs, he, hp, hb, hg⟩ hq
    exact exec_park_cove hn hon (parkStays_not s.body s.clock hs he hp hb hg (parkBusy_cove s.body s.clock hq))
  · rintro hon hq hen ⟨hs, he, hp, hb, hg⟩ hi
    exact exec_park_port hon hq hen (parkStays_not s.body s.clock hs he hp hb hg hi)

end Sys2Proof.Machine
end

section
/-! Frames the device originates (R54, R57, R60, R62, R67): what waits at the ring outputs, and when a frame is due. -/

namespace Sys2Proof.Machine

theorem nextBody_fixed {s : State} {f : Clock → Body → Body} (h : f s.clock s.body = s.body) : nextBody f s = .next s := by
  rw [nextBody, onBody, h]

/-- A command whose function makes `u` of the body. -/
theorem nextBody_to {s : State} {f : Clock → Body → Body} {u : Body} (h : f s.clock s.body = u) : nextBody f s = .next { s with body := u } := by
  rw [nextBody, onBody, h]

/-! ### What waits at an output (R57) -/

/-- Frames wait in the order of their classes. -/
def inClassOrder (l : List TxEntry) : Prop := l.Pairwise (fun x y => frameClass x.frame.type.toNat ≤ frameClass y.frame.type.toNat)

theorem mem_enqueueTx {e x : TxEntry} {l : List TxEntry} : x ∈ enqueueTx e l ↔ x = e ∨ x ∈ l := by
  induction l with
  | nil => simp [enqueueTx]
  | cons y t ih =>
    by_cases h : frameClass e.frame.type.toNat < frameClass y.frame.type.toNat
    · simp [enqueueTx, h]
    · simp only [enqueueTx, if_neg h, List.mem_cons, ih]
      exact or_left_comm

theorem length_enqueueTx (e : TxEntry) (l : List TxEntry) : (enqueueTx e l).length = l.length + 1 := by
  induction l with
  | nil => rfl
  | cons y t ih =>
    by_cases h : frameClass e.frame.type.toNat < frameClass y.frame.type.toNat
    · simp [enqueueTx, h]
    · simp [enqueueTx, h, ih]

theorem enqueueTx_inClassOrder (e : TxEntry) {l : List TxEntry} (h : inClassOrder l) : inClassOrder (enqueueTx e l) := by
  induction l with
  | nil => exact List.pairwise_singleton _ e
  | cons y t ih =>
    have hy := List.pairwise_cons.1 h
    by_cases hc : frameClass e.frame.type.toNat < frameClass y.frame.type.toNat
    · rw [enqueueTx, if_pos hc]
      refine List.pairwise_cons.2 ⟨fun x hx => ?_, h⟩
      rcases List.mem_cons.1 hx with rfl | hx
      · exact hc.le
      · exact hc.le.trans (hy.1 x hx)
    · rw [enqueueTx, if_neg hc]
      refine List.pairwise_cons.2 ⟨fun x hx => ?_, ih hy.2⟩
      rcases mem_enqueueTx.1 hx with rfl | hx
      · exact not_lt.1 hc
      · exact hy.1 x hx

/-- With no wrap in place a frame waits at the output it is for (R75). -/
theorem toOutput_unwrapped {b : Body} (ringB : Bool) (e : TxEntry) (h : b.rbit RING_STATUS 3 = false) :
    b.toOutput ringB e = { b with ring := b.ring.setTx ringB (enqueueTx e (b.ring.tx ringB)) } := by
  cases ringB <;> simp [Body.toOutput, h, RingSt.setTx, RingSt.tx]

/-! ### Originating a frame (R54) -/

section
variable {b : Body} {ty dst : Nat} {bc : Bool} {arg d1 d2 d3 : Nat}

theorem sendBoth_silent (h : b.canSend = false) : b.sendBoth ty dst bc arg d1 d2 d3 = b := by simp [Body.sendBoth, h]

/-- A frame sent on both rings waits at both outputs under one SEQ. -/
theorem sendBoth_waits (h : b.canSend = true) (hw : b.rbit RING_STATUS 3 = false) :
    let u := b.sendBoth ty dst bc arg d1 d2 d3
    u.ring.txA = enqueueTx ⟨b.newFrame ty dst bc false arg d1 d2 d3, none, 0⟩ b.ring.txA ∧
    u.ring.txB = enqueueTx ⟨b.newFrame ty dst bc true arg d1 d2 d3, none, 0⟩ b.ring.txB ∧ u.ring.seq = b.ring.seq + 1 ∧ u.regs = b.regs := by
  have hw2 : ({ b with ring := b.ring.setTx false (enqueueTx ⟨b.newFrame ty dst bc false arg d1 d2 d3, none, 0⟩ (b.ring.tx false)) } : Body).rbit
      RING_STATUS 3 = false := hw
  simp only [Body.sendBoth, h, if_true, toOutput_unwrapped _ _ hw, toOutput_unwrapped _ _ hw2]
  exact ⟨rfl, rfl, trivial, rfl⟩
end

/-! ### When a frame is due (R57, R60, R62, R67) -/

section
variable {b : Body} {c : Clock}

theorem syncNs_eq (b : Body) : b.syncNs = 1000 * ((b.rget SYNC_CFG).extractLsb' 0 4).toNat := by
  rw [Body.syncNs, Body.rfld, fld_eq_extract, Nat.mul_comm]

theorem actingLh_iff : b.actingLh = true ↔ b.ringEn = true ∧ b.rbit RING_STATUS 4 = true := by simp [Body.actingLh]

theorem within_iff (v n : Nat) : b.within c v n = true ↔ v * 2 ^ 32 ≤ c.tt.toNat + n * ((b.rget TIDE_INC_ACT).toNat * 2 ^ 8) :=
  decide_eq_true_iff

/-- Due once in each Slack window (R37), or every SYNC_INTERVAL while the grid is stopped. -/
theorem slackDue_iff (last : Nat) (stopped : Bool) : b.slackDue c last stopped = true ↔
    (b.gridRun = true ∧ ((b.grid.win = .slack ∧ last < b.grid.shotFin) ∨ ((b.grid.win = .start ∨ b.grid.win = .held) ∧ last < b.grid.bound))) ∨
    (b.gridRun = false ∧ stopped = true ∧ last + b.syncNs ≤ c.now) := by
  unfold Body.slackDue Body.slackFrom
  cases b.gridRun
  · simp
  · cases b.grid.win <;> simp

theorem nearAnnounce_iff : b.nearAnnounce c = true ↔
    c.cyc ≤ b.ring.lastAnnSent + 100 ∨ (b.gridRun = true ∧
      ((b.grid.ann = false ∧ b.grid.stopping = false ∧ b.within c b.grid.next 3100 = true) ∨
       (b.grid.ann = true ∧ b.grid.verdict = none ∧ b.within c b.grid.next 1100 = true))) := by
  simp [Body.nearAnnounce, and_assoc]

theorem anyWrap_iff : b.anyWrap = true ↔
    b.rbit RING_STATUS 3 = true ∨ ∃ e ∈ b.ring.status.entries, (e.2.getD 0).getLsbD 2 = true := by
  simp [Body.anyWrap, bit]

/-- TIME goes out when SYNC_INTERVAL has passed and no announcement or verdict is near (R57, R67). -/
theorem timeSend_due (h : b.actingLh = true) (ht : b.ring.lastTimeSent + b.syncNs ≤ c.cyc) (hn : ¬ b.nearAnnounce c = true) :
    b.timeSend c = { b.sendBoth 1 0 true (if b.anchored then 1 else 0) 0 0 0 with
      ring := { (b.sendBoth 1 0 true (if b.anchored then 1 else 0) 0 0 0).ring with lastTimeSent := c.cyc } } := by
  simp [Body.timeSend, h, ht, hn]

theorem timeSend_waits (h : ¬ (b.actingLh = true ∧ b.ring.lastTimeSent + b.syncNs ≤ c.cyc ∧ ¬ b.nearAnnounce c = true)) : b.timeSend c = b := by
  rw [Body.timeSend, if_neg]
  simpa [and_assoc] using h

theorem loopSend_waits (h : ¬ (b.actingLh = true ∧ ¬ b.anyWrap = true ∧ b.slackDue c b.ring.lastLoop false = true)) : b.loopSend c = b := by
  rw [Body.loopSend, if_neg]
  simpa [and_assoc] using h
end

/-- Settles O21, by the conditions under which each frame is due. -/
theorem ringSends : Obligations.RingSends := by
  intro s ringB
  have hlh := actingLh_iff (b := s.body)
  have hnear := nearAnnounce_iff (b := s.body) (c := s.clock)
  simp only [within_iff] at hnear
  have hdue : s.body.slackDue s.clock (if ringB then s.body.ring.lastReqB else s.body.ring.lastReqA) true = true ↔ _ := slackDue_iff _ _
  have hloop := slackDue_iff (b := s.body) (c := s.clock) s.body.ring.lastLoop false
  simp only [syncNs_eq, true_and, Bool.false_eq_true, false_and, and_false, or_false] at hdue hloop
  dsimp only
  refine ⟨fun ty dst bc arg d1 d2 d3 h hw => sendBoth_waits h hw, fun ty dst bc arg d1 d2 d3 h => sendBoth_silent h,
    fun e l h => ⟨enqueueTx_inClassOrder e h, length_enqueueTx e l⟩, fun h ht hn => ⟨_, rfl, ?_⟩, fun h => ?_, fun h => ⟨_, rfl, ?_⟩, fun h => ?_,
    fun h hw hg hl => ⟨_, rfl, ?_⟩, fun h => ?_⟩
  · have he := timeSend_due (hlh.2 h) (by rw [syncNs_eq]; exact ht) (fun hn' => hn (hnear.1 hn'))
    exact nextBody_to (f := fun c b => b.timeSend c) he
  · refine nextBody_fixed (f := fun c b => b.timeSend c) (timeSend_waits fun ⟨h1, h2, h3⟩ => ?_)
    rw [syncNs_eq] at h2
    rcases h with h | h | h
    · exact h (hlh.1 h1)
    · exact h3 (hnear.2 h)
    · omega
  · have he : s.body.delayReqSend s.clock ringB = _ := if_pos (hdue.2 h)
    refine (nextBody_to (f := fun c b => b.delayReqSend c ringB) he).trans ?_
    cases ringB <;> rfl
  · exact nextBody_fixed (f := fun c b => b.delayReqSend c ringB) (if_neg fun h' => h (hdue.1 h'))
  · have hl' : s.body.loopSend s.clock = _ := if_pos (by
      rw [hlh.2 h, Bool.eq_false_iff.2 (fun e => hw (anyWrap_iff.1 e)), hloop.2 ⟨hg, hl⟩]; rfl)
    exact nextBody_to (f := fun c b => b.loopSend c) hl'
  · refine nextBody_fixed (f := fun c b => b.loopSend c) (loopSend_waits fun ⟨h1, h2, h3⟩ => ?_)
    obtain ⟨hg, hl⟩ := hloop.1 h3
    rcases h with h | h | h | h
    · exact h (hlh.1 h1)
    · exact h2 (anyWrap_iff.2 h)
    · rw [hg] at h; cases h
    · exact h hl

end Sys2Proof.Machine
end

section
/-! A converter tile fails (R409, R410): which enables a tile that goes Safe clears, what else it leaves alone, and what its failure notes. -/

namespace Sys2Proof.Machine

/-! ### Registers of ports -/

/-- Where the registers of ports, inputs and bias outputs stand. -/
def portRegs : List Nat := (List.range 0x90000).map (0x200000 + ·) ++ (List.range 0x10000).map (0x1270000 + ·)

theorem mem_portRegs {k : Nat} : k ∈ portRegs ↔ (0x200000 ≤ k ∧ k < 0x290000) ∨ (0x1270000 ≤ k ∧ k < 0x1280000) := by
  simp only [portRegs, List.mem_append, List.mem_map, List.mem_range]
  constructor
  · rintro (⟨i, hi, rfl⟩ | ⟨i, hi, rfl⟩) <;> omega
  · rintro (h | h)
    · exact .inl ⟨k - 0x200000, by omega, by omega⟩
    · exact .inr ⟨k - 0x1270000, by omega, by omega⟩

/-- Only registers of ports differ, and no enable (bit 0 of a first register) has been set. -/
def Body.quieted (b u : Body) : Prop :=
  b.regsKept portRegs u ∧ ∀ k, k % 0x1000 = 0 → b.rbit k 0 = false → u.rbit k 0 = false

section
variable {b u w : Body}

theorem Body.quieted.refl (b : Body) : b.quieted b := ⟨.refl _ b, fun _ _ h => h⟩
theorem Body.quieted.trans (h : b.quieted u) (k : u.quieted w) : b.quieted w :=
  ⟨h.1.trans k.1, fun i hi hb => k.2 i hi (h.2 i hi hb)⟩
theorem Body.quieted.of_rget (h : ∀ j, u.rget j = b.rget j) : b.quieted u :=
  ⟨.of_rget h, fun k _ hb => by rw [Body.rbit, h k]; exact hb⟩

/-- A register of a port that is not its first. -/
theorem Body.quieted.rset (h : b.quieted u) {k : Nat} (hk : k ∈ portRegs) (h0 : k % 0x1000 ≠ 0) (v : Reg32) : b.quieted (u.rset k v) :=
  ⟨h.1.rset hk v, fun i hi hb => by
    rw [Body.rbit, u.rget_rset_other (fun e : i = k => h0 (e ▸ hi))]
    exact h.2 i hi hb⟩

theorem Body.quieted.stick (h : b.quieted u) {k : Nat} (hk : k ∈ portRegs) (h0 : k % 0x1000 ≠ 0) (i : Nat) : b.quieted (u.stick k i) :=
  (h.rset hk h0 _).trans (.of_rget fun j => (u.rget_stick j k i).trans (u.rget_rset_ite j k _).symm)

theorem Body.quieted.clears (h : b.quieted u) {k : Nat} (hk : k ∈ portRegs) : b.quieted (u.rsetBit k 0 false) :=
  ⟨h.1.rsetBit hk 0 false, fun i hi hb => by
    by_cases e : i = k
    · rw [e]; exact u.rbit_rsetBit_same k 0 false (by omega)
    · rw [u.rbit_rsetBit_other e]; exact h.2 i hi hb⟩

variable {α : Type} {f : Body → α → Body} {l : List α}

theorem Body.quieted.foldl (hf : ∀ b : Body, ∀ x ∈ l, b.quieted (f b x)) (b : Body) : b.quieted (l.foldl f b) := by
  induction l generalizing b with
  | nil => exact .refl b
  | cons x t ih => exact (hf b x (by simp)).trans (ih (fun b y hy => hf b y (by simp [hy])) _)

/-- What one step of a fold clears, the steps after it leave clear. -/
theorem foldl_clears {k : α → Nat} (hk : ∀ x, k x % 0x1000 = 0) (hf : ∀ b : Body, ∀ x ∈ l, b.quieted (f b x))
    (hc : ∀ b : Body, ∀ x ∈ l, (f b x).rbit (k x) 0 = false) (b : Body) : ∀ x ∈ l, (l.foldl f b).rbit (k x) 0 = false := by
  induction l generalizing b with
  | nil => simp
  | cons y t ih =>
    have ht : ∀ b : Body, ∀ x ∈ t, b.quieted (f b x) := fun b x hx => hf b x (by simp [hx])
    intro x hx
    rcases List.mem_cons.1 hx with rfl | hx
    · exact (Body.quieted.foldl ht _).2 _ (hk x) (hc b x (by simp))
    · exact ih ht (fun b x hx => hc b x (by simp [hx])) _ x hx
end

/-! ### Ports go Safe (R104, R130, R410) -/

section
variable (b : Body)

theorem ctl_mem_portRegs {p : PortRef} (hp : p.ok = true) : p.ctl ∈ portRegs ∧ p.status ∈ portRegs ∧ p.ctl % 0x1000 = 0 ∧ p.status % 0x1000 ≠ 0 := by
  cases p <;> simp only [PortRef.ok, decide_eq_true_eq] at hp <;>
    simp only [mem_portRegs, PortRef.status, PortRef.ctl, PORT_CTL, FLX_CTL, RCV_CTL] <;> omega

theorem toSafe_quieted {p : PortRef} (hp : p.ok = true) : b.quieted (b.toSafe p) := by
  obtain ⟨_, hs, _, h0⟩ := ctl_mem_portRegs hp
  have h : b.quieted ((b.setCore p .reset).rsetFld p.status 0 2 0) :=
    (Body.quieted.of_rget (u := b.setCore p .reset) (fun _ => by cases p <;> rfl)).rset hs h0 _
  cases p with
  | dp q => exact h.trans (.of_rget fun _ => rfl)
  | fx f => exact h.trans (.of_rget fun _ => rfl)
  | rx n => exact h

/-- A port disabled and made Safe. -/
def Body.shutPort (p : PortRef) : Body := (b.rsetBit p.ctl 0 false).toSafe p

theorem shutPort_quieted {p : PortRef} (hp : p.ok = true) : b.quieted (b.shutPort p) :=
  ((Body.quieted.refl b).clears (ctl_mem_portRegs hp).1).trans (toSafe_quieted _ hp)

theorem shutPort_clears {p : PortRef} (hp : p.ok = true) : (b.shutPort p).rbit p.ctl 0 = false :=
  (toSafe_quieted (b.rsetBit p.ctl 0 false) hp).2 _ (ctl_mem_portRegs hp).2.2.1 (Body.rbit_rsetBit_same _ _ _ _ (by omega))

theorem biasForce_quieted {n : Nat} (hn : n < 16) : b.quieted (b.biasForce n) ∧ (b.biasForce n).rbit (BIAS_CTL n) 0 = false := by
  have hm : BIAS_CTL n ∈ portRegs ∧ BIAS_STATUS n ∈ portRegs ∧ BIAS_CODE_ACT n ∈ portRegs ∧
      BIAS_STATUS n % 0x1000 ≠ 0 ∧ BIAS_CODE_ACT n % 0x1000 ≠ 0 ∧ BIAS_CTL n % 0x1000 = 0 := by
    simp only [mem_portRegs, BIAS_CTL, BIAS_STATUS, BIAS_CODE_ACT]; omega
  obtain ⟨h1, h2, h3, h4, h5, h6⟩ := hm
  have hr : ∀ u : Body, u.quieted (u.rangeSettled n) := fun u => by
    unfold Body.rangeSettled
    split
    · exact (Body.quieted.refl u).rset h2 h4 _
    split
    · exact (Body.quieted.refl u).rset h2 h4 _
    · exact .refl u
  have hs : ∀ u : Body, u.quieted (u.biasSafe n) := fun u =>
    (((hr u).rset h3 h5 0).rset h2 h4 _).trans (.of_rget fun _ => rfl)
  have hf : (b.rsetBit (BIAS_CTL n) 0 false).quieted (b.biasForce n) := (hs _).trans (.of_rget fun _ => rfl)
  exact ⟨((Body.quieted.refl b).clears h1).trans hf, hf.2 _ h6 (Body.rbit_rsetBit_same _ _ _ _ (by omega))⟩

theorem rcvFlag_quieted (c : Clock) {n : Nat} (hn : n < 16) (i : Nat) : b.quieted (b.rcvFlag c n i) := by
  have hm : RCV_SHOT_FLAGS n ∈ portRegs ∧ RCV_STATUS n ∈ portRegs ∧ RCV_SHOT_FLAGS n % 0x1000 ≠ 0 ∧ RCV_STATUS n % 0x1000 ≠ 0 := by
    simp only [mem_portRegs, RCV_SHOT_FLAGS, RCV_STATUS]; omega
  obtain ⟨h1, h2, h3, h4⟩ := hm
  have h : b.quieted ((b.rsetBit (RCV_SHOT_FLAGS n) i true).rsetFld (RCV_SHOT_FLAGS n) 16 16 b.epoch) :=
    ((Body.quieted.refl b).rset h1 h3 _).rset h1 h3 _
  exact (h.stick h2 h4 _).trans (.of_rget fun j => Body.rget_gatherFlag _ c n (9 + i) j)

theorem rget_setRecv (n : Nat) (x : Receiver) (j : Nat) : (b.setRecv n x).rget j = b.rget j := rfl

theorem inputSafe_quieted (c : Clock) {n : Nat} (hn : n < 16) :
    b.quieted (b.inputSafe c n) ∧ (b.inputSafe c n).rbit (RCV_CTL n) 0 = false := by
  have hp : (PortRef.rx n).ok = true := decide_eq_true hn
  have hs : (b.rsetBit (RCV_CTL n) 0 false).toSafe (.rx n) = b.shutPort (.rx n) := rfl
  have h : (b.shutPort (.rx n)).quieted (b.inputSafe c n) := by
    unfold Body.inputSafe
    dsimp only
    rw [hs]
    split
    · exact (Body.quieted.of_rget (rget_setRecv _ n _)).trans (rcvFlag_quieted _ c hn 6)
    · exact .refl _
  have h0 : RCV_CTL n % 0x1000 = 0 := (ctl_mem_portRegs hp).2.2.1
  have hc : (b.shutPort (.rx n)).rbit (RCV_CTL n) 0 = false := shutPort_clears b hp
  exact ⟨(shutPort_quieted b hp).trans h, h.2 _ h0 hc⟩
end

/-! ### A tile goes Safe (R410) -/

/-- Every enable of a tile is clear once the tile is off, and only registers of ports have changed. -/
theorem tileOff_clears (b : Body) (c : Clock) {k : Nat} (hk : k < 4) :
    let u := b.tileOff c k
    b.quieted u ∧ (∀ n, n < 16 → u.rbit (PORT_CTL (16 * k + n)) 0 = false) ∧ (∀ n, n < 8 → u.rbit (FLX_CTL (8 * k + n)) 0 = false) ∧
    ∀ n, n < 4 → u.rbit (PORT_CTL (64 + 4 * k + n)) 0 = false ∧ u.rbit (RCV_CTL (4 * k + n)) 0 = false ∧ u.rbit (BIAS_CTL (4 * k + n)) 0 = false := by
  intro u
  have dOk : ∀ i ∈ List.range 16, (PortRef.dp (16 * k + i)).ok = true := fun i hi => decide_eq_true (by have := List.mem_range.1 hi; omega)
  have pOk : ∀ i ∈ List.range 4, (PortRef.dp (64 + 4 * k + i)).ok = true := fun i hi => decide_eq_true (by have := List.mem_range.1 hi; omega)
  have fOk : ∀ i ∈ List.range 8, (PortRef.fx (8 * k + i)).ok = true := fun i hi => decide_eq_true (by have := List.mem_range.1 hi; omega)
  have nOk : ∀ i ∈ List.range 4, 4 * k + i < 16 := fun i hi => by have := List.mem_range.1 hi; omega
  have ctl0 : ∀ n, PORT_CTL n % 0x1000 = 0 ∧ FLX_CTL n % 0x1000 = 0 ∧ RCV_CTL n % 0x1000 = 0 ∧ BIAS_CTL n % 0x1000 = 0 := fun n => by
    unfold PORT_CTL FLX_CTL RCV_CTL BIAS_CTL; omega
  have d1 := fun (b : Body) i hi => shutPort_quieted b (dOk i hi)
  have p1 := fun (b : Body) i hi => shutPort_quieted b (pOk i hi)
  have f1 := fun (b : Body) i hi => shutPort_quieted b (fOk i hi)
  have b1 := fun (b : Body) i hi => (biasForce_quieted b (nOk i hi)).1
  have r1 := fun (b : Body) i hi => (inputSafe_quieted b c (nOk i hi)).1
  let bD := (List.range 16).foldl (fun b i => b.shutPort (.dp (16 * k + i))) b
  let bP := (List.range 4).foldl (fun b i => b.shutPort (.dp (64 + 4 * k + i))) bD
  let bF := (List.range 8).foldl (fun b i => b.shutPort (.fx (8 * k + i))) bP
  let bB := (List.range 4).foldl (fun b i => b.biasForce (4 * k + i)) bF
  have hu : u = (List.range 4).foldl (fun b i => b.inputSafe c (4 * k + i)) bB := rfl
  have qR : bB.quieted u := Body.quieted.foldl r1 bB
  have qB : bF.quieted u := (Body.quieted.foldl b1 bF).trans qR
  have qF : bP.quieted u := (Body.quieted.foldl f1 bP).trans qB
  have qP : bD.quieted u := (Body.quieted.foldl p1 bD).trans qF
  refine ⟨(Body.quieted.foldl d1 b).trans qP, fun n hn => ?_, fun n hn => ?_, fun n hn => ⟨?_, ?_, ?_⟩⟩
  · exact qP.2 _ (ctl0 _).1 (foldl_clears (fun i => (ctl0 (16 * k + i)).1) d1 (fun b i hi => shutPort_clears b (dOk i hi)) b n (List.mem_range.2 hn))
  · exact qB.2 _ (ctl0 _).2.1 (foldl_clears (fun i => (ctl0 (8 * k + i)).2.1) f1 (fun b i hi => shutPort_clears b (fOk i hi)) bP n (List.mem_range.2 hn))
  · exact qF.2 _ (ctl0 _).1 (foldl_clears (fun i => (ctl0 (64 + 4 * k + i)).1) p1 (fun b i hi => shutPort_clears b (pOk i hi)) bD n (List.mem_range.2 hn))
  · exact foldl_clears (fun i => (ctl0 (4 * k + i)).2.2.1) r1 (fun b i hi => (inputSafe_quieted b c (nOk i hi)).2) bB n (List.mem_range.2 hn)
  · exact qR.2 _ (ctl0 _).2.2.2 (foldl_clears (fun i => (ctl0 (4 * k + i)).2.2.2) b1 (fun b i hi => (biasForce_quieted b (nOk i hi)).2) bF n (List.mem_range.2 hn))

/-! ### Records and single bits -/

/-- The first record of an empty fault ring (R296, R414, R415), sent by a body whose host registers and rings are those of `b`. -/
theorem fault_first {b u : Body} {ks : List Nat} (hk : b.regsKept ks u) (hh : u.host = b.host) (hks : ∀ k ∈ ks, k < 0x10000 ∨ 0x20000 ≤ k)
    (c : Clock) (code d0 d1 : Nat) (hok : b.faultRingOk = true) (hr : (b.hring (b.rfld HST_CTL 8 8)).recs = []) :
    ((u.fault c code d0 d1).hring (b.rfld HST_CTL 8 8)).recs =
      [⟨0x81, 0, 0, 0, BitVec.ofNat 32 (code + d0), BitVec.ofNat 64 d1, c.tt.extractLsb' 32 64, false, none, none⟩] := by
  obtain ⟨h1, h2⟩ := faultRingOk_congr hk hh hks
  have hw : (u.hring (b.rfld HST_CTL 8 8)).recs = [] := by rw [Body.hring, hh]; exact hr
  rw [fault_taken _ _ _ _ _ (h1.trans hok), h2, hring_setHring, hw, now_eq_extract]
  rfl

theorem rbit_fault (b : Body) (c : Clock) (code d0 d1 : Nat) {k : Nat} (h : k ≠ FAULT_DROP) (i : Nat) :
    (b.fault c code d0 d1).rbit k i = b.rbit k i := by
  rw [Body.rbit, rget_fault _ _ _ _ _ _ h, Body.rbit]

theorem fault_flt (b : Body) (c : Clock) (code d0 d1 : Nat) : (b.fault c code d0 d1).flt = b.flt := by
  obtain ⟨_, _, _, _, _, h⟩ := fault_thermalFrame b c code d0 d1
  rw [h]

theorem fld_one {w : Nat} (v : BitVec w) (i : Nat) : fld v i 1 = if bit v i then 1 else 0 := by
  have h : fld v i 1 = (v.toNat.testBit i).toNat := (Nat.toNat_testBit v.toNat i).symm
  rw [h, bit, BitVec.getLsbD]
  cases v.toNat.testBit i <;> rfl

theorem setBit_true_eq_or (v : Reg32) {i : Nat} (hi : i < 32) : setBit v i true = v ||| BitVec.twoPow 32 i := by
  apply BitVec.eq_of_getLsbD_eq
  intro j hj
  have h : (setBit v i true).getLsbD j = if j = i then true else v.getLsbD j := bit_setBit v i j true hj
  rw [h, BitVec.getLsbD_or, BitVec.getLsbD_twoPow]
  by_cases e : j = i
  · simp [e, hi]
  · simp [e, Ne.symm e]

/-! ### TILE_FAIL -/

section
variable (b : Body) (c : Clock) (k : Nat) (t : TileTests)

/-- RAILS: the sticky bit of a tile whose rails fail (R409). -/
def Body.railNoted : Body := if t.rail then b.stick PMC_STATUS 9 else b

/-- FAILED, CAUSE, the tests and the count of frames that failed their check (R410, R435). -/
def Body.tileNoted : Body :=
  let b := b.rsetBit FLT_STATUS (16 + k) true
  let b := (b.rsetFld (TILE_STATUS k) 8 4 t.cause).rsetBit (TILE_STATUS k) 0 (! t.link)
  let b := (List.range 3).foldl (fun b i => b.rsetBit (TILE_STATUS k) (1 + i) (! bit t.clk i)) b
  b.count (TILE_LINK_ERR k) t.errs

theorem railNoted_frame : ∃ r l, b.railNoted t = { b with regs := r, log := l } := by
  unfold Body.railNoted
  split <;> exact ⟨_, _, rfl⟩

theorem calAbandon_idle (h : b.cal.runs = []) : b.calAbandon c = b := by simp [Body.calAbandon, h]

/-- The body of a tile's failure before its record goes out. -/
def Body.tileDown : Body :=
  let u := (((b.railNoted t).tileNoted k t).tileOff c k).calAbandon c
  { u with flt := { u.flt with errTt := t.errTt :: u.flt.errTt } }

theorem tileFail_eq : b.tileFail c k t =
    if (b.railNoted t).rbit FLT_STATUS (16 + k) || t.cause == 0 then b.railNoted t
    else (b.tileDown c k t).fault c 0x03 (k * 2 ^ 8 + t.cause * 2 ^ 10) t.errTt.toNat := by
  unfold Body.tileFail Body.tileDown Body.tileNoted Body.railNoted
  dsimp only

theorem railNoted_failed : (b.railNoted t).rbit FLT_STATUS (16 + k) = b.rbit FLT_STATUS (16 + k) := by
  unfold Body.railNoted
  split
  · exact b.rbit_rsetBit_other (by decide) _ _ _
  · rfl

theorem tileFail_stays (h : b.rbit FLT_STATUS (16 + k) = true ∨ t.cause = 0) : b.tileFail c k t = b.railNoted t := by
  rw [tileFail_eq, railNoted_failed, if_pos]
  rcases h with h | h <;> simp [h]

theorem tileFail_fails (h : b.rbit FLT_STATUS (16 + k) = false) (hc : t.cause ≠ 0) :
    b.tileFail c k t = (b.tileDown c k t).fault c 0x03 (k * 2 ^ 8 + t.cause * 2 ^ 10) t.errTt.toNat := by
  rw [tileFail_eq, railNoted_failed, if_neg]
  simp [h, hc]
end
end Sys2Proof.Machine
end

section
/-! TILE_FAIL put together (R409, R410, R415). -/

namespace Sys2Proof.Machine

/-! ### What a failure notes (R410, R435) -/

section
variable (b : Body) (c : Clock) {k : Nat} (t : TileTests)

/-- TILE_STATUS of a failed tile: CAUSE, the link and the three clocks. -/
def withTests (v : Reg32) (t : TileTests) : Reg32 :=
  setBit (setBit (setBit (setBit (setFld v 8 4 t.cause) 0 (! t.link)) 1 (! bit t.clk 0)) 2 (! bit t.clk 1)) 3 (! bit t.clk 2)

theorem cause_lt : t.cause < 16 := by
  unfold TileTests.cause
  cases t.link <;> cases t.frame <;> cases t.clk != 0 <;> cases t.rail <;> decide

theorem fld_withTests (v : Reg32) : fld (withTests v t) 8 4 = t.cause := by
  rw [withTests, fld_setBit _ _ _ _ _ (by omega), fld_setBit _ _ _ _ _ (by omega), fld_setBit _ _ _ _ _ (by omega), fld_setBit _ _ _ _ _ (by omega),
    fld_setFld_same _ _ _ _ (by omega)]
  exact Nat.mod_eq_of_lt (cause_lt t)

theorem bit_withTests_link (v : Reg32) : bit (withTests v t) 0 = ! t.link := by
  simp [withTests, bit_setBit]

theorem bit_withTests_clock (v : Reg32) {n : Nat} (hn : n < 3) : bit (withTests v t) (1 + n) = ! bit t.clk n := by
  obtain rfl | rfl | rfl : n = 0 ∨ n = 1 ∨ n = 2 := by omega
  all_goals simp [withTests, bit_setBit]

theorem rget_tileNoted (j : Nat) : (b.tileNoted k t).rget j =
    if j = TILE_LINK_ERR k then satInc (b.rget (TILE_LINK_ERR k)) t.errs
    else if j = TILE_STATUS k then withTests (b.rget (TILE_STATUS k)) t
    else if j = FLT_STATUS then setBit (b.rget FLT_STATUS) (16 + k) true else b.rget j := by
  have h1 : TILE_LINK_ERR k ≠ TILE_STATUS k := by unfold TILE_LINK_ERR TILE_STATUS; omega
  have h2 : TILE_LINK_ERR k ≠ FLT_STATUS := by unfold TILE_LINK_ERR FLT_STATUS; omega
  have h3 : TILE_STATUS k ≠ FLT_STATUS := by unfold TILE_STATUS FLT_STATUS; omega
  have hl : List.range 3 = [0, 1, 2] := rfl
  simp only [Body.tileNoted, hl, List.foldl_cons, List.foldl_nil, Body.rget_count, Body.rget_rsetBit, Body.rget_rsetFld, if_true, if_neg h1, if_neg h2,
    if_neg h3]
  by_cases hj : j = TILE_STATUS k
  · rw [if_pos hj, if_pos hj]; rfl
  · simp only [if_neg hj]

theorem railNoted_regs : b.regsKept [PMC_STATUS] (b.railNoted t) := by
  unfold Body.railNoted
  split
  · exact (Body.regsKept.refl _ b).stick (by simp) _
  · exact .refl _ b

theorem tileDown_idle (h : b.cal.runs = []) : b.tileDown c k t =
    { ((b.railNoted t).tileNoted k t).tileOff c k with flt := { b.flt with errTt := t.errTt :: b.flt.errTt } } := by
  obtain ⟨r, l, hf⟩ := railNoted_frame b t
  obtain ⟨⟨_, _, _, _, _, _, _, ho⟩, _⟩ := tileOff_safe ((b.railNoted t).tileNoted k t) c k
  have hn : ((b.railNoted t).tileNoted k t).cal = b.cal ∧ ((b.railNoted t).tileNoted k t).flt = b.flt := by rw [hf]; exact ⟨rfl, rfl⟩
  have hu : (((b.railNoted t).tileNoted k t).tileOff c k).cal.runs = [] ∧ (((b.railNoted t).tileNoted k t).tileOff c k).flt = b.flt := by
    rw [ho]; exact ⟨by rw [← h, ← hn.1], hn.2⟩
  unfold Body.tileDown
  dsimp only
  rw [calAbandon_idle _ c hu.1, hu.2]

/-- The body of a failure before its record: registers, host rings and error times. -/
theorem tileDown_spec (hk : k < 4) (h : b.cal.runs = []) :
    let u := b.tileDown c k t
    (∀ j, u.rget j = (((b.railNoted t).tileNoted k t).tileOff c k).rget j) ∧ u.host = b.host ∧ u.flt.errTt = t.errTt :: b.flt.errTt ∧
    b.regsKept ([PMC_STATUS, TILE_LINK_ERR k, TILE_STATUS k, FLT_STATUS] ++ portRegs) u := by
  have hn : ((b.railNoted t).tileNoted k t).host = b.host := by
    obtain ⟨r, l, hf⟩ := railNoted_frame b t
    rw [hf]; rfl
  have hh := (tileOff_safe ((b.railNoted t).tileNoted k t) c k).host.trans hn
  have hq := (tileOff_clears ((b.railNoted t).tileNoted k t) c hk).1.1
  rw [tileDown_idle b c t h]
  generalize ((b.railNoted t).tileNoted k t).tileOff c k = w at hh hq ⊢
  refine ⟨fun _ => rfl, hh, rfl, fun j hj => ?_⟩
  simp only [List.mem_append, List.mem_cons, List.not_mem_nil, or_false, not_or] at hj
  obtain ⟨⟨h1, h2, h3, h4⟩, h5⟩ := hj
  refine (hq j h5).trans ?_
  rw [rget_tileNoted, if_neg h2, if_neg h3, if_neg h4]
  exact railNoted_regs b t j (by simpa using h1)

/-- A register outside the ports when the tile is down. -/
theorem rget_tileDown (hk : k < 4) (h : b.cal.runs = []) {j : Nat} (hj : j ∉ portRegs) :
    (b.tileDown c k t).rget j = ((b.railNoted t).tileNoted k t).rget j :=
  ((tileDown_spec b c t hk h).1 j).trans ((tileOff_clears _ c hk).1.1 j hj)

/-- FAILED, TILE_STATUS, the count of bad frames and the rail bit when the tile is down (R409, R410, R435). -/
theorem tileDown_notes (hk : k < 4) (h : b.cal.runs = []) :
    let u := b.tileDown c k t
    u.rbit FLT_STATUS (16 + k) = true ∧ u.rget (TILE_STATUS k) = withTests (b.rget (TILE_STATUS k)) t ∧
    u.rget (TILE_LINK_ERR k) = satInc (b.rget (TILE_LINK_ERR k)) t.errs ∧ (t.rail = true → u.rbit PMC_STATUS 9 = true) := by
  have hp : ∀ j ∈ [FLT_STATUS, TILE_STATUS k, TILE_LINK_ERR k, PMC_STATUS], j ∉ portRegs := by
    simp only [List.mem_cons, List.not_mem_nil, or_false, mem_portRegs, FLT_STATUS, TILE_STATUS, TILE_LINK_ERR, PMC_STATUS]
    omega
  have hr : ∀ j, j ≠ PMC_STATUS → (b.railNoted t).rget j = b.rget j := fun j hj => railNoted_regs b t j (by simpa using hj)
  have h1 : FLT_STATUS ≠ TILE_LINK_ERR k ∧ FLT_STATUS ≠ TILE_STATUS k ∧ TILE_STATUS k ≠ TILE_LINK_ERR k := by
    unfold FLT_STATUS TILE_LINK_ERR TILE_STATUS; omega
  have h2 : TILE_STATUS k ≠ PMC_STATUS ∧ TILE_LINK_ERR k ≠ PMC_STATUS ∧ PMC_STATUS ≠ FLT_STATUS := by
    unfold TILE_LINK_ERR TILE_STATUS PMC_STATUS FLT_STATUS; omega
  refine ⟨?_, ?_, ?_, fun ht => ?_⟩
  · rw [Body.rbit, rget_tileDown b c t hk h (hp _ (by simp)), rget_tileNoted, if_neg h1.1, if_neg h1.2.1, if_pos rfl]
    exact bit_setBit_same _ _ _ (by omega)
  · rw [rget_tileDown b c t hk h (hp _ (by simp)), rget_tileNoted, if_neg h1.2.2, if_pos rfl, hr _ h2.1]
  · rw [rget_tileDown b c t hk h (hp _ (by simp)), rget_tileNoted, if_pos rfl, hr _ h2.2.1]
  · rw [Body.rbit, rget_tileDown b c t hk h (hp _ (by simp)), rget_tileNoted, if_neg h2.2.1.symm, if_neg h2.1.symm, if_neg h2.2.2]
    have he : b.railNoted t = b.stick PMC_STATUS 9 := if_pos ht
    rw [he]
    exact b.rbit_stick_same _ _ (by omega)

/-- Every enable of the tile is clear when it is down (R410). -/
theorem tileDown_disables (hk : k < 4) (h : b.cal.runs = []) :
    let u := b.tileDown c k t
    (∀ n, n < 16 → u.rbit (PORT_CTL (16 * k + n)) 0 = false) ∧ (∀ n, n < 8 → u.rbit (FLX_CTL (8 * k + n)) 0 = false) ∧
    ∀ n, n < 4 → u.rbit (PORT_CTL (64 + 4 * k + n)) 0 = false ∧ u.rbit (RCV_CTL (4 * k + n)) 0 = false ∧ u.rbit (BIAS_CTL (4 * k + n)) 0 = false := by
  have hb : ∀ j i, (b.tileDown c k t).rbit j i = (((b.railNoted t).tileNoted k t).tileOff c k).rbit j i := fun j i => by
    rw [Body.rbit, (tileDown_spec b c t hk h).1 j, Body.rbit]
  obtain ⟨_, h1, h2, h3⟩ := tileOff_clears ((b.railNoted t).tileNoted k t) c hk
  refine ⟨fun n hn => (hb _ _).trans (h1 n hn), fun n hn => (hb _ _).trans (h2 n hn), fun n hn => ?_⟩
  obtain ⟨p, q, r⟩ := h3 n hn
  exact ⟨(hb _ _).trans p, (hb _ _).trans q, (hb _ _).trans r⟩
end

/-! ### TILE_FAIL as a command -/

section
variable {k : Fin 4} {link frame rail : Bool} {clk : BitVec 3} {errTt : BitVec 36} {errs : Nat} {s : State}

/-- CAUSE in its bits. -/
theorem cause_toNat (t : TileTests) :
    (BitVec.ofBool t.rail ++ BitVec.ofBool (t.clk != 0) ++ BitVec.ofBool t.frame ++ BitVec.ofBool t.link).toNat = t.cause := by
  unfold TileTests.cause
  cases t.link <;> cases t.frame <;> cases t.clk != 0 <;> cases t.rail <;> rfl

theorem exec_tileFail (h : s.clock.on = true) : exec (.tileFail k link frame clk rail errTt errs) s =
    .next { s with body := s.body.tileFail s.clock k ⟨link, frame, clk, rail, errTt, errs⟩ } := nextBody_on h _

/-- A tile fails (R409, R410, R415). -/
theorem exec_tileFail_fails (hon : s.clock.on = true) (hf : s.body.rbit FLT_STATUS (16 + k) = false) (hruns : s.body.cal.runs = [])
    (hc : (⟨link, frame, clk, rail, errTt, errs⟩ : TileTests).cause ≠ 0) :
    let b := s.body
    let cause := (⟨link, frame, clk, rail, errTt, errs⟩ : TileTests).cause
    ∃ t, exec (.tileFail k link frame clk rail errTt errs) s = .next t ∧ onlyBody s t ∧ t.body.rbit FLT_STATUS (16 + k) = true ∧
      t.body.rfld (TILE_STATUS k) 8 4 = cause ∧ t.body.rbit (TILE_STATUS k) 0 = (! link) ∧
      (∀ n : Nat, n < 3 → t.body.rbit (TILE_STATUS k) (1 + n) = ! clk.getLsbD n) ∧
      t.body.rget (TILE_LINK_ERR k) = satInc (b.rget (TILE_LINK_ERR k)) errs ∧ t.body.flt.errTt = errTt :: b.flt.errTt ∧
      (rail = true → t.body.rbit PMC_STATUS 9 = true) ∧
      (∀ n : Nat, n < 16 → t.body.rbit (PORT_CTL (16 * k.val + n)) 0 = false) ∧ (∀ n : Nat, n < 8 → t.body.rbit (FLX_CTL (8 * k.val + n)) 0 = false) ∧
      (∀ n : Nat, n < 4 → t.body.rbit (PORT_CTL (64 + 4 * k.val + n)) 0 = false ∧ t.body.rbit (RCV_CTL (4 * k.val + n)) 0 = false ∧
        t.body.rbit (BIAS_CTL (4 * k.val + n)) 0 = false) ∧
      (b.faultRingOk = true → (b.hring (b.rfld HST_CTL 8 8)).recs = [] → (t.body.hring (b.rfld HST_CTL 8 8)).recs =
        [⟨0x81, 0, 0, 0, BitVec.ofNat 32 (3 + k.val * 2 ^ 8 + cause * 2 ^ 10), errTt.setWidth 64, s.clock.tt.extractLsb' 32 64, false, none, none⟩]) := by
  let T : TileTests := ⟨link, frame, clk, rail, errTt, errs⟩
  let u := s.body.tileDown s.clock k T
  let v := u.fault s.clock 0x03 (k * 2 ^ 8 + T.cause * 2 ^ 10) errTt.toNat
  obtain ⟨hu, hh, herr, hks⟩ := tileDown_spec s.body s.clock T k.isLt hruns
  obtain ⟨n1, n2, n3, n4⟩ := tileDown_notes s.body s.clock T k.isLt hruns
  obtain ⟨d1, d2, d3⟩ := tileDown_disables s.body s.clock T k.isLt hruns
  have he : exec (.tileFail k link frame clk rail errTt errs) s = .next { s with body := v } :=
    (exec_tileFail hon).trans (by rw [tileFail_fails _ _ _ _ hf hc])
  have hg : ∀ j, j ≠ FAULT_DROP → v.rget j = u.rget j := fun j hj => rget_fault u s.clock _ _ _ j hj
  have hb : ∀ j i, j ≠ FAULT_DROP → v.rbit j i = u.rbit j i := fun j i hj => rbit_fault u s.clock _ _ _ hj i
  have ne : FLT_STATUS ≠ FAULT_DROP ∧ PMC_STATUS ≠ FAULT_DROP := by decide
  have neT : TILE_STATUS k ≠ FAULT_DROP ∧ TILE_LINK_ERR k ≠ FAULT_DROP := by unfold TILE_STATUS TILE_LINK_ERR FAULT_DROP; omega
  have neP : ∀ n, PORT_CTL n ≠ FAULT_DROP ∧ FLX_CTL n ≠ FAULT_DROP ∧ RCV_CTL n ≠ FAULT_DROP ∧ BIAS_CTL n ≠ FAULT_DROP := fun n => by
    unfold PORT_CTL FLX_CTL RCV_CTL BIAS_CTL FAULT_DROP; omega
  refine ⟨{ s with body := v }, he, rfl, (hb _ _ ne.1).trans n1, ?_, ?_, fun n hn => ?_,
    (hg _ neT.2).trans n3, (congrArg FltSt.errTt (fault_flt _ _ _ _ _)).trans herr, fun hr => (hb _ _ ne.2).trans (n4 hr),
    fun n hn => (hb _ _ (neP _).1).trans (d1 n hn), fun n hn => (hb _ _ (neP _).2.1).trans (d2 n hn), fun n hn => ?_, fun hok hr => ?_⟩
  · exact (congrArg (fld · 8 4) ((hg _ neT.1).trans n2)).trans (fld_withTests T _)
  · exact (congrArg (bit · 0) ((hg _ neT.1).trans n2)).trans (bit_withTests_link T _)
  · exact (congrArg (bit · (1 + n)) ((hg _ neT.1).trans n2)).trans (bit_withTests_clock T _ hn)
  · obtain ⟨p, q, r⟩ := d3 n hn
    exact ⟨(hb _ _ (neP _).1).trans p, (hb _ _ (neP _).2.2.1).trans q, (hb _ _ (neP _).2.2.2).trans r⟩
  · have hks2 : ∀ j ∈ [PMC_STATUS, TILE_LINK_ERR k, TILE_STATUS k, FLT_STATUS] ++ portRegs, j < 0x10000 ∨ 0x20000 ≤ j := by
      simp only [List.mem_append, List.mem_cons, List.not_mem_nil, or_false, mem_portRegs, PMC_STATUS, TILE_LINK_ERR, TILE_STATUS, FLT_STATUS]
      omega
    refine (fault_first hks hh hks2 s.clock 0x03 _ _ hok hr).trans ?_
    rw [← Nat.add_assoc, BitVec.ofNat_toNat]

/-- A tile failed already, or no test failing: nothing but the rail bit (R409, R410). -/
theorem exec_tileFail_stays (hon : s.clock.on = true)
    (h : s.body.rbit FLT_STATUS (16 + k) = true ∨ (⟨link, frame, clk, rail, errTt, errs⟩ : TileTests).cause = 0) :
    exec (.tileFail k link frame clk rail errTt errs) s =
      .next { s with body := s.body.railNoted ⟨link, frame, clk, rail, errTt, errs⟩ } := by
  rw [exec_tileFail hon, tileFail_stays _ _ _ _ h]

/-- With the rails good that is nothing at all. -/
theorem exec_tileFail_same (hr : rail = false) (h : s.clock.on = false ∨ s.body.rbit FLT_STATUS (16 + k) = true ∨
    (⟨link, frame, clk, rail, errTt, errs⟩ : TileTests).cause = 0) : exec (.tileFail k link frame clk rail errTt errs) s = .next s := by
  cases hon : s.clock.on
  · exact nextBody_off hon _
  · rw [exec_tileFail_stays hon (h.resolve_left (by simp [hon])), hr]
    rfl

theorem exec_tileFail_rail (hon : s.clock.on = true) (hf : s.body.rbit FLT_STATUS (16 + k) = true) (hr : rail = true) :
    ∃ t, exec (.tileFail k link frame clk rail errTt errs) s = .next t ∧ onlyRegs s t ∧ regsBut [PMC_STATUS] s t ∧
      t.body.rget PMC_STATUS = s.body.rget PMC_STATUS ||| 0x200 := by
  subst hr
  refine ⟨_, exec_tileFail_stays hon (.inl hf), rfl, railNoted_regs s.body _, ?_⟩
  have h : (s.body.stick PMC_STATUS 9).rget PMC_STATUS = setBit (s.body.rget PMC_STATUS) 9 true := by simp [Body.rget_stick]
  exact h.trans (setBit_true_eq_or _ (by omega))
end

end Sys2Proof.Machine
end

section
/-! References lost and returned (R407, R408, R415), and a silent Harbour (R412). -/

namespace Sys2Proof.Machine

/-! ### What FLT_STATUS and REF_STATUS show (R416) -/

section
variable (b : Body) (c : Clock) (i : Nat)

/-- REF_STATUS with the state of one reference. -/
def withRef (v : Reg32) (i : Nat) (present locked : Bool) : Reg32 := setBit (setBit v i present) (2 + i) locked

/-- FLT_STATUS with the state of one reference, beside REF_STATUS `r`. -/
def withRefOk (v r : Reg32) (i : Nat) (ok : Bool) : Reg32 := setBit (setBit v i ok) 4 (! bit r 0 && ! bit r 1)

theorem rget_setRef (present locked : Bool) (j : Nat) : (b.setRef i present locked).rget j =
    if j = FLT_STATUS then withRefOk (b.rget FLT_STATUS) (withRef (b.rget REF_STATUS) i present locked) i (present && locked)
    else if j = REF_STATUS then withRef (b.rget REF_STATUS) i present locked else b.rget j := by
  have h : REF_STATUS ≠ FLT_STATUS := by decide
  simp only [Body.setRef, Body.rbit, Body.rget_rsetBit, if_true, if_neg h, if_neg h.symm, withRefOk, withRef]
  by_cases h1 : j = FLT_STATUS
  · simp only [if_pos h1]
  · simp only [if_neg h1]
    by_cases h2 : j = REF_STATUS
    · simp only [if_pos h2]
    · simp only [if_neg h2]

theorem rget_usePll (j : Nat) : (b.usePll i).rget j =
    if j = FLT_STATUS then setFld (b.rget FLT_STATUS) 2 1 i else if j = REF_STATUS then setFld (b.rget REF_STATUS) 5 1 i else b.rget j := by
  have h : REF_STATUS ≠ FLT_STATUS := by decide
  simp only [Body.usePll, Body.rget_rsetFld, if_neg h]
  by_cases hj : j = REF_STATUS
  · simp only [hj, if_true, if_neg h]
  · simp only [if_neg hj]

theorem setRef_regs (present locked : Bool) : b.regsKept [FLT_STATUS, REF_STATUS] (b.setRef i present locked) := fun j hj => by
  simp only [List.mem_cons, List.not_mem_nil, or_false, not_or] at hj
  rw [rget_setRef, if_neg hj.1, if_neg hj.2]

theorem usePll_regs : b.regsKept [FLT_STATUS, REF_STATUS] (b.usePll i) := fun j hj => by
  simp only [List.mem_cons, List.not_mem_nil, or_false, not_or] at hj
  rw [rget_usePll, if_neg hj.1, if_neg hj.2]

theorem usePll_frame : b.usePll i = { b with regs := (b.usePll i).regs } := rfl

theorem rbit_usePll_flt {j : Nat} (hj : j < 32) : (b.usePll i).rbit FLT_STATUS j = if j = 2 then i.testBit 0 else b.rbit FLT_STATUS j := by
  rw [Body.rbit, rget_usePll, if_pos rfl, bit_setFld _ _ _ _ _ hj, Body.rbit]
  by_cases h : j = 2
  · subst h; simp
  · rw [if_neg (by omega), if_neg h]

theorem rbit_usePll_ref : (b.usePll i).rbit REF_STATUS 5 = i.testBit 0 := by
  rw [Body.rbit, rget_usePll, if_neg (by decide), if_pos rfl, bit_setFld _ _ _ _ _ (by omega)]
  simp

theorem rbit_setRef_flt (present locked : Bool) {j : Nat} (hj : j < 32) (h4 : j ≠ 4) :
    (b.setRef i present locked).rbit FLT_STATUS j = if j = i then present && locked else b.rbit FLT_STATUS j := by
  rw [Body.rbit, rget_setRef, if_pos rfl, withRefOk, bit_setBit_other _ _ hj h4, bit_setBit _ _ _ _ hj, Body.rbit]

theorem rbit_setRef_ref (present locked : Bool) {i : Nat} (hi : i < 2) :
    (b.setRef i present locked).rbit REF_STATUS i = present ∧ (b.setRef i present locked).rbit REF_STATUS (2 + i) = locked := by
  have h : (b.setRef i present locked).rget REF_STATUS = withRef (b.rget REF_STATUS) i present locked := by
    rw [rget_setRef, if_neg (by decide), if_pos rfl]
  rw [Body.rbit, Body.rbit, h, withRef]
  exact ⟨by rw [bit_setBit_other _ _ (by omega) (by omega), bit_setBit_same _ _ _ (by omega)], bit_setBit_same _ _ _ (by omega)⟩

/-- NO_REF does not show while a reference is present. -/
theorem rbit_setRef_noRef (locked : Bool) {i : Nat} (hi : i < 2) : (b.setRef i true locked).rbit FLT_STATUS 4 = false := by
  have hr : bit (withRef (b.rget REF_STATUS) i true locked) i = true := by
    rw [withRef, bit_setBit_other _ _ (by omega) (by omega), bit_setBit_same _ _ _ (by omega)]
  rw [Body.rbit, rget_setRef, if_pos rfl, withRefOk, bit_setBit_same _ _ _ (by omega)]
  obtain rfl | rfl : i = 0 ∨ i = 1 := by omega
  · simp [hr]
  · simp [hr]

theorem pllUsed_eq : b.pllUsed = if b.rbit FLT_STATUS 2 then 1 else 0 := fld_one _ _
theorem refPref_eq : b.refPref = if b.rbit FLT_CTL 0 then 1 else 0 := fld_one _ _
end

/-! ### A Tide break (R73) -/

section
variable (b : Body) (c : Clock)

theorem rget_stageInc (v : Reg32) (j : Nat) : (b.stageInc c v).rget j =
    if j = TIDE_STATUS then setBit (b.rget TIDE_STATUS) 4 true else if j = TIDE_INC then v else b.rget j := by
  have h : (b.stageInc c v).rget j = ((b.rset TIDE_INC v).rsetBit TIDE_STATUS 4 true).rget j := rfl
  rw [h, Body.rget_rsetBit, b.rget_rset_other (by decide), Body.rget_rset_ite]

theorem rget_startBreak (j : Nat) : (b.startBreak c).rget j =
    if j = TIDE_STATUS then setBit (setBit (b.rget TIDE_STATUS) 3 true) 4 true else if j = TIDE_INC then 0x01000000 else b.rget j := by
  rw [Body.startBreak, rget_stageInc, Body.rget_rsetBit, Body.rget_rsetBit, if_pos rfl]
  by_cases h : j = TIDE_STATUS
  · simp only [if_pos h]
  · simp only [if_neg h]

theorem stageInc_regs (v : Reg32) : b.regsKept [TIDE_STATUS, TIDE_INC] (b.stageInc c v) := fun j hj => by
  simp only [List.mem_cons, List.not_mem_nil, or_false, not_or] at hj
  rw [rget_stageInc, if_neg hj.1, if_neg hj.2]

theorem startBreak_regs : b.regsKept [TIDE_STATUS, TIDE_INC] (b.startBreak c) := fun j hj => by
  simp only [List.mem_cons, List.not_mem_nil, or_false, not_or] at hj
  rw [rget_startBreak, if_neg hj.1, if_neg hj.2]

/-- TIDE_BREAK set and the nominal increment staged. -/
theorem startBreak_shows : (b.startBreak c).rbit TIDE_STATUS 3 = true ∧ (b.startBreak c).rbit TIDE_STATUS 4 = true ∧
    (b.startBreak c).rget TIDE_INC = 0x01000000 := by
  have h : (b.startBreak c).rget TIDE_STATUS = setBit (setBit (b.rget TIDE_STATUS) 3 true) 4 true := by rw [rget_startBreak, if_pos rfl]
  refine ⟨?_, ?_, ?_⟩
  · rw [Body.rbit, h, bit_setBit_other _ _ (by omega) (by omega), bit_setBit_same _ _ _ (by omega)]
  · rw [Body.rbit, h, bit_setBit_same _ _ _ (by omega)]
  · rw [rget_startBreak, if_neg (by decide), if_pos rfl]
end

/-! ### REF_LOSS (R407, R408, R415) -/

section
variable (b : Body) (c : Clock) {i : Nat} (only : Bool)

/-- What a loss shows before the clock moves: the reference gone and the two not aligned. -/
def Body.refGone (i : Nat) : Body := (b.setRef i only false).rsetBit FLT_STATUS 3 false

theorem refGone_regs (i : Nat) : b.regsKept [FLT_STATUS, REF_STATUS] (b.refGone only i) :=
  (setRef_regs b i only false).rsetBit (by simp) _ _

theorem rbit_refGone {j : Nat} (hj : j < 32) (h4 : j ≠ 4) : (b.refGone only i).rbit FLT_STATUS j =
    if j = 3 then false else if j = i then false else b.rbit FLT_STATUS j := by
  rw [Body.refGone, Body.rbit, Body.rget_rsetBit, if_pos rfl, bit_setBit _ _ _ _ hj]
  by_cases h3 : j = 3
  · rw [if_pos h3, if_pos h3]
  · rw [if_neg h3, if_neg h3]
    exact (rbit_setRef_flt b i only false hj h4).trans (by rw [Bool.and_false])

theorem rbit_refGone_ref (hi : i < 2) : (b.refGone only i).rbit REF_STATUS i = only := by
  rw [Body.refGone, Body.rbit_rsetBit_other _ (by decide)]
  exact (rbit_setRef_ref b only false hi).1

/-- The body once the clock runs from the other reference, if it ran from the one lost. -/
def Body.refMoved (i : Nat) (used : Bool) : Body := if used then (b.refGone only i).usePll (1 - i) else b.refGone only i

/-- The same with a Tide break where the clock moved between references not aligned; no reversion waits. -/
def Body.refSwitched (i : Nat) (used aligned : Bool) : Body :=
  let u := if used && ! aligned then (b.refMoved only i used).startBreak c else b.refMoved only i used
  { u with flt := { u.flt with revert := false } }

theorem refLoss_absent (h : b.rbit FLT_STATUS i = false) : b.refLoss c i only = b.setRef i (b.rbit REF_STATUS i && only) false :=
  if_pos (by rw [Body.refOk, h]; rfl)

theorem refGone_other (hi : i < 2) : (b.refGone only i).refOk (1 - i) = b.rbit FLT_STATUS (1 - i) ∧
    (b.refGone only i).pllUsed = b.pllUsed := by
  refine ⟨?_, ?_⟩
  · rw [Body.refOk, rbit_refGone b only (j := 1 - i) (by omega) (by omega), if_neg (by omega), if_neg (by omega)]
  · have h : (b.refGone only i).rbit FLT_STATUS 2 = b.rbit FLT_STATUS 2 := by
      rw [rbit_refGone b only (j := 2) (by omega) (by omega), if_neg (by omega), if_neg (by omega)]
    rw [pllUsed_eq, pllUsed_eq, h]

theorem refLoss_switches (hi : i < 2) (h : b.rbit FLT_STATUS i = true) (ho : b.rbit FLT_STATUS (1 - i) = true) :
    let used := b.pllUsed == i
    let al := b.rbit FLT_STATUS 3
    b.refLoss c i only = (b.refSwitched c only i used al).fault c 0x01
      (i * 2 ^ 8 + (if used then 2 ^ 9 else 0) + (if al then 2 ^ 10 else 0)) (if used then c.now else 0) := by
  obtain ⟨h1, h2⟩ := refGone_other b only hi
  have he : b.refLoss c i only = _ := if_neg (by rw [Body.refOk, h]; decide)
  have hg : (b.setRef i only false).setAligned c false = b.refGone only i := rfl
  refine he.trans ?_
  simp only [hg, h1, ho, h2, if_true]
  rfl

theorem refLoss_last (hi : i < 2) (h : b.rbit FLT_STATUS i = true) (ho : b.rbit FLT_STATUS (1 - i) = false) :
    b.refLoss c i only = ((b.refGone only i).startBreak c).fault c 0x02 0 0 := by
  have he : b.refLoss c i only = _ := if_neg (by rw [Body.refOk, h]; decide)
  refine he.trans (if_neg ?_)
  have hg : (b.setRef i only false).setAligned c false = b.refGone only i := rfl
  rw [hg, (refGone_other b only hi).1, ho]
  decide
end

/-! ### REFERENCE_RETURN (R383, R385, R407, R408) -/

section
variable (b : Body) (c : Clock) (i : Nat) (aligned : Bool)

/-- What a return shows: the reference present and locked, and ALIGNED. -/
def Body.refBack : Body :=
  let u := b.setRef i true true
  u.setAligned c (aligned && u.refOk 0 && u.refOk 1)

theorem refReturn_eq : b.refReturn c i aligned =
    if (b.refBack c i aligned).rfld BOOT_STATUS 0 8 = 0x80 then ((b.refBack c i aligned).usePll i).rsetFld BOOT_STATUS 0 8 0
    else b.refBack c i aligned := rfl

theorem rget_setAligned (on : Bool) (j : Nat) : (b.setAligned c on).rget j =
    if j = FLT_STATUS then setBit (b.rget FLT_STATUS) 3 on else b.rget j := by
  have h : ∀ u : Body, (∀ j, u.rget j = b.rget j) → (u.rsetBit FLT_STATUS 3 on).rget j =
      if j = FLT_STATUS then setBit (b.rget FLT_STATUS) 3 on else b.rget j := fun u hu => by
    rw [Body.rget_rsetBit, hu, hu]
  unfold Body.setAligned
  dsimp only
  split
  · exact h _ fun _ => rfl
  · exact h _ fun _ => rfl

theorem refBack_regs : b.regsKept [FLT_STATUS, REF_STATUS] (b.refBack c i aligned) := fun j hj => by
  have h : j ≠ FLT_STATUS := by rintro rfl; simp at hj
  rw [Body.refBack, rget_setAligned, if_neg h]
  exact setRef_regs b i true true j hj

theorem rbit_refBack {i j : Nat} (hi : i < 2) (hj : j < 32) (h4 : j ≠ 4) : (b.refBack c i aligned).rbit FLT_STATUS j =
    if j = 3 then aligned && b.rbit FLT_STATUS (1 - i) else if j = i then true else b.rbit FLT_STATUS j := by
  have ha : ((b.setRef i true true).refOk 0 && (b.setRef i true true).refOk 1) = b.rbit FLT_STATUS (1 - i) := by
    rw [Body.refOk, Body.refOk, rbit_setRef_flt b i true true (by omega) (by omega), rbit_setRef_flt b i true true (by omega) (by omega)]
    obtain rfl | rfl : i = 0 ∨ i = 1 := by omega
    · simp
    · simp
  rw [Body.refBack, Body.rbit, rget_setAligned, if_pos rfl, bit_setBit _ _ _ _ hj, Bool.and_assoc, ha]
  by_cases h3 : j = 3
  · rw [if_pos h3, if_pos h3]
  · rw [if_neg h3, if_neg h3]
    exact rbit_setRef_flt b i true true hj h4

theorem rbit_refBack_noRef {i : Nat} (hi : i < 2) : (b.refBack c i aligned).rbit FLT_STATUS 4 = false := by
  rw [Body.refBack, Body.rbit, rget_setAligned, if_pos rfl, bit_setBit_other _ _ (by omega) (by omega)]
  exact rbit_setRef_noRef b true hi

theorem rget_refBack_ref : (b.refBack c i aligned).rget REF_STATUS = (b.setRef i true true).rget REF_STATUS := by
  rw [Body.refBack, rget_setAligned, if_neg (by decide)]

theorem refBack_boot : (b.refBack c i aligned).rget BOOT_STATUS = b.rget BOOT_STATUS := refBack_regs b c i aligned _ (by decide)
end

end Sys2Proof.Machine
end

section
/-! The commands of tiles, references and Harbour (R407 to R416). -/

namespace Sys2Proof.Machine

/-! ### A loss with a reference left, and without -/

section
variable (b : Body) (c : Clock) {i : Nat} (only used aligned : Bool)

/-- Registers a switch of the clock may change: those of the references, and in a break those of the increment. -/
def switchRegs (breaks : Bool) : List Nat := [FLT_STATUS, REF_STATUS] ++ if breaks then [TIDE_STATUS, TIDE_INC] else []

theorem refMoved_regs : b.regsKept [FLT_STATUS, REF_STATUS] (b.refMoved only i used) := by
  unfold Body.refMoved
  split
  · exact (refGone_regs b only i).trans (usePll_regs _ _)
  · exact refGone_regs b only i

theorem startBreak_frame (b : Body) : ∃ r x y, b.startBreak c = { b with regs := r, incAt := x, incOld := y } := ⟨_, _, _, rfl⟩
theorem refGone_frame (i : Nat) : ∃ r, b.refGone only i = { b with regs := r } := ⟨_, rfl⟩

theorem refMoved_frame : ∃ r, b.refMoved only i used = { b with regs := r } := by
  obtain ⟨r, hr⟩ := refGone_frame b only i
  unfold Body.refMoved
  split
  · exact ⟨_, by rw [usePll_frame, hr]⟩
  · exact ⟨r, hr⟩

theorem rget_refSwitched (j : Nat) : (b.refSwitched c only i used aligned).rget j =
    (if used && ! aligned then (b.refMoved only i used).startBreak c else b.refMoved only i used).rget j := rfl

theorem refSwitched_regs : b.regsKept (switchRegs (used && ! aligned)) (b.refSwitched c only i used aligned) := fun j hj => by
  have h := refMoved_regs b (i := i) only used
  rw [rget_refSwitched]
  cases hq : used && ! aligned <;> rw [hq] at hj <;>
    simp only [switchRegs, Bool.false_eq_true, if_false, if_true, List.append_nil, List.mem_append, not_or] at hj
  · exact h j hj
  · exact (startBreak_regs _ c j hj.2).trans (h j hj.1)

theorem refSwitched_host : (b.refSwitched c only i used aligned).host = b.host := by
  obtain ⟨r, hr⟩ := refMoved_frame b (i := i) only used
  unfold Body.refSwitched
  dsimp only
  rw [hr]
  split
  · obtain ⟨_, _, _, h⟩ := startBreak_frame c { b with regs := r }
    rw [h]
  · rfl

/-- A register apart from those of a Tide break. -/
theorem rget_refSwitched_ref {j : Nat} (h : j ∉ [TIDE_STATUS, TIDE_INC]) :
    (b.refSwitched c only i used aligned).rget j = (b.refMoved only i used).rget j := by
  rw [rget_refSwitched]
  split
  · exact startBreak_regs _ c j h
  · rfl

theorem rbit_refSwitched {j : Nat} (hj : j < 32) : (b.refSwitched c only i used aligned).rbit FLT_STATUS j =
    if j = 2 ∧ used then (1 - i).testBit 0 else (b.refGone only i).rbit FLT_STATUS j := by
  rw [Body.rbit, rget_refSwitched_ref _ _ _ _ _ (by decide), ← Body.rbit, Body.refMoved]
  cases used
  · simp only [Bool.false_eq_true, and_false, if_false]
  · simp only [and_true, if_true]
    exact rbit_usePll_flt _ _ hj

theorem rbit_refSwitched_ref (hu : used = true) : (b.refSwitched c only i used aligned).rbit REF_STATUS 5 = (1 - i).testBit 0 := by
  rw [Body.rbit, rget_refSwitched_ref _ _ _ _ _ (by decide), ← Body.rbit, Body.refMoved, if_pos hu]
  exact rbit_usePll_ref _ _

theorem refSwitched_breaks (h : (used && ! aligned) = true) :
    let u := b.refSwitched c only i used aligned
    u.rbit TIDE_STATUS 3 = true ∧ u.rbit TIDE_STATUS 4 = true ∧ u.rget TIDE_INC = 0x01000000 := by
  dsimp only
  rw [Body.rbit, Body.rbit, rget_refSwitched, rget_refSwitched, if_pos h, ← Body.rbit, ← Body.rbit]
  exact startBreak_shows _ c

theorem switchRegs_range (q : Bool) : ∀ k ∈ switchRegs q, k < 0x10000 ∨ 0x20000 ≤ k := by
  cases q <;> decide

theorem switchRegs_quiet {j : Nat} (hj : j ∉ [FLT_STATUS, REF_STATUS, FAULT_DROP]) : j ∉ FAULT_DROP :: switchRegs false := by
  simp only [List.mem_cons, List.not_mem_nil, or_false, not_or] at hj
  simp [switchRegs, hj]

/-- A loss with the other reference left (R407, R408, R415). -/
theorem refLoss_spare (hi : i < 2) (h : b.rbit FLT_STATUS i = true) (ho : b.rbit FLT_STATUS (1 - i) = true) (hu : (b.pllUsed == i) = used)
    (ha : b.rbit FLT_STATUS 3 = aligned) :
    let u := b.refLoss c i only
    b.regsKept (FAULT_DROP :: switchRegs (used && ! aligned)) u ∧
    (∀ j, j < 32 → j ≠ 4 → u.rbit FLT_STATUS j =
      if j = 2 ∧ used then (1 - i).testBit 0 else if j = 3 then false else if j = i then false else b.rbit FLT_STATUS j) ∧
    (used = true → u.rbit REF_STATUS 5 = (1 - i).testBit 0) ∧
    ((used && ! aligned) = true → u.rbit TIDE_STATUS 3 = true ∧ u.rbit TIDE_STATUS 4 = true ∧ u.rget TIDE_INC = 0x01000000) ∧
    u.flt.revert = false ∧
    (b.faultRingOk = true → (b.hring (b.rfld HST_CTL 8 8)).recs = [] → (u.hring (b.rfld HST_CTL 8 8)).recs =
      [⟨0x81, 0, 0, 0, BitVec.ofNat 32 (0x01 + (i * 2 ^ 8 + (if used then 2 ^ 9 else 0) + (if aligned then 2 ^ 10 else 0))),
        BitVec.ofNat 64 (if used then c.now else 0), c.tt.extractLsb' 32 64, false, none, none⟩]) := by
  have he := refLoss_switches b c only hi h ho
  rw [hu, ha] at he
  have hr := refSwitched_regs b c (i := i) only used aligned
  rw [he]
  refine ⟨fun j hj => ?_, fun j hj h4 => ?_, fun hU => ?_, fun hB => ?_, ?_, fun hok hrec => ?_⟩
  · simp only [List.mem_cons, not_or] at hj
    rw [rget_fault _ _ _ _ _ _ hj.1, hr j hj.2]
  · rw [rbit_fault _ _ _ _ _ (by decide), rbit_refSwitched b c only used aligned hj, rbit_refGone b only hj h4]
  · rw [rbit_fault _ _ _ _ _ (by decide), rbit_refSwitched_ref b c only used aligned hU]
  · rw [rbit_fault _ _ _ _ _ (by decide), rbit_fault _ _ _ _ _ (by decide), rget_fault _ _ _ _ _ _ (by decide)]
    exact refSwitched_breaks b c only used aligned hB
  · rw [fault_flt]; rfl
  · exact fault_first hr (refSwitched_host b c only used aligned) (switchRegs_range _) c _ _ _ hok hrec

/-- A loss with no reference left: the clock holds over (R408, R415). -/
theorem refLoss_holdover (hi : i < 2) (h : b.rbit FLT_STATUS i = true) (ho : b.rbit FLT_STATUS (1 - i) = false) :
    let u := b.refLoss c i only
    u.rbit FLT_STATUS i = false ∧ u.rbit REF_STATUS i = only ∧ u.rbit TIDE_STATUS 3 = true ∧ u.rget TIDE_INC = 0x01000000 ∧
    (b.faultRingOk = true → (b.hring (b.rfld HST_CTL 8 8)).recs = [] → (u.hring (b.rfld HST_CTL 8 8)).recs =
      [⟨0x81, 0, 0, 0, 2, 0, c.tt.extractLsb' 32 64, false, none, none⟩]) := by
  have hk := startBreak_regs (b.refGone only i) c
  obtain ⟨h3, _, hinc⟩ := startBreak_shows (b.refGone only i) c
  rw [refLoss_last b c only hi h ho]
  refine ⟨?_, ?_, ?_, ?_, fun hok hrec => ?_⟩
  · rw [rbit_fault _ _ _ _ _ (by decide), hk.rbit (by decide), rbit_refGone b only (by omega) (by omega), if_pos rfl, ite_self]
  · rw [rbit_fault _ _ _ _ _ (by decide), hk.rbit (by decide), rbit_refGone_ref b only hi]
  · rw [rbit_fault _ _ _ _ _ (by decide), h3]
  · rw [rget_fault _ _ _ _ _ _ (by decide), hinc]
  · have hks : b.regsKept ([FLT_STATUS, REF_STATUS] ++ [TIDE_STATUS, TIDE_INC]) ((b.refGone only i).startBreak c) :=
      ((refGone_regs b only i).mono (by simp)).trans (hk.mono (by simp))
    exact fault_first hks rfl (by decide) c 2 0 0 hok hrec
end

/-! ### REF_LOSS and REF_REVERT as commands -/

section
variable {s : State} {ref only : Bool}

/-- The number of a reference: 0 A, 1 B (R416). -/
def refNo (ref : Bool) : Nat := if ref then 1 else 0

theorem refNo_lt (ref : Bool) : refNo ref < 2 := by cases ref <;> decide
theorem testBit_refNo (ref : Bool) : (refNo ref).testBit 0 = ref := by cases ref <;> rfl
theorem testBit_otherRef (ref : Bool) : (1 - refNo ref).testBit 0 = ! ref := by cases ref <;> rfl

theorem pllUsed_iff (b : Body) (ref : Bool) : (b.pllUsed == refNo ref) = (b.rbit FLT_STATUS 2 == ref) := by
  rw [pllUsed_eq]
  cases b.rbit FLT_STATUS 2 <;> cases ref <;> rfl

theorem exec_refLoss (hon : s.clock.on = true) :
    exec (.refLoss ref only) s = .next { s with body := s.body.refLoss s.clock (refNo ref) only } := nextBody_on hon _

theorem exec_refLoss_unused (hon : s.clock.on = true) (h : s.body.rbit FLT_STATUS (refNo ref) = true)
    (ho : s.body.rbit FLT_STATUS (1 - refNo ref) = true) (hu : ¬ s.body.rbit FLT_STATUS 2 = ref) :
    let b := s.body
    ∃ t, exec (.refLoss ref only) s = .next t ∧ onlyBody s t ∧
      regsBut [FLT_STATUS, REF_STATUS, FAULT_DROP] s t ∧ t.body.rbit FLT_STATUS (refNo ref) = false ∧ t.body.rbit FLT_STATUS (1 - refNo ref) = true ∧
      t.body.rbit FLT_STATUS 3 = false ∧ t.body.rbit FLT_STATUS 2 = b.rbit FLT_STATUS 2 ∧ t.body.flt.revert = false ∧
      (b.faultRingOk = true → (b.hring (b.rfld HST_CTL 8 8)).recs = [] → (t.body.hring (b.rfld HST_CTL 8 8)).recs =
        [⟨0x81, 0, 0, 0, BitVec.ofNat 32 (1 + refNo ref * 2 ^ 8 + if b.rbit FLT_STATUS 3 = true then 2 ^ 10 else 0), 0,
          s.clock.tt.extractLsb' 32 64, false, none, none⟩]) := by
  have hused : (s.body.pllUsed == refNo ref) = false := (pllUsed_iff _ _).trans (beq_false_of_ne hu)
  have hi := refNo_lt ref
  obtain ⟨hr, hb, _, _, hrev, hsent⟩ := refLoss_spare s.body s.clock only false _ hi h ho hused rfl
  refine ⟨_, exec_refLoss hon, rfl, fun j hj => hr j ?_, ?_, ?_, ?_, ?_, hrev, fun hok hrec => (hsent hok hrec).trans ?_⟩
  · exact switchRegs_quiet hj
  · simpa using hb (refNo ref) (by omega) (by omega)
  · have hne : 1 - refNo ref ≠ 3 ∧ 1 - refNo ref ≠ refNo ref := by omega
    simpa [hne, ho] using hb (1 - refNo ref) (by omega) (by omega)
  · simpa using hb 3 (by omega) (by omega)
  · have hne : 2 ≠ refNo ref := by omega
    simpa [hne] using hb 2 (by omega) (by omega)
  · simp [← Nat.add_assoc]

theorem exec_refLoss_used (hon : s.clock.on = true) (h : s.body.rbit FLT_STATUS (refNo ref) = true)
    (ho : s.body.rbit FLT_STATUS (1 - refNo ref) = true) (hu : s.body.rbit FLT_STATUS 2 = ref) (ha : s.body.rbit FLT_STATUS 3 = true) :
    let b := s.body
    ∃ t, exec (.refLoss ref only) s = .next t ∧ onlyBody s t ∧
      regsBut [FLT_STATUS, REF_STATUS, FAULT_DROP] s t ∧ t.body.rbit FLT_STATUS 2 = (! ref) ∧ t.body.rbit REF_STATUS 5 = (! ref) ∧
      (b.faultRingOk = true → (b.hring (b.rfld HST_CTL 8 8)).recs = [] → (t.body.hring (b.rfld HST_CTL 8 8)).recs =
        [⟨0x81, 0, 0, 0, BitVec.ofNat 32 (1 + refNo ref * 2 ^ 8 + 0x600), s.clock.tt.extractLsb' 32 64, s.clock.tt.extractLsb' 32 64,
          false, none, none⟩]) := by
  have hused : (s.body.pllUsed == refNo ref) = true := (pllUsed_iff _ _).trans (by rw [hu, beq_self_eq_true])
  obtain ⟨hr, hb, h5, _, _, hsent⟩ := refLoss_spare s.body s.clock only true true (refNo_lt ref) h ho hused ha
  refine ⟨_, exec_refLoss hon, rfl, fun j hj => hr j ?_, ?_, ?_, fun hok hrec => (hsent hok hrec).trans ?_⟩
  · exact switchRegs_quiet hj
  · exact (hb 2 (by omega) (by omega)).trans (testBit_otherRef ref)
  · exact (h5 rfl).trans (testBit_otherRef ref)
  · have hd : 0x01 + (refNo ref * 2 ^ 8 + 2 ^ 9 + 2 ^ 10) = 1 + refNo ref * 2 ^ 8 + 0x600 := by omega
    simp only [if_true, hd, now_eq_extract]

theorem exec_refLoss_breaks (hon : s.clock.on = true) (h : s.body.rbit FLT_STATUS (refNo ref) = true)
    (ho : s.body.rbit FLT_STATUS (1 - refNo ref) = true) (hu : s.body.rbit FLT_STATUS 2 = ref) (ha : ¬ s.body.rbit FLT_STATUS 3 = true) :
    ∃ t, exec (.refLoss ref only) s = .next t ∧ onlyBody s t ∧
      regsBut [FLT_STATUS, REF_STATUS, FAULT_DROP, TIDE_STATUS, TIDE_INC] s t ∧ t.body.rbit FLT_STATUS 2 = (! ref) ∧
      t.body.rbit TIDE_STATUS 3 = true ∧ t.body.rbit TIDE_STATUS 4 = true ∧ t.body.rget TIDE_INC = 0x01000000 := by
  have hused : (s.body.pllUsed == refNo ref) = true := (pllUsed_iff _ _).trans (by rw [hu, beq_self_eq_true])
  obtain ⟨hr, hb, _, hbr, _, _⟩ := refLoss_spare s.body s.clock only true false (refNo_lt ref) h ho hused (by simpa using ha)
  refine ⟨_, exec_refLoss hon, rfl, fun j hj => hr j ?_, (hb 2 (by omega) (by omega)).trans (testBit_otherRef ref), hbr rfl⟩
  simp only [List.mem_cons, List.not_mem_nil, or_false, not_or] at hj
  obtain ⟨h1, h2, h3, h4, h5⟩ := hj
  simp [switchRegs, h1, h2, h3, h4, h5]

theorem exec_refLoss_last (hon : s.clock.on = true) (h : s.body.rbit FLT_STATUS (refNo ref) = true)
    (ho : ¬ s.body.rbit FLT_STATUS (1 - refNo ref) = true) :
    let b := s.body
    ∃ t, exec (.refLoss ref only) s = .next t ∧ onlyBody s t ∧ t.body.rbit FLT_STATUS (refNo ref) = false ∧
      t.body.rbit REF_STATUS (refNo ref) = only ∧ t.body.rbit TIDE_STATUS 3 = true ∧ t.body.rget TIDE_INC = 0x01000000 ∧
      (b.faultRingOk = true → (b.hring (b.rfld HST_CTL 8 8)).recs = [] → (t.body.hring (b.rfld HST_CTL 8 8)).recs =
        [⟨0x81, 0, 0, 0, 2, 0, s.clock.tt.extractLsb' 32 64, false, none, none⟩]) :=
  ⟨_, exec_refLoss hon, rfl, refLoss_holdover s.body s.clock only (refNo_lt ref) h (by simpa using ho)⟩

theorem exec_refLoss_absent (hon : s.clock.on = true) (h : ¬ s.body.rbit FLT_STATUS (refNo ref) = true) :
    let b := s.body
    ∃ t, exec (.refLoss ref only) s = .next t ∧ t = { s with body := { b with regs := t.body.regs } } ∧
      regsBut [FLT_STATUS, REF_STATUS] s t ∧ t.body.rbit REF_STATUS (refNo ref) = (b.rbit REF_STATUS (refNo ref) && only) ∧
      t.body.rbit REF_STATUS (2 + refNo ref) = false := by
  have he := refLoss_absent s.body s.clock only (i := refNo ref) (by simpa using h)
  have hn := exec_refLoss (ref := ref) (only := only) hon
  rw [he] at hn
  exact ⟨_, hn, rfl, setRef_regs s.body _ _ _, rbit_setRef_ref s.body _ false (refNo_lt ref)⟩

/-- Reversion is due: REVERT, the clock not on the preferred reference, that one present, and ALIGNED for 1,000,000 cc (R408). -/
theorem revertDue_iff (b : Body) (c : Clock) : b.revertDue c = true ↔
    b.rbit FLT_CTL 1 = true ∧ b.rbit FLT_STATUS 2 ≠ b.rbit FLT_CTL 0 ∧ b.rbit FLT_STATUS (if b.rbit FLT_CTL 0 then 1 else 0) = true ∧
    b.rbit FLT_STATUS 3 = true ∧ b.flt.aligned + 1000000 ≤ c.cyc := by
  have h : (b.pllUsed != b.refPref) = true ↔ b.rbit FLT_STATUS 2 ≠ b.rbit FLT_CTL 0 := by
    rw [pllUsed_eq, refPref_eq]
    cases b.rbit FLT_STATUS 2 <;> cases b.rbit FLT_CTL 0 <;> decide
  simp only [Body.revertDue, Bool.and_eq_true, h, Body.refOk, decide_eq_true_eq, and_assoc]
  rw [refPref_eq]

theorem exec_refRevert_early (h : ¬ s.body.revertDue s.clock = true) : exec .refRevert s = .next s :=
  nextBody_fixed (f := fun c b => b.refRevert c) (if_pos (by simpa using h))

theorem exec_refRevert_grid (h : s.body.revertDue s.clock = true) (hg : s.body.gridRun = true) :
    exec .refRevert s = .next { s with body := { s.body with flt := { s.body.flt with revert := true } } } := by
  have he : s.body.refRevert s.clock = { s.body with flt := { s.body.flt with revert := true } } := by simp [Body.refRevert, h, hg]
  exact nextBody_to (f := fun c b => b.refRevert c) he

theorem exec_refRevert_stopped (h : s.body.revertDue s.clock = true) (hg : s.body.gridRun = false) :
    ∃ t, exec .refRevert s = .next t ∧ onlyRegs s t ∧ regsBut [FLT_STATUS, REF_STATUS] s t ∧
      t.body.rbit FLT_STATUS 2 = s.body.rbit FLT_CTL 0 ∧ t.body.rbit REF_STATUS 5 = s.body.rbit FLT_CTL 0 := by
  have he : s.body.refRevert s.clock = s.body.usePll (refNo (s.body.rbit FLT_CTL 0)) := by
    have hp : s.body.refPref = refNo (s.body.rbit FLT_CTL 0) := refPref_eq _
    simp [Body.refRevert, h, hg, hp]
  refine ⟨_, nextBody_to (f := fun c b => b.refRevert c) he, rfl, usePll_regs s.body _, ?_, ?_⟩
  · exact (rbit_usePll_flt s.body _ (by omega)).trans (testBit_refNo _)
  · exact (rbit_usePll_ref s.body _).trans (testBit_refNo _)
end

/-! ### REFERENCE_RETURN as a command -/

section
variable (b : Body) (c : Clock) (ref al : Bool)

theorem refReturn_regs (i : Nat) : b.regsKept [FLT_STATUS, REF_STATUS, BOOT_STATUS] (b.refReturn c i al) := by
  have h := (refBack_regs b c i al).mono (ls := [FLT_STATUS, REF_STATUS, BOOT_STATUS]) (by simp)
  rw [refReturn_eq]
  split
  · exact (h.trans ((usePll_regs _ i).mono (by simp))).rsetFld (by simp) _ _ _
  · exact h

theorem rbit_refReturn {i j : Nat} (hj : j < 32) (h2 : j ≠ 2) : (b.refReturn c i al).rbit FLT_STATUS j = (b.refBack c i al).rbit FLT_STATUS j := by
  rw [refReturn_eq]
  split
  · rw [Body.rbit, Body.rget_rsetFld, if_neg (by decide)]
    exact (rbit_usePll_flt _ i hj).trans (if_neg h2)
  · rfl

theorem rbit_refReturn_ref {i j : Nat} (hj : j < 4) : (b.refReturn c i al).rbit REF_STATUS j = (b.setRef i true true).rbit REF_STATUS j := by
  have h : (b.refBack c i al).rbit REF_STATUS j = (b.setRef i true true).rbit REF_STATUS j := by
    rw [Body.rbit, rget_refBack_ref, Body.rbit]
  rw [refReturn_eq]
  split
  · rw [← h, Body.rbit, Body.rget_rsetFld, if_neg (by decide), rget_usePll, if_neg (by decide), if_pos rfl,
      bit_setFld_other _ _ _ _ (by omega) (by omega), Body.rbit]
  · exact h

/-- A ROM that waits in NO_REF goes on from the reference that has come back (R383, R385). -/
theorem refReturn_waiting {i : Nat} (h : b.rfld BOOT_STATUS 0 8 = 0x80) :
    (b.refReturn c i al).rfld BOOT_STATUS 0 8 = 0 ∧ (b.refReturn c i al).rbit FLT_STATUS 2 = i.testBit 0 := by
  have hb : (b.refBack c i al).rfld BOOT_STATUS 0 8 = 0x80 := by rw [Body.rfld, refBack_boot]; exact h
  rw [refReturn_eq, if_pos hb]
  refine ⟨?_, ?_⟩
  · rw [Body.rfld, Body.rget_rsetFld, if_pos rfl, fld_setFld_same _ _ _ _ (by omega), Nat.zero_mod]
  · rw [Body.rbit, Body.rget_rsetFld, if_neg (by decide)]
    exact rbit_usePll_flt _ i (by omega)

theorem refReturn_running {i : Nat} (hi : i < 2) (h : b.rfld BOOT_STATUS 0 8 ≠ 0x80) :
    (b.refReturn c i al).rget BOOT_STATUS = b.rget BOOT_STATUS ∧ (b.refReturn c i al).rbit FLT_STATUS 2 = b.rbit FLT_STATUS 2 := by
  have hb : ¬ (b.refBack c i al).rfld BOOT_STATUS 0 8 = 0x80 := by rw [Body.rfld, refBack_boot]; exact h
  rw [refReturn_eq, if_neg hb]
  exact ⟨refBack_boot b c i al, (rbit_refBack b c al hi (j := 2) (by omega) (by omega)).trans (by rw [if_neg (by omega), if_neg (by omega)])⟩

theorem exec_referenceReturn {s : State} (hon : s.clock.on = true) :
    let b := s.body
    let i := refNo ref
    ∃ t, exec (.referenceReturn ref al) s = .next t ∧ onlyBody s t ∧ regsBut [FLT_STATUS, REF_STATUS, BOOT_STATUS] s t ∧
      t.body.rbit FLT_STATUS i = true ∧ t.body.rbit FLT_STATUS (1 - i) = b.rbit FLT_STATUS (1 - i) ∧ t.body.rbit FLT_STATUS 4 = false ∧
      (t.body.rbit FLT_STATUS 3 = true ↔ al = true ∧ b.rbit FLT_STATUS (1 - i) = true) ∧ t.body.rbit REF_STATUS i = true ∧
      t.body.rbit REF_STATUS (2 + i) = true ∧
      (b.rfld BOOT_STATUS 0 8 = 0x80 → t.body.rfld BOOT_STATUS 0 8 = 0 ∧ t.body.rbit FLT_STATUS 2 = ref) ∧
      (b.rfld BOOT_STATUS 0 8 ≠ 0x80 → t.body.rget BOOT_STATUS = b.rget BOOT_STATUS ∧ t.body.rbit FLT_STATUS 2 = b.rbit FLT_STATUS 2) := by
  have hi := refNo_lt ref
  have hb : ∀ j, j < 32 → j ≠ 2 → j ≠ 4 → (s.body.refReturn s.clock (refNo ref) al).rbit FLT_STATUS j = _ := fun j hj h2 h4 =>
    (rbit_refReturn s.body s.clock al hj h2).trans (rbit_refBack s.body s.clock al hi hj h4)
  obtain ⟨r1, r2⟩ := rbit_setRef_ref s.body true true hi
  refine ⟨_, nextBody_on hon fun c b => b.refReturn c (refNo ref) al, rfl, refReturn_regs s.body s.clock al _, ?_, ?_, ?_, ?_, ?_, ?_,
    fun h => ?_, refReturn_running s.body s.clock al hi⟩
  · have hne : refNo ref ≠ 3 := by omega
    simpa [hne] using hb (refNo ref) (by omega) (by omega) (by omega)
  · have hne : 1 - refNo ref ≠ 3 ∧ 1 - refNo ref ≠ refNo ref := by omega
    simpa [hne] using hb (1 - refNo ref) (by omega) (by omega) (by omega)
  · exact (rbit_refReturn s.body s.clock al (by omega) (by omega)).trans (rbit_refBack_noRef s.body s.clock al hi)
  · rw [hb 3 (by omega) (by omega) (by omega), if_pos rfl, Bool.and_eq_true]
  · exact (rbit_refReturn_ref s.body s.clock al (by omega)).trans r1
  · exact (rbit_refReturn_ref s.body s.clock al (by omega)).trans r2
  · obtain ⟨h1, h2⟩ := refReturn_waiting s.body s.clock al (i := refNo ref) h
    exact ⟨h1, h2.trans (testBit_refNo ref)⟩
end

/-! ### HARBOUR_FAIL (R412) -/

section
variable {s : State}

theorem exec_harbourFail (h : s.body.rbit FLT_STATUS 5 = true) :
    let b := s.body
    ∃ t, exec .harbourFail s = .next t ∧ onlyBody s t ∧ t.body.rbit FLT_STATUS 5 = false ∧ t.body.rbit THM_STATUS 3 = true ∧
      regsBut ([FLT_STATUS, FAULT_DROP, THM_STATUS] ++ (List.range 24).map TEMP) s t ∧
      (b.faultRingOk = true → (b.hring (b.rfld HST_CTL 8 8)).recs = [] → (t.body.hring (b.rfld HST_CTL 8 8)).recs =
        [⟨0x81, 0, 0, 0, 0x11, 0, s.clock.tt.extractLsb' 32 64, false, none, none⟩]) := by
  let u := s.body.rsetBit FLT_STATUS 5 false
  let v := u.fault s.clock 0x11 0 0
  have hu : s.body.regsKept [FLT_STATUS] u := (Body.regsKept.refl _ _).rsetBit (by simp) _ _
  have hv : s.body.regsKept [FLT_STATUS, FAULT_DROP] v := (hu.mono (by simp)).fault (by simp) _ _ _ _
  have hw : v.regsKept (THM_STATUS :: (List.range 24).map TEMP) v.setFallback ∧ v.setFallback.host = v.host ∧
      v.setFallback.rbit THM_STATUS 3 = true := by
    cases hf : v.rbit THM_STATUS 3
    · refine ⟨setFallback_regs v hf, ?_, setFallback_status v hf (.inl rfl)⟩
      obtain ⟨r, hr⟩ := invalidated_frame v.fallbackNoted (List.range 24)
      rw [setFallback_eq v hf, hr]; rfl
    · rw [setFallback_set v hf]
      exact ⟨.refl _ v, rfl, hf⟩
  obtain ⟨hk, hh, h3⟩ := hw
  have hn : FLT_STATUS ∉ THM_STATUS :: (List.range 24).map TEMP := by
    rw [List.mem_cons, not_or]
    exact ⟨by decide, TEMP_range_not_mem fun i _ => by unfold FLT_STATUS TEMP; omega⟩
  have he : s.body.harbourFail s.clock = v.setFallback := if_pos h
  refine ⟨_, nextBody_to (f := fun c b => b.harbourFail c) he, rfl, ?_, h3, ?_, fun hok hr => ?_⟩
  · refine (hk.rbit hn 5).trans ?_
    rw [rbit_fault _ _ _ _ _ (by decide)]
    exact s.body.rbit_rsetBit_same _ _ _ (by omega)
  · refine (hv.mono ?_).trans (hk.mono ?_)
    · exact fun x hx => List.mem_append.2 (.inl (by simp only [List.mem_cons, List.not_mem_nil, or_false] at hx ⊢; tauto))
    · exact fun x hx => List.mem_append.2 ((List.mem_cons.1 hx).imp (fun e => by simp [e]) id)
  · have hr2 : v.setFallback.hring (s.body.rfld HST_CTL 8 8) = v.hring (s.body.rfld HST_CTL 8 8) := by rw [Body.hring, hh, ← Body.hring]
    show (v.setFallback.hring _).recs = _
    rw [hr2]
    exact fault_first hu rfl (by decide) s.clock 0x11 0 0 hok hr
end

/-- Settles O60, command by command: what a failure, a loss, a return and a silent Harbour make of the body. -/
theorem tileReferenceAndHarbourFaults : Obligations.TileReferenceAndHarbourFaults := by
  intro k link frame rail ref only al clk errTt errs s
  let T : TileTests := ⟨link, frame, clk, rail, errTt, errs⟩
  have hcause : (BitVec.ofBool rail ++ BitVec.ofBool (clk != 0) ++ BitVec.ofBool frame ++ BitVec.ofBool link).toNat = T.cause := cause_toNat T
  have hzero : BitVec.ofBool rail ++ BitVec.ofBool (clk != 0) ++ BitVec.ofBool frame ++ BitVec.ofBool link = (0 : BitVec 4) ↔ T.cause = 0 := by
    rw [← hcause, ← BitVec.toNat_inj]; rfl
  have hrev := revertDue_iff s.body s.clock
  refine ⟨fun hon hf hc hruns => ?_, fun hf hr => exec_tileFail_same hr (.inr (.inl hf)), fun hon hf hr => exec_tileFail_rail hon hf hr,
    fun h => ?_, exec_refLoss_unused, exec_refLoss_used, exec_refLoss_breaks, exec_refLoss_last, exec_refLoss_absent, fun h => nextBody_off h _,
    fun h => exec_refRevert_early (mt hrev.1 h), fun h => exec_refRevert_grid (hrev.2 h), fun h => exec_refRevert_stopped (hrev.2 h),
    exec_referenceReturn ref al, fun h => nextBody_off h _, exec_harbourFail, fun h => nextBody_fixed (f := fun c b => b.harbourFail c) (if_neg h)⟩
  · dsimp only
    rw [hcause]
    exact exec_tileFail_fails hon (by simpa using hf) hruns (mt hzero.2 hc)
  · rcases h with h | h
    · exact nextBody_off h _
    · have hT := hzero.1 h
      refine exec_tileFail_same ?_ (.inr (.inr hT))
      by_contra hr
      rw [Bool.not_eq_false] at hr
      subst hr
      simp [T, TileTests.cause] at hT
end Sys2Proof.Machine
end

section
/-! What tending the ring changes (R56, R72 to R82): RING_STATUS bit by bit, the registers, and the frames that wait. -/

namespace Sys2Proof.Machine

/-! ### RING_STATUS bit by bit -/

theorem fld_of_bits {v w : Reg32} {lo len : Nat} (h : ∀ i, lo ≤ i → i < lo + len → bit v i = bit w i) :
    fld v lo len = fld w lo len := by
  apply Nat.eq_of_testBit_eq
  intro i
  rw [fld, testBit_bitsAt, fld, testBit_bitsAt]
  by_cases hi : i < len
  · have := h (lo + i) (by omega) (by omega)
    rw [bit, bit, BitVec.getLsbD, BitVec.getLsbD] at this
    rw [this]
  · simp [hi]

theorem extract_eq_of_fld {w lo len : Nat} {v : BitVec w} {x : BitVec len} (h : fld v lo len = x.toNat) : v.extractLsb' lo len = x :=
  BitVec.eq_of_toNat_eq ((fld_eq_extract v lo len).symm.trans h)

/-- Registers but those of `ks`, bits of RING_STATUS but those of `is`, and the ring but the frames that wait, SEQ, the STATUS last sent and the
round trips counted anew are as they were; those counts are, or both are zero. -/
structure Body.tended (ks is : List Nat) (b u : Body) : Prop where
  regs : b.regsKept ks u
  bits : ∀ i, i < 32 → i ∉ is → u.rbit RING_STATUS i = b.rbit RING_STATUS i
  ring : ∃ ta tb sq nu nd ls, u.ring = { b.ring with txA := ta, txB := tb, seq := sq, newUp := nu, newDn := nd, lastStatus := ls } ∧
    ((nu = b.ring.newUp ∧ nd = b.ring.newDn) ∨ (nu = 0 ∧ nd = 0))

section
variable {ks ls is js : List Nat} {b u w : Body}

theorem Body.tended.refl (ks is : List Nat) (b : Body) : b.tended ks is b :=
  ⟨.refl _ b, fun _ _ _ => rfl, _, _, _, _, _, _, rfl, .inl ⟨rfl, rfl⟩⟩

theorem Body.tended.trans (h : b.tended ks is u) (k : u.tended ls js w) : b.tended (ks ++ ls) (is ++ js) w := by
  refine ⟨(h.regs.mono (List.subset_append_left _ _)).trans (k.regs.mono (List.subset_append_right _ _)), fun i hi hn => ?_, ?_⟩
  · rw [List.mem_append, not_or] at hn
    exact (k.bits i hi hn.2).trans (h.bits i hi hn.1)
  · obtain ⟨_, _, _, nu, nd, _, hr, ht⟩ := h.ring
    obtain ⟨ta, tb, sq, mu, md, st, kr, kt⟩ := k.ring
    refine ⟨ta, tb, sq, mu, md, st, by rw [kr, hr], ?_⟩
    rw [hr] at kt
    rcases kt with ⟨rfl, rfl⟩ | kt
    · exact ht
    · exact .inr kt

theorem Body.tended.mono (h : b.tended ks is u) (hk : ks ⊆ ls) (hi : is ⊆ js) : b.tended ls js u :=
  ⟨h.regs.mono hk, fun i h32 hn => h.bits i h32 fun hm => hn (hi hm), h.ring⟩

theorem Body.tended.fld (h : b.tended ks is u) {lo len : Nat} (h32 : lo + len ≤ 32) (hi : ∀ i ∈ is, i < lo ∨ lo + len ≤ i) :
    u.rfld RING_STATUS lo len = b.rfld RING_STATUS lo len :=
  fld_of_bits fun i h1 h2 => h.bits i (by omega) fun hm => by have := hi i hm; omega

/-- Other registers have changed, and not the ring. -/
theorem Body.tended.of_regs (h : b.regsKept ks u) (hs : RING_STATUS ∉ ks) (hr : u.ring = b.ring) : b.tended ks is u :=
  ⟨h, fun i _ _ => h.rbit hs i, _, _, _, _, _, _, hr, .inl ⟨rfl, rfl⟩⟩

/-- One bit of RING_STATUS. -/
theorem Body.tended.setsBit (b : Body) (i : Nat) (on : Bool) : b.tended [RING_STATUS] [i] (b.rsetBit RING_STATUS i on) := by
  refine ⟨(Body.regsKept.refl _ b).rsetBit (List.mem_singleton_self _) _ _, fun j hj hn => ?_, _, _, _, _, _, _, b.rsetBit_ring _ _ _, .inl ⟨rfl, rfl⟩⟩
  rw [Body.rbit, Body.rget_rsetBit, if_pos rfl, bit_setBit_other _ _ hj (by simpa using hn), Body.rbit]

theorem Body.tended.sticks (b : Body) (i : Nat) : b.tended [RING_STATUS] [i] (b.stick RING_STATUS i) := by
  refine ⟨(Body.regsKept.refl _ b).stick (List.mem_singleton_self _) _, fun j hj hn => ?_, _, _, _, _, _, _, b.stick_ring _ _, .inl ⟨rfl, rfl⟩⟩
  rw [Body.rbit, Body.rget_stick, if_pos rfl, bit_setBit_other _ _ hj (by simpa using hn), Body.rbit]

theorem Body.tended.ite {p : Prop} [Decidable p] (h : b.tended ks is u) (k : b.tended ks is w) : b.tended ks is (if p then u else w) := by
  split
  · exact h
  · exact k

theorem Body.tended.foldl {α : Type} {f : Body → α → Body} {l : List α} (hf : ∀ (b : Body) (x : α), b.tended [] [] (f b x)) (b : Body) :
    b.tended [] [] (l.foldl f b) := by
  induction l generalizing b with
  | nil => exact .refl _ _ b
  | cons x t ih => exact (hf b x).trans (ih _)
end

/-! ### Ring flags, breaks, suspicion -/

section
variable (b : Body) (c : Clock)

theorem fault_ring (code d0 d1 : Nat) : (b.fault c code d0 d1).ring = b.ring := by
  obtain ⟨_, _, _, _, _, h⟩ := fault_thermalFrame b c code d0 d1
  rw [h]

theorem fault_tended (code d0 d1 : Nat) : b.tended [FAULT_DROP] [] (b.fault c code d0 d1) :=
  .of_regs ((Body.regsKept.refl _ b).fault (List.mem_singleton_self _) c code d0 d1) (by decide) (fault_ring b c code d0 d1)

/-- A flag of RING_STATUS, with its record when it sets (R85). -/
theorem ringFlag_cases (i : Nat) : b.ringFlag c i = b.stick RING_STATUS i ∨
    ∃ d1, b.ringFlag c i = (b.stick RING_STATUS i).fault c 0x0A (i * 2 ^ 8) d1 := by
  unfold Body.ringFlag
  dsimp only
  split
  · exact .inl rfl
  · exact .inr ⟨_, rfl⟩

theorem ringFlag_tended (i : Nat) : b.tended [RING_STATUS, FAULT_DROP] [i] (b.ringFlag c i) := by
  rcases ringFlag_cases b c i with h | ⟨d1, h⟩
  · rw [h]; exact (Body.tended.sticks b i).mono (by simp) (by simp)
  · rw [h]; exact (Body.tended.sticks b i).trans (fault_tended _ c _ _ _)

theorem ringFlag_sets {i : Nat} (hi : i < 32) : (b.ringFlag c i).rbit RING_STATUS i = true := by
  rcases ringFlag_cases b c i with h | ⟨d1, h⟩
  · rw [h]; exact b.rbit_stick_same _ _ hi
  · rw [h, rbit_fault _ _ _ _ _ (by decide)]; exact b.rbit_stick_same _ _ hi

theorem ringFlag_ring (i : Nat) : (b.ringFlag c i).ring = b.ring := by
  rcases ringFlag_cases b c i with h | ⟨d1, h⟩
  · rw [h, Body.stick_ring]
  · rw [h, fault_ring, Body.stick_ring]

theorem ringFlag_grid (i : Nat) : (b.ringFlag c i).grid = b.grid := by
  have hf : ∀ (u : Body) (code d0 d1 : Nat), (u.fault c code d0 d1).grid = u.grid := fun u code d0 d1 => by
    obtain ⟨_, _, _, _, _, h⟩ := fault_thermalFrame u c code d0 d1
    rw [h]
  rcases ringFlag_cases b c i with h | ⟨d1, h⟩
  · rw [h, Body.stick_grid]
  · rw [h, hf, Body.stick_grid]

theorem stageInc_ring (v : Reg32) : (b.stageInc c v).ring = b.ring := by
  show ((b.rset TIDE_INC v).rsetBit TIDE_STATUS 4 true).ring = b.ring
  rw [Body.rsetBit_ring, Body.rset_ring]

theorem startBreak_ring : (b.startBreak c).ring = b.ring := by rw [Body.startBreak, stageInc_ring, Body.rsetBit_ring]

theorem tideBreakNow_ring : (b.tideBreakNow c).ring = b.ring := by
  unfold Body.tideBreakNow
  split
  · rfl
  · exact startBreak_ring b c

theorem tideBreakNow_tended : b.tended [TIDE_STATUS, TIDE_INC] [] (b.tideBreakNow c) := by
  unfold Body.tideBreakNow
  split
  · exact .refl _ _ b
  · exact .of_regs (startBreak_regs b c) (by decide) (startBreak_ring b c)

/-- In a Tide break the increment is staged, or was already (R73). -/
theorem tideBreakNow_breaks : (b.tideBreakNow c).tideBreak = true := by
  unfold Body.tideBreakNow
  split
  · assumption
  · exact (startBreak_shows b c).1

theorem suspect_tended : b.tended [RING_STATUS] [7] b.suspect := by
  unfold Body.suspect
  split
  · exact .refl _ _ b
  · exact ⟨(Body.tended.setsBit b 7 true).regs, (Body.tended.setsBit b 7 true).bits, _, _, _, _, _, _, rfl, .inr ⟨rfl, rfl⟩⟩

theorem freeze_tended : b.tended [RING_STATUS, TIDE_STATUS, TIDE_INC] [6] (b.freeze c) := by
  unfold Body.freeze
  split
  · exact (Body.tended.setsBit b 6 true).trans (js := []) (.of_regs (stageInc_regs _ c _) (by decide) (stageInc_ring _ c _))
  · exact .refl _ _ b

theorem freeze_ring : (b.freeze c).ring = b.ring := by
  unfold Body.freeze
  split
  · rw [stageInc_ring, Body.rsetBit_ring]
  · rfl

theorem lockUpdate_eq : ∃ on v, b.lockUpdate = if b.ringEn then (b.rsetBit RING_STATUS 2 on).rset MEMBER_LOCK v else b.rsetBit RING_STATUS 2 on := by
  have h : ∀ on, (b.rsetBit RING_STATUS 2 on).ringEn = b.ringEn := fun on => b.rbit_rsetBit_other (by decide) _ _ _
  unfold Body.lockUpdate
  dsimp only
  rw [h]
  exact ⟨_, _, rfl⟩

theorem lockUpdate_tended : b.tended [RING_STATUS, MEMBER_LOCK] [2] b.lockUpdate := by
  obtain ⟨on, v, h⟩ := lockUpdate_eq b
  rw [h]
  split
  · exact (Body.tended.setsBit b 2 on).trans (js := [])
      (.of_regs ((Body.regsKept.refl _ _).rset (List.mem_singleton_self _) v) (by decide) (Body.rset_ring _ _ _))
  · exact (Body.tended.setsBit b 2 on).mono (by simp) (by simp)

theorem lockUpdate_ring : b.lockUpdate.ring = b.ring := by
  obtain ⟨on, v, h⟩ := lockUpdate_eq b
  rw [h]
  split
  · rw [Body.rset_ring, Body.rsetBit_ring]
  · rw [Body.rsetBit_ring]

/-! ### Frames sent and turned (R57, R75) -/

theorem toOutput_frame (ringB : Bool) (e : TxEntry) :
    ∃ ta tb, b.toOutput ringB e = { b with ring := { b.ring with txA := ta, txB := tb } } := by
  unfold Body.toOutput
  dsimp only
  split_ifs
  all_goals exact ⟨_, _, rfl⟩

theorem Body.tended.of_queues {ta tb : List TxEntry} : b.tended [] [] { b with ring := { b.ring with txA := ta, txB := tb } } :=
  ⟨fun _ _ => rfl, fun _ _ _ => rfl, _, _, _, _, _, _, rfl, .inl ⟨rfl, rfl⟩⟩

theorem toOutput_tended (ringB : Bool) (e : TxEntry) : b.tended [] [] (b.toOutput ringB e) := by
  obtain ⟨ta, tb, h⟩ := toOutput_frame b ringB e
  rw [h]; exact .of_queues b

theorem turnOutput_tended (ringB : Bool) : b.tended [] [] (b.turnOutput ringB) := by
  have h0 : b.tended [] [] { b with ring := b.ring.setTx ringB [] } := by
    cases ringB <;> exact Body.tended.of_queues b
  exact .ite (h0.trans (Body.tended.foldl (fun u e => toOutput_tended u ringB e) _)) (.refl _ _ b)

theorem wrapCheck_tended : b.tended [RING_STATUS] [3, 7] b.wrapCheck := by
  unfold Body.wrapCheck
  dsimp only
  split
  · have h := (((Body.tended.setsBit b 3 true).trans (suspect_tended _)).trans (turnOutput_tended _ false)).trans (turnOutput_tended _ true)
    exact h.mono (by simp) (by simp)
  · exact .refl _ _ b

/-- The device wraps beside a break whose other input is in lock (R75). -/
theorem wrapCheck_wraps : b.wrapCheck.rbit RING_STATUS 3 = (b.rbit RING_STATUS 3 || (b.rbit RING_CTL 8 &&
    ((b.ring.brokenA && b.rbit RING_STATUS 1) || (b.ring.brokenB && b.rbit RING_STATUS 0)))) := by
  unfold Body.wrapCheck
  dsimp only
  split
  · rename_i h
    simp only [Bool.and_eq_true] at h
    have hs : ((((b.rsetBit RING_STATUS 3 true).suspect).turnOutput false).turnOutput true).rbit RING_STATUS 3 = true :=
      ((((suspect_tended _).trans (turnOutput_tended _ false)).trans (turnOutput_tended _ true)).bits 3 (by decide) (by decide)).trans
        (b.rbit_rsetBit_same _ _ _ (by omega))
    rw [hs, h.1.1, h.1.2, Bool.true_and, Bool.or_true]
  · rename_i h
    cases h3 : b.rbit RING_STATUS 3
    · rw [h3] at h
      simp only [Bool.not_false, Bool.and_true, Bool.not_eq_true] at h
      rw [h, Bool.or_false]
    · rw [Bool.true_or]

theorem sendBoth_tended (ty dst : Nat) (bc : Bool) (arg d1 d2 d3 : Nat) : b.tended [] [] (b.sendBoth ty dst bc arg d1 d2 d3) := by
  unfold Body.sendBoth
  dsimp only
  split
  · obtain ⟨ta, tb, h⟩ := toOutput_frame b false ⟨b.newFrame ty dst bc false arg d1 d2 d3, none, 0⟩
    rw [h]
    obtain ⟨ua, ub, k⟩ := toOutput_frame { b with ring := { b.ring with txA := ta, txB := tb } } true ⟨b.newFrame ty dst bc true arg d1 d2 d3, none, 0⟩
    rw [k]
    exact ⟨fun _ _ => rfl, fun _ _ _ => rfl, _, _, _, _, _, _, rfl, .inl ⟨rfl, rfl⟩⟩
  · exact .refl _ _ b

theorem sendLink_tended (hello : Bool) : b.tended [] [] (b.sendLink hello) := by
  let d1 := b.ring.nonce.toNat + b.rfld ASYM_DN 0 16 * 2 ^ 16 + b.rfld ASYM_UP 0 16 * 2 ^ 32 + b.linkStatus.toNat * 2 ^ 48
  let u := b.sendBoth 0xC 0 true (if hello then 1 else 0) d1 0 0
  have he : b.sendLink hello = { u with ring := { u.ring with lastStatus := b.linkStatus } } := rfl
  have h : b.tended [] [] u := sendBoth_tended b 0xC 0 true (if hello then 1 else 0) d1 0 0
  obtain ⟨ta, tb, sq, nu, nd, _, hr, ht⟩ := h.ring
  rw [he]
  exact ⟨h.regs, h.bits, ta, tb, sq, nu, nd, b.linkStatus, by rw [hr], ht⟩
end

end Sys2Proof.Machine
end

section
/-! Frames accepted (R56, R71), and the time a TIME frame carries (R63, R66, R72). -/

namespace Sys2Proof.Machine

/-! ### Numbers in registers -/

theorem toNat_wrap (w : Nat) (x : Int) : wrap w x = (BitVec.ofInt w x).toNat := by
  rw [BitVec.toNat_ofInt, wrap]
  norm_cast

theorem r32_wrap (x : Int) : r32 (wrap 32 x) = BitVec.ofInt 32 x := by rw [toNat_wrap, r32, BitVec.ofNat_toNat, BitVec.setWidth_eq]

theorem sval_wrap (w : Nat) (x : Int) : sval w (wrap w x) = (BitVec.ofInt w x).toInt := by rw [toNat_wrap, sval_toNat]

theorem ofInt_sub_ofNat (w : Nat) (x : Int) (n : Nat) : BitVec.ofInt w (x - n) = BitVec.ofInt w x - BitVec.ofNat w n := by
  rw [Int.sub_eq_add_neg, BitVec.ofInt_add, BitVec.ofInt_neg, BitVec.ofInt_natCast, ← BitVec.sub_eq_add_neg]

theorem satS_small {x : Int} (h : x.natAbs ≤ 16000) : satS 32 x = x := by
  have h1 : (-(2 : Int) ^ (32 - 1)) = -2147483648 := by norm_num
  have h2 : ((2 : Int) ^ (32 - 1) - 1) = 2147483647 := by norm_num
  rw [satS, h1, h2]
  omega

/-! ### The term of a frame (R71) -/

/-- A frame of the Lighthouse has been heard (R70). -/
def Body.heardLh (b : Body) (c : Clock) : Body := { b with ring := { b.ring with lastLh := c.cyc } }

section
variable {b : Body} {c : Clock} {f : Frame} {rx : Rx}

theorem follow_lh (hty : lhFrame f.type.toNat = true) (ht : f.term.toNat = b.rfld RING_STATUS 24 8) (hk : b.ring.lhKnown = true)
    (hs : f.src.toNat = b.rfld RING_STATUS 20 4) : b.follow c f = b.heardLh c := by
  simp [Body.follow, hty, ht, hk, hs, Body.heardLh]

theorem follow_same (hty : lhFrame f.type.toNat = false) (ht : f.term.toNat = b.rfld RING_STATUS 24 8) : b.follow c f = b := by
  simp [Body.follow, hty, ht]

/-! ### Acceptance (R56) -/

theorem accept_direct (hen : b.ringEn = true) (hsrc : rx.frame.src.toNat ≠ b.devId) :
    b.accept c rx true = ⟨b.follow c rx.frame, true, none⟩ := by
  simp [Body.accept, hen, hsrc]

/-- A broadcast in force is forwarded, and delivered unless a copy has been (R56 rules 6 and 7). -/
theorem accept_bcast (hen : b.ringEn = true) (hsrc : rx.frame.src.toNat ≠ b.devId) (hb : rx.frame.bcast = true)
    (ht : ¬ (frameClass rx.frame.type.toNat = 0 ∧ rx.frame.term.toNat < (b.follow c rx.frame).rfld RING_STATUS 24 8))
    (hh : rx.frame.hops.toNat < 30) :
    b.accept c rx false =
      let u := (b.follow c rx.frame).forward c rx
      ⟨if (b.seenBefore c rx).isNone then u.remember c rx else u, (b.seenBefore c rx).isNone, b.seenBefore c rx⟩ := by
  simp [Body.accept, hen, hsrc, hb, ht, hh]

/-- A frame for another device is forwarded and not delivered. -/
theorem accept_passes (hen : b.ringEn = true) (hsrc : rx.frame.src.toNat ≠ b.devId) (hb : rx.frame.bcast = false) (hd : rx.frame.dst.toNat ≠ b.devId)
    (hdst : (b.follow c rx.frame).devId = b.devId) (hc : frameClass rx.frame.type.toNat ≠ 0) (hh : rx.frame.hops.toNat < 30) :
    b.accept c rx false = ⟨(b.follow c rx.frame).forward c rx, false, none⟩ := by
  simp [Body.accept, hen, hsrc, hb, hd, hdst, hc, hh]

theorem forward_plain (h : rx.frame.type ≠ 6) : b.forward c rx = b.toOutput rx.ringB
    ⟨{ rx.frame with hops := rx.frame.hops + 1 }, some (16 * c.cyc + rx.sub.toNat), b.ingress rx.ringB⟩ := by
  have hm : b.mergeVote rx.ringB rx.frame = (rx.frame, b) := if_neg (by simpa using h)
  rw [Body.forward, hm]
  rfl

/-- What the acceptance of a class-0 frame of the Lighthouse followed leaves. -/
def Body.heardCopy (b : Body) (c : Clock) (rx : Rx) : Body :=
  let u := (b.heardLh c).forward c rx
  if (b.seenBefore c rx).isNone then u.remember c rx else u

/-- A frame a member has from the Lighthouse it follows, in force: of the present term, from the LH_ID, a broadcast with links left. -/
structure Body.fromMyLh (b : Body) (f : Frame) : Prop where
  ringOpen : b.ringEn = true
  foreign : f.src.toNat ≠ b.devId
  bcast : f.bcast = true
  hops : f.hops.toNat < 30
  term : f.term.toNat = b.rfld RING_STATUS 24 8
  known : b.ring.lhKnown = true
  src : f.src.toNat = b.rfld RING_STATUS 20 4

theorem accept_lh (h : b.fromMyLh rx.frame) (hty : lhFrame rx.frame.type.toNat = true) :
    b.accept c rx false = ⟨b.heardCopy c rx, (b.seenBefore c rx).isNone, b.seenBefore c rx⟩ := by
  have hf := follow_lh (c := c) hty h.term h.known h.src
  have hterm : (b.heardLh c).rfld RING_STATUS 24 8 = b.rfld RING_STATUS 24 8 := rfl
  rw [accept_bcast h.ringOpen h.foreign h.bcast (by rw [hf, hterm, h.term]; simp) h.hops, hf]
  rfl

/-- The ring alone has changed: the frames that wait, the copies seen and the time the Lighthouse was heard. -/
theorem heardCopy_frame (hty : rx.frame.type ≠ 6) : ∃ ta tb sn,
    b.heardCopy c rx = { b with ring := { b.ring with txA := ta, txB := tb, seen := sn, lastLh := c.cyc } } ∧
    (b.rbit RING_STATUS 3 = false → rx.ringB = false → tb = b.ring.txB ∧ ta = enqueueTx
      ⟨{ rx.frame with hops := rx.frame.hops + 1 }, some (16 * c.cyc + rx.sub.toNat), b.ingress rx.ringB⟩ b.ring.txA) := by
  let e : TxEntry := ⟨{ rx.frame with hops := rx.frame.hops + 1 }, some (16 * c.cyc + rx.sub.toNat), b.ingress rx.ringB⟩
  have hf : (b.heardLh c).forward c rx = (b.heardLh c).toOutput rx.ringB e := forward_plain hty
  obtain ⟨ta, tb, h⟩ := toOutput_frame (b.heardLh c) rx.ringB e
  have hw : b.rbit RING_STATUS 3 = false → rx.ringB = false → tb = b.ring.txB ∧ ta = enqueueTx e b.ring.txA := fun h3 hB => by
    have hu := toOutput_unwrapped (b := b.heardLh c) rx.ringB e h3
    rw [h, hB] at hu
    have hr := congrArg Body.ring hu
    exact ⟨congrArg RingSt.txB hr, congrArg RingSt.txA hr⟩
  unfold Body.heardCopy
  dsimp only
  rw [hf, h]
  split
  · exact ⟨ta, tb, _, rfl, hw⟩
  · exact ⟨ta, tb, _, rfl, hw⟩
end

/-! ### What a copy shows (R63, R66) -/

section
variable (b : Body) (c : Clock) (rx : Rx)

theorem ingress_eq (ringB : Bool) : b.ingress ringB = ((if ringB then b.rget LINK_B_IN else b.rget LINK_A_IN).extractLsb' 0 20).toNat := by
  cases ringB <;> exact fld_eq_extract _ 0 20

theorem timeOffset_eq : b.timeOffset c rx =
    ((16 * c.tt.toNat + rx.sub.toNat * (b.rget TIDE_INC_ACT).toNat * 2 ^ 8) / 2 ^ 32 : Nat) -
      (16 * rx.frame.d1.toNat + (rx.frame.d2.extractLsb' 60 4).toNat + (rx.frame.d2.extractLsb' 28 32).toNat + b.ingress rx.ringB : Nat) := by
  rw [← fld_eq_extract, ← fld_eq_extract]; rfl

theorem phaseSlips_iff : b.phaseSlips c rx = true ↔
    1 < ((c.phase.setWidth 32 - BitVec.ofInt 32 (roundEven ((rx.frame.d2.extractLsb' 28 32).toNat + b.ingress rx.ringB : Nat) 16) -
      rx.frame.d3).toInt).natAbs := by
  have hx : ∀ p : Int, BitVec.ofInt 32 ((c.ph : Int) - p - rx.frame.d3.toNat) = c.phase.setWidth 32 - BitVec.ofInt 32 p - rx.frame.d3 := fun p => by
    rw [ofInt_sub_ofNat, Int.sub_eq_add_neg, BitVec.ofInt_add, BitVec.ofInt_neg, BitVec.ofInt_natCast, ← BitVec.sub_eq_add_neg, BitVec.ofNat_toNat,
      BitVec.setWidth_eq, Clock.ph, BitVec.ofNat_toNat]
  rw [Body.phaseSlips, decide_eq_true_iff, sval_wrap, hx, ← fld_eq_extract]
end

/-! ### Using an offset (R63, R66, R72, R73) -/

section
variable (b : Body) (c : Clock) (h : HeldTime)

/-- TIME_OFFSET and SETTLED. -/
def Body.offsetNoted : Body :=
  let u := b.rset TIME_OFFSET (r32 (wrap 32 (satS 32 h.off)))
  u.rsetBit RING_STATUS 5 (decide (h.off.natAbs ≤ u.rfld SERVO_CFG 12 8))

/-- PHASE_SLIP and its break. -/
def Body.slipNoted : Body := if h.slip then ((b.offsetNoted h).ringFlag c 15).tideBreakNow c else b.offsetNoted h

theorem useTime_eq : b.useTime c h =
    if 16000 < h.off.natAbs then ((b.slipNoted c h).ringFlag c 13).tideBreakNow c
    else if (b.slipNoted c h).tideBreak then b.slipNoted c h
    else { b.slipNoted c h with ring := { (b.slipNoted c h).ring with offs := (b.slipNoted c h).ring.offs ++ [h.off] } } := rfl

theorem offsetNoted_ring : (b.offsetNoted h).ring = b.ring := by rw [Body.offsetNoted, Body.rsetBit_ring, Body.rset_ring]

theorem offsetNoted_tended : b.tended [TIME_OFFSET, RING_STATUS] [5] (b.offsetNoted h) := by
  have h1 : b.tended [TIME_OFFSET] [] (b.rset TIME_OFFSET (r32 (wrap 32 (satS 32 h.off)))) :=
    .of_regs ((Body.regsKept.refl _ b).rset (List.mem_singleton_self _) _) (by decide) (Body.rset_ring _ _ _)
  exact h1.trans (Body.tended.setsBit _ 5 _)

theorem offsetNoted_shows (hs : h.off.natAbs ≤ 16000) : (b.offsetNoted h).rget TIME_OFFSET = BitVec.ofInt 32 h.off ∧
    (b.offsetNoted h).rbit RING_STATUS 5 = decide (h.off.natAbs ≤ b.rfld SERVO_CFG 12 8) := by
  refine ⟨?_, ?_⟩
  · rw [Body.offsetNoted, Body.rget_rsetBit, if_neg (by decide), Body.rget_rset, satS_small hs, r32_wrap]
  · rw [Body.offsetNoted, Body.rbit_rsetBit_same _ _ _ _ (by omega), Body.rfld, Body.rget_rset_other _ (by decide), Body.rfld]

theorem slipNoted_ring : (b.slipNoted c h).ring = b.ring := by
  unfold Body.slipNoted
  split
  · rw [tideBreakNow_ring, ringFlag_ring, offsetNoted_ring]
  · exact offsetNoted_ring b h

theorem slipNoted_tended : b.tended [TIME_OFFSET, RING_STATUS, FAULT_DROP, TIDE_STATUS, TIDE_INC] [5, 15] (b.slipNoted c h) := by
  have h1 := ((offsetNoted_tended b h).trans (ringFlag_tended _ c 15)).trans (tideBreakNow_tended _ c)
  exact .ite (h1.mono (by simp) (by simp)) ((offsetNoted_tended b h).mono (by simp) (by simp))

theorem slipNoted_slips (hs : h.slip = true) : (b.slipNoted c h).tideBreak = true ∧ (b.slipNoted c h).rbit RING_STATUS 15 = true := by
  rw [Body.slipNoted, if_pos hs]
  exact ⟨tideBreakNow_breaks _ c, ((tideBreakNow_tended _ c).bits 15 (by decide) (by decide)).trans (ringFlag_sets _ c (by omega))⟩

/-- RING_STATUS after an offset has been used. -/
theorem useTime_bits {i : Nat} (hi : i < 32) (hn : i ∉ [5, 13, 15]) : (b.useTime c h).rbit RING_STATUS i = b.rbit RING_STATUS i := by
  have hs := slipNoted_tended b c h
  have hb : (b.slipNoted c h).rbit RING_STATUS i = b.rbit RING_STATUS i := hs.bits i hi (by simp at hn ⊢; omega)
  rw [useTime_eq]
  split
  · exact (((ringFlag_tended _ c 13).trans (tideBreakNow_tended _ c)).bits i hi (by simp at hn ⊢; omega)).trans hb
  · split
    · exact hb
    · exact hb

/-- An offset within bounds and without a slip joins the servo's list. -/
theorem useTime_fits (hs : h.slip = false) (ho : h.off.natAbs ≤ 16000) (hb : b.tideBreak = false) :
    b.useTime c h = { b.offsetNoted h with ring := { b.ring with offs := b.ring.offs ++ [h.off] } } := by
  have hn : b.slipNoted c h = b.offsetNoted h := if_neg (by simp [hs])
  have ht : (b.offsetNoted h).tideBreak = false := ((offsetNoted_tended b h).regs.rbit (by decide) 3).trans hb
  rw [useTime_eq, if_neg (by omega), hn, ht, if_neg (by decide), offsetNoted_ring]

/-- A slip, or an offset out of bounds, starts a Tide break and adds nothing to the list. -/
theorem useTime_breaks (hs : h.slip = true ∨ 16000 < h.off.natAbs) :
    let u := b.useTime c h
    u.ring = b.ring ∧ u.tideBreak = true ∧ (h.slip = true → u.rbit RING_STATUS 15 = true) ∧ (16000 < h.off.natAbs → u.rbit RING_STATUS 13 = true) := by
  dsimp only
  rw [useTime_eq]
  by_cases ho : 16000 < h.off.natAbs
  · rw [if_pos ho]
    have hk := (ringFlag_tended (b.slipNoted c h) c 13).trans (tideBreakNow_tended _ c)
    refine ⟨by rw [tideBreakNow_ring, ringFlag_ring, slipNoted_ring], tideBreakNow_breaks _ c, fun hsl => ?_, fun _ => ?_⟩
    · exact (hk.bits 15 (by decide) (by decide)).trans (slipNoted_slips b c h hsl).2
    · exact ((tideBreakNow_tended _ c).bits 13 (by decide) (by decide)).trans (ringFlag_sets _ c (by omega))
  · have hsl := hs.resolve_right ho
    obtain ⟨h1, h2⟩ := slipNoted_slips b c h hsl
    rw [if_neg ho, if_pos h1]
    exact ⟨slipNoted_ring b c h, h1, fun _ => h2, fun hc => absurd hc ho⟩
end

/-! ### Copies of a TIME frame (R56 rule 7, R63) -/

section
variable {b : Body} {c : Clock} {rx : Rx}

theorem timeFrame_uses {a : Accepted} (hl : b.actingLh = false) (hf : b.fromLh rx.frame = true) (hd : a.deliver = true)
    (hh : rx.frame.hops = 0) (hB : rx.ringB = false) : b.timeFrame c a rx = b.useTime c (b.timeCopy c rx c.cyc) := by
  simp [Body.timeFrame, hl, hf, hd, Body.timeCopy, hh, hB]

theorem timeFrame_holds {a : Accepted} (hl : b.actingLh = false) (hf : b.fromLh rx.frame = true) (hd : a.deliver = true)
    (hh : ¬ (rx.frame.hops = 0 ∧ rx.ringB = false)) :
    b.timeFrame c a rx = { b with ring := { b.ring with timeHeld := b.ring.timeHeld ++ [b.timeCopy c rx c.cyc] } } := by
  have h : ¬ ((b.timeCopy c rx c.cyc).hops = 0 ∧ (b.timeCopy c rx c.cyc).ringB = false) := fun ⟨h1, h2⟩ =>
    hh ⟨BitVec.eq_of_toNat_eq h1, h2⟩
  simp [Body.timeFrame, hl, hf, hd, h]

theorem timeFrame_twin {a : Accepted} {x : HeldTime} (hl : b.actingLh = false) (hf : b.fromLh rx.frame = true) (hd : a.deliver = false)
    (hx : b.ring.timeHeld = [x]) (ht : (b.timeCopy c rx c.cyc).twin x = true) : b.timeFrame c a rx =
      ({ b with ring := { b.ring with timeHeld := [] } } : Body).useTime c ((b.timeCopy c rx c.cyc).better x) := by
  simp [Body.timeFrame, hl, hf, hd, hx, ht]

/-- A copy of a time changes no other bit of RING_STATUS. -/
theorem timeFrame_bits (a : Accepted) {i : Nat} (hi : i < 32) (hn : i ∉ [5, 13, 15]) :
    (b.timeFrame c a rx).rbit RING_STATUS i = b.rbit RING_STATUS i := by
  unfold Body.timeFrame
  dsimp only
  split
  · rfl
  split
  · split
    · exact useTime_bits b c _ hi hn
    · rfl
  · split
    · exact useTime_bits _ c _ hi hn
    · rfl

/-- What a TIME frame makes of the body: accepted, and its time used or held. -/
def Body.timeHeard (b : Body) (c : Clock) (rx : Rx) : Body :=
  let a := b.accept c rx false
  if a.deliver || a.first.isSome then a.body.timeFrame c a rx else a.body

theorem exec_timeFrame (rx : Rx) (s : State) : exec (.timeFrame rx) s = .next { s with body := s.body.timeHeard s.clock (rx.typed 1) } := rfl
end

end Sys2Proof.Machine
end

section
/-! What the frames of the ring protocol do where they are delivered (R56, R67 to R71, R79 to R83). -/

namespace Sys2Proof.Machine

theorem r32_fld {w : Nat} (v : BitVec w) (lo : Nat) : r32 (fld v lo 32) = v.extractLsb' lo 32 := by
  rw [fld_eq_extract, r32, BitVec.ofNat_toNat, BitVec.setWidth_eq]

theorem r32_fld_short {w : Nat} (v : BitVec w) (lo len : Nat) : r32 (fld v lo len) = (v.extractLsb' lo len).setWidth 32 := by
  rw [fld_eq_extract, r32, BitVec.ofNat_toNat]

/-! ### ANNOUNCE (R42, R67) -/

section
variable (b : Body) (c : Clock) (f : Frame)

/-- The mirrors of the grid and the announcement last heard. -/
def Body.mirrorsNoted : Body :=
  let u := (b.rset GRID_MIRROR_PERIOD (r32 (fld f.d2 16 32))).rset GRID_MIRROR_SHOTLEN (r32 f.d3.toNat)
  { u with ring := { u.ring with lastAnn := some (f.d1.toNat, fld f.d2 48 16) } }

theorem rget_mirrorsNoted (j : Nat) : (b.mirrorsNoted f).rget j =
    if j = GRID_MIRROR_SHOTLEN then f.d3 else if j = GRID_MIRROR_PERIOD then f.d2.extractLsb' 16 32 else b.rget j := by
  have h : (b.mirrorsNoted f).rget j =
      ((b.rset GRID_MIRROR_PERIOD (r32 (fld f.d2 16 32))).rset GRID_MIRROR_SHOTLEN (r32 f.d3.toNat)).rget j := rfl
  rw [h, Body.rget_rset_ite, Body.rget_rset_ite, r32_fld, r32, BitVec.ofNat_toNat, BitVec.setWidth_eq]

theorem mirrorsNoted_regs : b.regsKept [GRID_MIRROR_PERIOD, GRID_MIRROR_SHOTLEN] (b.mirrorsNoted f) := fun j hj => by
  simp only [List.mem_cons, List.not_mem_nil, or_false, not_or] at hj
  rw [rget_mirrorsNoted, if_neg hj.2, if_neg hj.1]

theorem mirrorsNoted_grid : (b.mirrorsNoted f).grid = b.grid := rfl

theorem announce_eq : b.announce c f =
    let u := (b.mirrorsNoted f).stepEpoch c (fld f.d2 48 16)
    if u.anchored then u.takeBoundary c f.d1.toNat (fld f.d2 48 16) else u := rfl

theorem stepEpoch_next {e : Nat} (h : (b.epoch + 1) % 65536 = e) : b.stepEpoch c e = b := by
  have hlt : b.epoch < 2 ^ 16 := fld_lt _ 0 16
  rw [Body.stepEpoch, if_pos]
  omega

/-- A boundary taken up by a running grid out of a Tide break. -/
theorem takeBoundary_running (bound e : Nat) (hg : b.gridRun = true) (hb : b.tideBreak = false) : b.takeBoundary c bound e =
    { b with grid := { b.grid with next := bound, ann := true, annEpoch := e, horizon := false, voted := 0, verdict := none } } := by
  simp [Body.takeBoundary, hg, hb]

/-- An announcement in step with the epoch puts its boundary into settlement. -/
theorem announce_next (ha : b.anchored = true) (hg : b.gridRun = true) (hb : b.tideBreak = false)
    (he : (b.epoch + 1) % 65536 = fld f.d2 48 16) : b.announce c f =
      { b.mirrorsNoted f with grid := { b.grid with next := f.d1.toNat, ann := true, annEpoch := fld f.d2 48 16, horizon := false, voted := 0,
                                                    verdict := none } } := by
  have hk := mirrorsNoted_regs b f
  have h1 : (b.mirrorsNoted f).epoch = b.epoch := hk.rfld (by decide) 0 16
  have h2 : (b.mirrorsNoted f).anchored = true := (hk.rbit (by decide) 0).trans ha
  have h3 : (b.mirrorsNoted f).gridRun = true := (hk.rbit (by decide) 1).trans hg
  have h4 : (b.mirrorsNoted f).tideBreak = false := (hk.rbit (by decide) 3).trans hb
  rw [announce_eq, stepEpoch_next (b.mirrorsNoted f) c (by rw [h1]; exact he)]
  dsimp only
  rw [h2, if_pos rfl, takeBoundary_running _ _ _ _ h3 h4, mirrorsNoted_grid]

/-! ### HOLD_VOTE and VERDICT (R69) -/

/-- The boundary a vote or verdict speaks of is in settlement. -/
theorem holdVote_counts (ha : b.grid.ann = true) (hv : b.grid.verdict = none) (hn : f.d1.toNat = b.grid.next) :
    b.holdVote c f = { b with grid := { b.grid with voteMask := b.grid.voteMask ||| fld f.d2 32 16,
                                                    voteReasons := b.grid.voteReasons ||| fld f.d2 28 4 } } := by
  simp [Body.holdVote, ha, hv, hn]

section
variable (ha : b.grid.ann = true) (hv : b.grid.verdict = none) (hn : f.d1.toNat = b.grid.next) (h1 : bit f.arg 1 = false)
include ha hv hn h1

/-- A VERDICT for the boundary in settlement, and no stop of the grid. -/
theorem verdictFrame_settles : b.verdictFrame c f =
    if bit f.arg 0 then { b.rset HOLD_LAST (r32 (fld f.d2 32 16)) with grid := { b.grid with verdict := some true } }
    else if b.grid.voted ≠ 0 then ({ b with grid := { b.grid with verdict := some true } }.ringFlag c 17).missOne
    else { b with grid := { b.grid with verdict := some false } } := by
  have hs : (b.grid.ann && b.grid.verdict.isNone && decide (f.d1.toNat = b.grid.next)) = true := by simp [ha, hv, hn]
  rw [Body.verdictFrame, h1]
  exact if_pos hs

theorem verdictFrame_holds (h0 : bit f.arg 0 = true) : b.verdictFrame c f =
    { b.rset HOLD_LAST (r32 (fld f.d2 32 16)) with grid := { b.grid with verdict := some true } } := by
  rw [verdictFrame_settles b c f ha hv hn h1, if_pos h0]

theorem verdictFrame_starts (h0 : bit f.arg 0 = false) (hvote : b.grid.voted = 0) :
    b.verdictFrame c f = { b with grid := { b.grid with verdict := some false } } := by
  rw [verdictFrame_settles b c f ha hv hn h1, if_neg (by simp [h0]), if_neg (by simp [hvote])]

theorem verdictFrame_overruled (h0 : bit f.arg 0 = false) (hvote : b.grid.voted ≠ 0) :
    b.verdictFrame c f = ({ b with grid := { b.grid with verdict := some true } }.ringFlag c 17).missOne := by
  rw [verdictFrame_settles b c f ha hv hn h1, if_neg (by simp [h0]), if_pos hvote]
end

theorem missOne_grid : b.missOne.grid = b.grid := rfl
theorem rbit_missOne (j i : Nat) : b.missOne.rbit j i = b.rbit j i := rfl
end

/-! ### DECISION (R79) -/

section
variable (b : Body)

theorem inGroup_iff (d : Nat) : b.inGroup d = true ↔ ∃ e ∈ b.ring.status.entries, e.1 = d := by simp [Body.inGroup]

theorem bitsAt_bitsAt (x lo len lo2 len2 : Nat) (h : lo2 + len2 ≤ len) : bitsAt (bitsAt x lo len) lo2 len2 = bitsAt x (lo + lo2) len2 := by
  apply Nat.eq_of_testBit_eq
  intro i
  rw [testBit_bitsAt, testBit_bitsAt, testBit_bitsAt, Nat.add_assoc]
  by_cases hi : i < len2
  · simp [hi, show lo2 + i < len by omega]
  · simp [hi]

/-- The one update of a DECISION frame of COUNT 1. -/
theorem decisionUpds_one {f : Frame} (h : fld f.arg 0 3 = 1) : decisionUpds f = [fld f.d2 44 20] := by
  rw [decisionUpds, h]; rfl

theorem importUpd_free {x : ImportUpd} (h : b.importFree x.ringB = true) : b.importUpd x = b.importNow x := if_pos h

theorem importUpd_waits {x : ImportUpd} (h : b.importFree x.ringB = false) :
    b.importUpd x = { b with fab := { b.fab with imports := b.fab.imports ++ [x] } } := if_neg (by simp [h])
end

/-! ### ANCHOR (R48, R83) -/

section
variable (b : Body) (c : Clock)

theorem refResidue_lt : b.refResidue < b.refPeriod := by
  have h : 0 < b.refPeriod := by unfold Body.refPeriod; split <;> decide
  unfold Body.refResidue
  split
  · exact h
  · exact Nat.mod_lt _ h

/-- The nearest reference edge is an edge, and lies within half a reference period. -/
theorem edgeNear_spec {t : Int} (h : 2000 ≤ t) :
    (16 * (b.edgeNear c t : Int) - t).natAbs ≤ 8 * b.refPeriod ∧
    ((c.ph : Int) + ((b.edgeNear c t : Int) - c.cyc)) % b.refPeriod = b.refResidue := by
  have hr := refResidue_lt b
  have hp : b.refPeriod = 10 ∨ b.refPeriod = 100 := by unfold Body.refPeriod; split <;> simp
  unfold Body.edgeNear Body.sinceEdge
  dsimp only
  generalize b.refResidue = r at hr ⊢
  rcases hp with hp | hp
  · rw [hp] at hr ⊢
    split <;> omega
  · rw [hp] at hr ⊢
    split <;> omega

theorem anchorSet_eq (x : BitVec 64) (y : BitVec 32) : BitVec.ofNat 96 (x.toNat * 2 ^ 32 + y.toNat) = x ++ y := by
  apply BitVec.eq_of_toNat_eq
  have hx := x.isLt
  have hy := y.isLt
  rw [BitVec.toNat_ofNat, BitVec.toNat_append, ← Nat.shiftLeft_eq, ← Nat.shiftLeft_add_eq_or_of_lt hy, Nat.shiftLeft_eq]
  omega
end

/-! ### TAKEOVER (R71) -/

section
variable {b : Body} {c : Clock} {f : Frame} {rx : Rx}

/-- A Lighthouse no longer. -/
theorem depose_member : (b.depose c).rbit RING_STATUS 4 = false := by
  unfold Body.depose
  split
  · exact ((ringFlag_tended _ c 11).bits 4 (by decide) (by decide)).trans (Body.rbit_rsetBit_same _ _ _ _ (by omega))
  · simpa using ‹¬ b.rbit RING_STATUS 4 = true›

/-- The Lighthouse of a higher term is followed. -/
theorem follow_higher (hl : lhFrame f.type.toNat = true) (ht : b.rfld RING_STATUS 24 8 < f.term.toNat) :
    let u := b.follow c f
    u.rbit RING_STATUS 4 = false ∧ u.rfld RING_STATUS 24 8 = f.term.toNat ∧ u.rfld RING_STATUS 20 4 = f.src.toNat ∧ u.ring.lhKnown = true := by
  let v := ((b.depose c).rsetFld RING_STATUS 24 8 f.term.toNat).rsetFld RING_STATUS 20 4 f.src.toNat
  have hu : ∃ r : RingSt, r.lhKnown = true ∧ b.follow c f = { v with ring := r } := by
    unfold Body.follow
    simp only [ht, hl, decide_true, Bool.true_or, if_true]
    split
    · exact ⟨_, rfl, rfl⟩
    · exact ⟨_, rfl, rfl⟩
  obtain ⟨r, hr, hu⟩ := hu
  have hg : v.rget RING_STATUS = setFld (setFld ((b.depose c).rget RING_STATUS) 24 8 f.term.toNat) 20 4 f.src.toNat := by
    simp only [v, Body.rget_rsetFld, if_true]
  have h24 : f.term.toNat % 2 ^ 8 = f.term.toNat := Nat.mod_eq_of_lt f.term.isLt
  have h20 : f.src.toNat % 2 ^ 4 = f.src.toNat := Nat.mod_eq_of_lt f.src.isLt
  dsimp only
  rw [hu]
  refine ⟨?_, ?_, ?_, hr⟩
  · show bit (v.rget RING_STATUS) 4 = false
    rw [hg, bit_setFld_other _ _ _ _ (by omega) (by omega), bit_setFld_other _ _ _ _ (by omega) (by omega)]
    exact depose_member
  · show fld (v.rget RING_STATUS) 24 8 = _
    rw [hg, fld_setFld_other _ _ _ _ _ _ (by omega), fld_setFld_same _ _ _ _ (by omega), h24]
  · show fld (v.rget RING_STATUS) 20 4 = _
    rw [hg, fld_setFld_same _ _ _ _ (by omega), h20]

theorem forward_regs (hty : rx.frame.type ≠ 6) (j : Nat) : (b.forward c rx).rget j = b.rget j := by
  rw [forward_plain hty]
  exact (toOutput_tended b rx.ringB _).regs j (by simp)

theorem remember_regs (j : Nat) : (b.remember c rx).rget j = b.rget j := rfl

/-- What a TAKEOVER frame makes of the body (R63, R71). -/
def Body.takenOver (b : Body) (c : Clock) (rx : Rx) : Body :=
  let a := b.accept c rx false
  if a.deliver then (a.body.ringFlag c 10).timeFrame c a rx
  else if a.first.isSome then a.body.timeFrame c a rx else a.body

/-- TAKEOVER of a higher term, where it is first heard. -/
theorem takenOver_higher (hty : rx.frame.type = 0xB) (hen : b.ringEn = true) (hsrc : rx.frame.src.toNat ≠ b.devId) (hb : rx.frame.bcast = true)
    (hh : rx.frame.hops.toNat < 30) (hs : b.seenBefore c rx = none) (ht : b.rfld RING_STATUS 24 8 < rx.frame.term.toNat) :
    let u := b.takenOver c rx
    u.rbit RING_STATUS 10 = true ∧ u.rbit RING_STATUS 4 = false ∧ u.rfld RING_STATUS 24 8 = rx.frame.term.toNat ∧
    u.rfld RING_STATUS 20 4 = rx.frame.src.toNat := by
  have hl : lhFrame rx.frame.type.toNat = true := by rw [hty]; decide
  obtain ⟨h4, h24, h20, _⟩ := follow_higher (c := c) hl ht
  let v := ((b.follow c rx.frame).forward c rx).remember c rx
  have hv : ∀ j, v.rget j = (b.follow c rx.frame).rget j := fun j => (remember_regs j).trans (forward_regs (by rw [hty]; decide) j)
  have ha : b.accept c rx false = ⟨v, true, none⟩ := by
    rw [accept_bcast hen hsrc hb (by rw [h24]; simp) hh, hs]; rfl
  have hu : b.takenOver c rx = (v.ringFlag c 10).timeFrame c ⟨v, true, none⟩ rx := by rw [Body.takenOver, ha]; rfl
  have hbits : ∀ i, i < 32 → i ∉ [5, 10, 13, 15] → (b.takenOver c rx).rbit RING_STATUS i = (b.follow c rx.frame).rbit RING_STATUS i := fun i hi hn => by
    simp only [List.mem_cons, List.not_mem_nil, or_false, not_or] at hn
    rw [hu, timeFrame_bits _ hi (by simp [hn]), (ringFlag_tended v c 10).bits i hi (by simp [hn]), Body.rbit, hv, Body.rbit]
  refine ⟨?_, (hbits 4 (by decide) (by decide)).trans h4, ?_, ?_⟩
  · rw [hu, timeFrame_bits _ (by decide) (by decide)]
    exact ringFlag_sets v c (by omega)
  · exact (fld_of_bits fun i h1 h2 => hbits i (by omega) (by simp; omega)).trans h24
  · exact (fld_of_bits fun i h1 h2 => hbits i (by omega) (by simp; omega)).trans h20
end

/-! ### LINK (R61, R82) -/

section
variable (b : Body) (c : Clock) (rx : Rx)

theorem linkNeighbour_status : (b.linkNeighbour rx).ring.status = b.ring.status := by
  unfold Body.linkNeighbour
  dsimp only
  split
  · rw [Body.rsetBit_ring]
    dsimp only
    split <;> rfl
  · rfl

/-- A LINK copy that crossed one link on ring B brings the neighbour's constant (R61). -/
theorem linkNeighbour_down (hh : rx.frame.hops = 0) (hB : rx.ringB = true) :
    (b.linkNeighbour rx).ring.nbDn = some (fld rx.frame.d1 32 16) := by
  unfold Body.linkNeighbour
  dsimp only
  rw [if_pos hh, Body.rsetBit_ring, hB]
  rfl

/-- A LINK frame shows the STATUS of its sender (R82). -/
theorem linkFrame_status : (b.linkFrame c rx).ring.status.get none rx.frame.src.toNat = some (rx.frame.d1.extractLsb' 48 5) := by
  have h : BitVec.ofNat 5 (fld rx.frame.d1 48 5) = rx.frame.d1.extractLsb' 48 5 := by
    rw [fld_eq_extract, BitVec.ofNat_toNat, BitVec.setWidth_eq]
  unfold Body.linkFrame
  dsimp only
  rw [freeze_ring, lockUpdate_ring, h]
  exact SMap.get_put_same _ _ _ _

/-- What a LINK frame of another device makes of the body. -/
theorem exec_linkFrame {s : State} (hsrc : (rx.typed 0xC).frame.src.toNat ≠ s.body.devId) :
    let a := s.body.accept s.clock (rx.typed 0xC) false
    exec (.linkFrame rx) s = .next { s with body :=
      (if a.deliver then (a.body.linkNeighbour (rx.typed 0xC)).linkFrame s.clock (rx.typed 0xC)
       else if a.first.isSome then a.body.linkNeighbour (rx.typed 0xC) else a.body) } := by
  have hq : (s.body.ringEn && (rx.typed 0xC).frame.src.toNat == s.body.devId && bit (rx.typed 0xC).frame.arg 0 &&
      fld (rx.typed 0xC).frame.d1 0 16 != s.body.ring.nonce.toNat) = false := by
    rw [beq_false_of_ne hsrc, Bool.and_false, Bool.false_and, Bool.false_and]
  exact nextBody_to (f := fun c b => _) (if_neg (by rw [hq]; decide))
end

end Sys2Proof.Machine
end

section
/-! The commands of the ring protocol's frames (R56, R67 to R71, R79 to R83). -/

namespace Sys2Proof.Machine

section
variable (rx : Rx) (s : State)

/-- What acceptance leaves of a frame under TYPE `ty`. -/
abbrev accepted (ty : BitVec 4) : Accepted := s.body.accept s.clock (rx.typed ty) false

/-- The body a command leaves, by another name of it. -/
theorem next_body_congr {s : State} {o : Host.Outcome State Fault Refusal} {u v : Body} (h : o = .next { s with body := u }) (k : u = v) :
    o = .next { s with body := v } := k ▸ h

/-- A frame delivered from the Lighthouse a member follows. -/
def deliveredAt (ty : BitVec 4) : Prop :=
  (accepted rx s ty).deliver = true ∧ (accepted rx s ty).body.fromLh (rx.typed ty).frame = true ∧ (accepted rx s ty).body.actingLh = false

section
variable {rx s}

/-- A command that acts on a frame delivered from the Lighthouse followed. -/
theorem memberCommand {ty : BitVec 4} {f : Body → Body} (h : deliveredAt rx s ty) :
    (if (accepted rx s ty).deliver then
      (if (accepted rx s ty).body.fromLh (rx.typed ty).frame && ! (accepted rx s ty).body.actingLh then f (accepted rx s ty).body
       else (accepted rx s ty).body)
     else (accepted rx s ty).body) = f (accepted rx s ty).body := by
  obtain ⟨h1, h2, h3⟩ := h
  simp [h1, h2, h3]

theorem exec_announce (h : deliveredAt rx s 5) :
    exec (.announce rx) s = .next { s with body := (accepted rx s 5).body.announce s.clock (rx.typed 5).frame } :=
  nextBody_to (memberCommand (f := fun u => u.announce s.clock (rx.typed 5).frame) h)

theorem exec_verdict (h : deliveredAt rx s 7) :
    exec (.verdict rx) s = .next { s with body := (accepted rx s 7).body.verdictFrame s.clock (rx.typed 7).frame } :=
  nextBody_to (memberCommand (f := fun u => u.verdictFrame s.clock (rx.typed 7).frame) h)

theorem exec_anchorFrame (h : deliveredAt rx s 0xA) :
    exec (.anchorFrame rx) s = .next { s with body := (accepted rx s 0xA).body.anchorFrame s.clock (rx.typed 0xA) } :=
  nextBody_to (memberCommand (f := fun u => u.anchorFrame s.clock (rx.typed 0xA)) h)

theorem exec_holdVote (hd : (accepted rx s 6).deliver = true) (hl : (accepted rx s 6).body.actingLh = true) :
    exec (.holdVote rx) s = .next { s with body := (accepted rx s 6).body.holdVote s.clock (rx.typed 6).frame } :=
  nextBody_to (if_pos (by
    show ((accepted rx s 6).deliver && (accepted rx s 6).body.actingLh) = true
    rw [hd, hl]; rfl))

/-- The update a DECISION frame of one update carries. -/
def updateOf (rx : Rx) : ImportUpd :=
  ⟨rx.ringB, rx.frame.src.toNat, fld rx.frame.d2 54 10, fld rx.frame.d2 46 8, fld rx.frame.d1 48 16, fld rx.frame.d1 12 36⟩

theorem exec_decisionFrame (hd : (accepted rx s 8).deliver = true) (hg : (accepted rx s 8).body.inGroup (rx.typed 8).frame.src.toNat = true)
    (hn : fld (rx.typed 8).frame.arg 0 3 = 1) :
    exec (.decisionFrame rx) s = .next { s with body := (accepted rx s 8).body.importUpd (updateOf (rx.typed 8)) } := by
  have hu : (⟨(rx.typed 8).ringB, (rx.typed 8).frame.src.toNat, bitsAt (fld (rx.typed 8).frame.d2 44 20) 10 10,
      bitsAt (fld (rx.typed 8).frame.d2 44 20) 2 8, fld (rx.typed 8).frame.d1 48 16, fld (rx.typed 8).frame.d1 12 36⟩ : ImportUpd) =
        updateOf (rx.typed 8) := by
    rw [fld, bitsAt_bitsAt _ _ _ _ _ (by omega), bitsAt_bitsAt _ _ _ _ _ (by omega)]; rfl
  refine nextBody_to ((if_pos hd).trans ((if_pos hg).trans ?_))
  rw [decisionUpds_one hn, List.foldl_cons, List.foldl_nil, hu]

theorem exec_eventFrame (hd : (accepted rx s 9).deliver = true) :
    let u := (accepted rx s 9).body
    let ch := fld (rx.typed 9).frame.d2 58 6
    exec (.eventFrame rx) s = .next { s with body :=
      (if (if ch < 32 then u.rbit EV_IMPORT_LO ch else u.rbit EV_IMPORT_HI (ch - 32)) then u.publish s.clock ch (rx.typed 9).frame.d1 0 true else u) } :=
  nextBody_to (if_pos hd)

theorem exec_takeoverFrame : exec (.takeoverFrame rx) s = .next { s with body := s.body.takenOver s.clock (rx.typed 0xB) } := rfl
end

/-! ### What each does, under the premises of its rule -/

section
variable {rx s}

theorem announce_step (h : deliveredAt rx s 5) :
    let u := (accepted rx s 5).body
    let f := (rx.typed 5).frame
    u.anchored = true → u.gridRun = true → u.tideBreak = false → (u.epoch + 1) % 65536 = fld f.d2 48 16 →
      ∃ t, exec (.announce rx) s = .next t ∧ onlyBody s t ∧ t.body.rget GRID_MIRROR_PERIOD = f.d2.extractLsb' 16 32 ∧
        t.body.rget GRID_MIRROR_SHOTLEN = f.d3 ∧ t.body.epoch = u.epoch ∧ t.body.ring.lastAnn = some (f.d1.toNat, fld f.d2 48 16) ∧
        t.body.grid = { u.grid with next := f.d1.toNat, ann := true, annEpoch := fld f.d2 48 16, horizon := false, voted := 0, verdict := none } := by
  intro u f ha hg hb he
  have hr := rget_mirrorsNoted u f
  refine ⟨_, next_body_congr (exec_announce h) (announce_next u s.clock f ha hg hb he), rfl, ?_, ?_, ?_, rfl, rfl⟩
  · exact (hr _).trans (by rw [if_neg (by decide), if_pos rfl])
  · exact (hr _).trans (if_pos rfl)
  · exact (mirrorsNoted_regs u f).rfld (by decide) 0 16

theorem verdict_settles (h : deliveredAt rx s 7) :
    let u := (accepted rx s 7).body
    let f := (rx.typed 7).frame
    u.grid.ann = true → u.grid.verdict = none → f.d1.toNat = u.grid.next → f.arg.getLsbD 1 = false →
      (f.arg.getLsbD 0 = true → ∃ t, exec (.verdict rx) s = .next t ∧ onlyBody s t ∧ t.body.grid = { u.grid with verdict := some true } ∧
        t.body.rget HOLD_LAST = (f.d2.extractLsb' 32 16).setWidth 32) ∧
      (f.arg.getLsbD 0 = false → u.grid.voted = 0 → exec (.verdict rx) s = .next { s with body := { u with grid := { u.grid with verdict := some false } } }) ∧
      (f.arg.getLsbD 0 = false → u.grid.voted ≠ 0 → ∃ t, exec (.verdict rx) s = .next t ∧ t.body.grid = { u.grid with verdict := some true } ∧
        t.body.rbit RING_STATUS 17 = true) := by
  intro u f ha hv hn h1
  have he := exec_verdict h
  refine ⟨fun h0 => ?_, fun h0 hvote => ?_, fun h0 hvote => ?_⟩
  · refine ⟨_, next_body_congr he (verdictFrame_holds u s.clock f ha hv hn h1 h0), rfl, rfl, ?_⟩
    exact (u.rget_rset HOLD_LAST _).trans (r32_fld_short _ _ _)
  · exact next_body_congr he (verdictFrame_starts u s.clock f ha hv hn h1 h0 hvote)
  · refine ⟨_, next_body_congr he (verdictFrame_overruled u s.clock f ha hv hn h1 h0 hvote), ?_, ?_⟩
    · exact (missOne_grid _).trans (ringFlag_grid _ _ _)
    · exact (rbit_missOne _ _ _).trans (ringFlag_sets _ _ (by omega))

theorem anchorFrame_setsInstant (h : deliveredAt rx s 0xA) :
    let u := (accepted rx s 0xA).body
    let f := (rx.typed 0xA).frame
    let instant : Int := 16 * s.clock.cyc + rx.sub.toNat + 16 * fld f.d2 4 24 - fld f.d2 28 32 - u.ingress rx.ringB
    2000 ≤ instant → ∃ at_ : Nat, (16 * (at_ : Int) - instant).natAbs ≤ 8 * u.refPeriod ∧
      ((s.clock.phase.toNat : Int) + (at_ - s.clock.cyc)) % u.refPeriod = u.refResidue ∧
      exec (.anchorFrame rx) s = .next { s with body := { u with grid := { u.grid with anchorAt := some at_, anchorSet := some (f.d1 ++ f.d3) } } } := by
  intro u f instant hi
  have ht : ((s.clock.stamp (rx.typed 0xA).sub.toNat : Nat) : Int) + 16 * fld f.d2 4 24 - fld f.d2 28 32 - u.ingress (rx.typed 0xA).ringB = instant := by
    simp only [instant, Clock.stamp]
    push_cast
    rfl
  obtain ⟨h1, h2⟩ := edgeNear_spec u s.clock hi
  refine ⟨u.edgeNear s.clock instant, h1, h2, (exec_anchorFrame h).trans ?_⟩
  rw [← anchorSet_eq, ← ht]
  rfl
end

/-- Settles O23, frame by frame: what its function makes of the body that acceptance leaves. -/
theorem ringProtocolFrames : Obligations.RingProtocolFrames := by
  intro rx s ty
  dsimp only
  simp only [← fld_eq_extract]
  refine ⟨?_, ?_, ?_, ?_, ?_, ?_, ?_, ?_, ?_⟩
  · rintro rfl h ha hg hb he
    exact announce_step h ha hg hb he
  · rintro rfl hd hl ha hv hn
    exact next_body_congr (exec_holdVote hd hl) (holdVote_counts _ _ _ ha hv hn)
  · rintro rfl h ha hv hn h1
    exact verdict_settles h ha hv hn h1
  · rintro rfl hd hg hn
    have he := exec_decisionFrame hd ((inGroup_iff _ _).2 hg) hn
    exact ⟨fun hf => next_body_congr he (importUpd_free _ hf), fun hf => next_body_congr he (importUpd_waits _ hf)⟩
  · rintro rfl hd
    exact exec_eventFrame hd
  · rintro rfl h hi
    have hing := (ingress_eq (accepted rx s 0xA).body rx.ringB).trans (fld_eq_extract _ 0 20).symm
    rw [← hing] at hi ⊢
    exact anchorFrame_setsInstant h hi
  · rintro rfl hen hsrc hb hh hs ht
    have ht2 : s.body.rfld RING_STATUS 24 8 < (rx.typed 0xB).frame.term.toNat := by
      rw [Body.rfld, fld_eq_extract]; exact ht
    obtain ⟨h10, h4, h24, h20⟩ := takenOver_higher rfl hen hsrc hb hh hs ht2
    exact ⟨_, exec_takeoverFrame, rfl, h10, h4, extract_eq_of_fld h24, extract_eq_of_fld h20⟩
  · rintro rfl hsrc hd
    refine ⟨_, next_body_congr (exec_linkFrame rx hsrc) (if_pos hd), rfl, ?_⟩
    exact linkFrame_status _ s.clock (rx.typed 0xC)
  · rintro rfl hsrc hd hfirst hh hB
    refine ⟨_, next_body_congr (exec_linkFrame rx hsrc) ((if_neg (ne_true_of_eq_false hd)).trans (if_pos (Option.isSome_iff_ne_none.2 hfirst))), rfl, ?_, ?_⟩
    · exact linkNeighbour_down _ (rx.typed 0xC) hh hB
    · exact linkNeighbour_status _ (rx.typed 0xC)
end

end Sys2Proof.Machine
end

section
/-! Time heard of the Lighthouse (R63, R66, R72), round trips (R60, R61) and the loop (R62). -/

namespace Sys2Proof.Machine

/-! ### The registers of a body are those of its parts -/

section
variable (b : Body) (r : RingSt)

theorem rget_with_ring (j : Nat) : ({ b with ring := r } : Body).rget j = b.rget j := rfl
theorem rbit_with_ring (j i : Nat) : ({ b with ring := r } : Body).rbit j i = b.rbit j i := rfl
end

/-! ### TIME at a member (R63, R66, R72) -/

/-- On an unwrapped ring the copy waits at the output of its ring with HOPS one more (R56 rule 6). -/
def Body.passedOn (b : Body) (c : Clock) (rx : Rx) (u : Body) : Prop := b.rbit RING_STATUS 3 = false → rx.ringB = false →
  u.ring.txB = b.ring.txB ∧ u.ring.txA = enqueueTx
    ⟨{ rx.frame with hops := rx.frame.hops + 1 }, some (16 * c.cyc + rx.sub.toNat), b.ingress rx.ringB⟩ b.ring.txA

/-- A copy of the Lighthouse's frame has been accepted: the frames that wait, those seen, and when the Lighthouse was heard. -/
structure Body.heardAs (b : Body) (c : Clock) (rx : Rx) (u : Body) : Prop where
  frame : ∃ ta tb sn, u = { b with ring := { b.ring with txA := ta, txB := tb, seen := sn, lastLh := c.cyc } }
  passed : b.passedOn c rx u

section
variable {b u : Body} {c : Clock} {rx : Rx}

theorem Body.heardAs.rget (h : b.heardAs c rx u) (j : Nat) : u.rget j = b.rget j := by
  obtain ⟨ta, tb, sn, rfl⟩ := h.frame; rfl

theorem Body.heardAs.rbit (h : b.heardAs c rx u) (j i : Nat) : u.rbit j i = b.rbit j i := by
  obtain ⟨ta, tb, sn, rfl⟩ := h.frame; rfl

theorem Body.heardAs.rfld (h : b.heardAs c rx u) (j lo len : Nat) : u.rfld j lo len = b.rfld j lo len := by
  obtain ⟨ta, tb, sn, rfl⟩ := h.frame; rfl

theorem Body.heardAs.ring (h : b.heardAs c rx u) : u.ring.offs = b.ring.offs ∧ u.ring.timeHeld = b.ring.timeHeld ∧ u.ring.lastLh = c.cyc := by
  obtain ⟨ta, tb, sn, rfl⟩ := h.frame; exact ⟨rfl, rfl, rfl⟩

theorem Body.heardAs.copy (h : b.heardAs c rx u) : u.timeCopy c rx c.cyc = b.timeCopy c rx c.cyc := by
  obtain ⟨ta, tb, sn, rfl⟩ := h.frame; rfl

theorem heardCopy_heard (hty : rx.frame.type ≠ 6) : b.heardAs c rx (b.heardCopy c rx) := by
  obtain ⟨ta, tb, sn, h, hq⟩ := heardCopy_frame (b := b) (c := c) hty
  refine ⟨⟨ta, tb, sn, h⟩, ?_⟩
  rw [h]; exact hq

section
variable (h : b.fromMyLh rx.frame) (hty : rx.frame.type = 1) (hm : b.rbit RING_STATUS 4 = false)
include h hty hm

/-- The Lighthouse is followed, and its time used or held. -/
theorem timeHeard_member : ∃ u, b.heardAs c rx u ∧ u.actingLh = false ∧ u.fromLh rx.frame = true ∧
    b.timeHeard c rx = u.timeFrame c ⟨u, (b.seenBefore c rx).isNone, b.seenBefore c rx⟩ rx := by
  have hu : b.heardAs c rx (b.heardCopy c rx) := heardCopy_heard (by rw [hty]; decide)
  refine ⟨_, hu, ?_, ?_, ?_⟩
  · rw [Body.actingLh, hu.rbit RING_STATUS 4, hm, Bool.and_false]
  · have hk : (b.heardCopy c rx).ring.lhKnown = true := by
      obtain ⟨ta, tb, sn, hf⟩ := hu.frame
      rw [hf]; exact h.known
    rw [Body.fromLh, hk, hu.rfld, h.src, decide_eq_true rfl, Bool.true_and]
  · rw [Body.timeHeard, accept_lh h (by rw [hty]; decide)]
    exact if_pos (by cases b.seenBefore c rx <;> rfl)

/-- A copy no other can better is used at once. -/
theorem timeHeard_uses (hn : b.seenBefore c rx = none) (hB : rx.ringB = false) (hh : rx.frame.hops = 0) :
    ∃ u, b.heardAs c rx u ∧ b.timeHeard c rx = u.useTime c (b.timeCopy c rx c.cyc) := by
  obtain ⟨u, hu, hl, hf, he⟩ := timeHeard_member (c := c) h hty hm
  exact ⟨u, hu, by rw [he, timeFrame_uses hl hf (by rw [hn]; rfl) hh hB, hu.copy]⟩

/-- Any other waits for its twin. -/
theorem timeHeard_holds (hn : b.seenBefore c rx = none) (ho : ¬ (rx.frame.hops = 0 ∧ rx.ringB = false)) :
    ∃ u, b.heardAs c rx u ∧ b.timeHeard c rx = { u with ring := { u.ring with timeHeld := b.ring.timeHeld ++ [b.timeCopy c rx c.cyc] } } := by
  obtain ⟨u, hu, hl, hf, he⟩ := timeHeard_member (c := c) h hty hm
  exact ⟨u, hu, by rw [he, timeFrame_holds hl hf (by rw [hn]; rfl) ho, hu.copy, hu.ring.2.1]⟩

/-- With the twin of a held copy the better of the two is used. -/
theorem timeHeard_twin {x : HeldTime} (hn : b.seenBefore c rx ≠ none) (hx : b.ring.timeHeld = [x]) (ht : (b.timeCopy c rx c.cyc).twin x = true) :
    ∃ u, b.heardAs c rx u ∧
      b.timeHeard c rx = ({ u with ring := { u.ring with timeHeld := [] } } : Body).useTime c ((b.timeCopy c rx c.cyc).better x) := by
  obtain ⟨u, hu, hl, hf, he⟩ := timeHeard_member (c := c) h hty hm
  obtain ⟨y, hy⟩ := Option.ne_none_iff_exists'.1 hn
  refine ⟨u, hu, ?_⟩
  rw [he, timeFrame_twin hl hf (by rw [hy]; rfl) (hu.ring.2.1.trans hx) (by rw [hu.copy]; exact ht), hu.copy]
end

/-- An offset within bounds and without a slip: TIME_OFFSET, SETTLED and the servo's list. -/
theorem useTime_shows {x : HeldTime} (hs : x.slip = false) (ho : x.off.natAbs ≤ 16000) (hb : u.tideBreak = false) :
    let v := u.useTime c x
    v.rget TIME_OFFSET = BitVec.ofInt 32 x.off ∧ v.rbit RING_STATUS 5 = decide (x.off.natAbs ≤ u.rfld SERVO_CFG 12 8) ∧
    v.ring = { u.ring with offs := u.ring.offs ++ [x.off] } ∧ u.regsKept [TIME_OFFSET, RING_STATUS] v := by
  dsimp only
  obtain ⟨h1, h2⟩ := offsetNoted_shows u x ho
  rw [useTime_fits u c x hs ho hb, rget_with_ring, rbit_with_ring]
  refine ⟨h1, h2, rfl, fun j hj => ?_⟩
  rw [rget_with_ring]
  exact (offsetNoted_tended u x).regs j hj
end

/-! ### Links measured (R60, R61) -/

section
variable {b : Body} {c : Clock} {rx : Rx}

theorem ingressUpdate_tended (b : Body) : b.tended [LINK_A_IN, LINK_B_IN, RING_STATUS] [7] b.ingressUpdate := by
  let up := roundEven ((b.rfld LINK_UP_RTT 0 20 : Int) + b.ring.useUp) 2
  let dn := roundEven ((b.rfld LINK_DN_RTT 0 20 : Int) - b.ring.useDn) 2
  have h : b.tended [LINK_A_IN, LINK_B_IN] [] ((b.rset LINK_A_IN (r32 (wrap 20 up))).rset LINK_B_IN (r32 (wrap 20 dn))) :=
    .of_regs (((Body.regsKept.refl _ b).rset (by simp) _).rset (by simp) _) (by decide) (by rw [Body.rset_ring, Body.rset_ring])
  exact .ite (h.trans (suspect_tended _)) (h.mono (by simp) (by simp))

/-- A frame a neighbour consumes, of the term in force (R56, R71). -/
theorem accept_neighbour (hen : b.ringEn = true) (hsrc : rx.frame.src.toNat ≠ b.devId) (hty : lhFrame rx.frame.type.toNat = false)
    (ht : rx.frame.term.toNat = b.rfld RING_STATUS 24 8) : b.accept c rx true = ⟨b, true, none⟩ := by
  rw [accept_direct hen hsrc, follow_same hty ht]

theorem delayResp_matches {dep : Nat} (hB : rx.ringB = false) (hreq : b.ring.reqB = some (rx.frame.d1.extractLsb' 0 16, some dep)) :
    b.delayResp c rx = ({ b with ring := { b.ring with reqB := none } } : Body).roundTrip true
      ((c.stamp rx.sub.toNat : Int) - dep - fld rx.frame.d2 28 32) := by
  have h : (rx.frame.d1.extractLsb' 0 16).toNat = fld rx.frame.d1 0 16 := (fld_eq_extract _ _ _).symm
  simp [Body.delayResp, hB, hreq, h]

/-- A round trip joins the last seven of its pair. -/
theorem roundTrip_up (rtt : Int) :
    let l := (b.ring.rttUp ++ [rtt]).drop (b.ring.rttUp.length + 1 - 8)
    ∃ ks is v, v.ring = { b.ring with rttUp := l, newUp := b.ring.newUp + 1 } ∧ Body.tended ks is v (b.roundTrip true rtt) := by
  have hl : (b.ring.rttUp ++ [rtt]).length = b.ring.rttUp.length + 1 := by simp
  refine ⟨_, _, _, ?_, (ingressUpdate_tended _).trans (lockUpdate_tended _)⟩
  simp only [if_true, Body.rset_ring, hl]
  rfl
end

/-! ### The loop (R62) -/

section
variable {b : Body} {c : Clock} {rx : Rx}

/-- Body and asymmetry after the second return. -/
theorem loopReturn_second {d : Nat} {a : Int × Int} (hB : rx.ringB = true) (hd : b.ring.loopDepB = some d) (ha : b.ring.loopA = some a) :
    let v := a.1 - ((c.stamp rx.sub.toNat : Int) - d - fld rx.frame.d2 28 32) - a.2
    let u : Body := { b.rset LOOP_ASYM (r32 (wrap 32 v)) with ring := { b.ring with loopA := none, loopB := none, loopDepB := none } }
    b.loopReturn c rx = if 32 < v.natAbs then u.suspect else u := by
  simp only [Body.loopReturn, hB, hd, ha, if_true]
  rfl
end

end Sys2Proof.Machine
end

section
/-! Control of the ring: locks, breaks and wraps (R74 to R78), the constants of the links (R61, R78), RING_CTL (R51, R85), silence (R70) and the
servo (R64). -/

namespace Sys2Proof.Machine

/-! ### Locks gained and lost (R74, R75, R82) -/

section
variable (b : Body) (c : Clock) (ringB : Bool)

/-- Block lock gained: the link is measured anew. -/
def Body.lockGained : Body :=
  let was := if ringB then b.ring.brokenB else b.ring.brokenA
  let keep := b.rbit RING_STATUS 3
  let r := if ringB then { b.ring with lockSinceB := c.cyc, brokenB := was && keep, rttDn := [], newDn := 0 }
    else { b.ring with lockSinceA := c.cyc, brokenA := was && keep, rttUp := [], newUp := 0 }
  { b with ring := r }.rsetBit RING_STATUS (if ringB then 1 else 0) true

/-- Lock lost for 1,000 cc. -/
def Body.lockLost : Body :=
  let r := { b.ring with unwrapStaged := false }
  let r := if ringB then { r with brokenB := true, rttDn := [], newDn := 0 } else { r with brokenA := true, rttUp := [], newUp := 0 }
  { b with ring := r }.rsetBit RING_STATUS (if ringB then 1 else 0) false

section
variable (hen : b.ringEn = true)
include hen

theorem linkUp_tended : ∃ ks, (b.lockGained c ringB).tended ks [7, 3, 2, 6] (b.linkUp c ringB) := by
  let u := b.lockGained c ringB
  let was := if ringB then b.ring.brokenB else b.ring.brokenA
  have he : b.linkUp c ringB = (((if was then u.suspect else u).wrapCheck.sendLink true).lockUpdate).freeze c := by
    unfold Body.linkUp
    rw [hen, Bool.not_true, if_neg Bool.false_ne_true]
    rfl
  have h1 : u.tended [RING_STATUS] [7] (if was then u.suspect else u) := .ite (suspect_tended u) (.refl _ _ u)
  rw [he]
  exact ⟨_, ((((h1.trans (wrapCheck_tended _)).trans (sendLink_tended _ true)).trans (lockUpdate_tended _)).trans (freeze_tended _ c)).mono
    (List.Subset.refl _) (by simp)⟩

theorem ringBreak_tended : ∃ ks, (b.lockLost ringB).wrapCheck.tended ks [2, 6] (b.ringBreak c ringB) := by
  have he : ∃ d, b.ringBreak c ringB = ((((b.lockLost ringB).wrapCheck).fault c 0x0B d 0).lockUpdate).freeze c := ⟨_, if_neg (by rw [hen]; decide)⟩
  obtain ⟨d, he⟩ := he
  rw [he]
  exact ⟨_, ((fault_tended _ c 0x0B d 0).trans (lockUpdate_tended _)).trans (freeze_tended _ c)⟩
end

theorem lockGained_lock : (b.lockGained c ringB).rbit RING_STATUS (if ringB then 1 else 0) = true :=
  Body.rbit_rsetBit_same _ _ _ _ (by split <;> omega)

theorem lockLost_lock : (b.lockLost ringB).rbit RING_STATUS (if ringB then 1 else 0) = false :=
  Body.rbit_rsetBit_same _ _ _ _ (by split <;> omega)

theorem lockLost_other {i : Nat} (hi : i < 32) (h : i ≠ if ringB then 1 else 0) : (b.lockLost ringB).rbit RING_STATUS i = b.rbit RING_STATUS i := by
  rw [Body.lockLost, (Body.tended.setsBit _ _ false).bits i hi (by simpa using h), rbit_with_ring]

/-- A link that gains lock forgets the round trips of its own pair. -/
theorem linkUp_shows (hen : b.ringEn = true) : let u := b.linkUp c ringB
    u.rbit RING_STATUS (if ringB then 1 else 0) = true ∧
    (if ringB then u.ring.rttDn = [] ∧ u.ring.lockSinceB = c.cyc ∧ u.ring.rttUp = b.ring.rttUp
     else u.ring.rttUp = [] ∧ u.ring.lockSinceA = c.cyc ∧ u.ring.rttDn = b.ring.rttDn) := by
  obtain ⟨ks, h⟩ := linkUp_tended b c ringB hen
  obtain ⟨ta, tb, sq, nu, nd, ls, hr, _⟩ := h.ring
  refine ⟨(h.bits _ (by split <;> omega) (by cases ringB <;> simp)).trans (lockGained_lock b c ringB), ?_⟩
  rw [hr, Body.lockGained, Body.rsetBit_ring]
  cases ringB
  · exact ⟨rfl, rfl, rfl⟩
  · exact ⟨rfl, rfl, rfl⟩

/-- A broken input is out of lock, and the device wraps if it may (R75). -/
theorem ringBreak_shows (hen : b.ringEn = true) : let u := b.ringBreak c ringB
    u.rbit RING_STATUS (if ringB then 1 else 0) = false ∧ (if ringB then u.ring.brokenB = true else u.ring.brokenA = true) ∧
    u.rbit RING_STATUS 3 = (b.rbit RING_STATUS 3 || (b.rbit RING_CTL 8 && b.rbit RING_STATUS (if ringB then 0 else 1))) := by
  obtain ⟨ks, h⟩ := ringBreak_tended b c ringB hen
  have hw := wrapCheck_tended (b.lockLost ringB)
  have hlost := lockLost_lock b ringB
  have hctl : (b.lockLost ringB).rbit RING_CTL 8 = b.rbit RING_CTL 8 := by
    rw [Body.lockLost, Body.rbit_rsetBit_other _ (by decide), rbit_with_ring]
  have h3 := lockLost_other b ringB (i := 3) (by omega) (by split <;> omega)
  have hoth := lockLost_other b ringB (i := if ringB then 0 else 1) (by split <;> omega) (by cases ringB <;> simp)
  have hring : (b.lockLost ringB).ring = _ := Body.rsetBit_ring _ _ _ _
  obtain ⟨ta, tb, sq, nu, nd, ls, hr, _⟩ := hw.ring
  obtain ⟨_, _, _, _, _, _, kr, _⟩ := h.ring
  dsimp only
  refine ⟨(h.bits _ (by split <;> omega) (by cases ringB <;> simp)).trans
    ((hw.bits _ (by split <;> omega) (by cases ringB <;> simp)).trans hlost), ?_, ?_⟩
  · rw [kr, hr, hring]
    cases ringB
    · rfl
    · rfl
  · rw [h.bits 3 (by decide) (by decide), wrapCheck_wraps, h3, hctl, hring]
    cases ringB
    · have k0 : (b.lockLost false).rbit RING_STATUS 0 = false := hlost
      have k1 : (b.lockLost false).rbit RING_STATUS 1 = b.rbit RING_STATUS 1 := hoth
      rw [k0, k1]; simp
    · have k0 : (b.lockLost true).rbit RING_STATUS 0 = b.rbit RING_STATUS 0 := hoth
      have k1 : (b.lockLost true).rbit RING_STATUS 1 = false := hlost
      rw [k0, k1]; simp
end

/-! ### Unwrapping (R76) -/

section
variable {b : Body} {c : Clock}

/-- The near end of pair A has held lock, and so has the far end, while pair B never failed. -/
theorem unwrap_ready (h3 : b.rbit RING_STATUS 3 = true) (hA : b.ring.brokenA = true) (hB : b.ring.brokenB = false) (h0 : b.rbit RING_STATUS 0 = true)
    (ht : b.ring.lockSinceA + 1000000 ≤ c.cyc) (hf : Config.farLock false c.cyc = true) :
    b.unwrap c = if b.gridRun then { b with ring := { b.ring with unwrapStaged := true } } else b.unwrapNow.freeze c := by
  simp [Body.unwrap, h3, hA, hB, h0, ht, hf]

theorem unwrap_waits (h : b.rbit RING_STATUS 3 = false ∨ (b.ring.brokenA = true ∧ Config.farLock false c.cyc = false)) : b.unwrap c = b := by
  refine if_neg ?_
  rcases h with h | ⟨h1, h2⟩
  · simp [h]
  · simp [h1, h2]

theorem unwrapNow_unwraps : (b.unwrapNow.freeze c).rbit RING_STATUS 3 = false ∧ (b.unwrapNow.freeze c).ring.brokenA = false := by
  let u : Body := { b with ring := { b.ring with brokenA := false, brokenB := false, unwrapStaged := false } }
  have h : (u.rsetBit RING_STATUS 3 false).tended _ _ (b.unwrapNow.freeze c) :=
    ((suspect_tended _).trans (lockUpdate_tended _)).trans (freeze_tended _ c)
  obtain ⟨_, _, _, _, _, _, hr, _⟩ := h.ring
  refine ⟨(h.bits 3 (by decide) (by decide)).trans (Body.rbit_rsetBit_same _ _ _ _ (by omega)), ?_⟩
  rw [hr, Body.rsetBit_ring]
end

/-! ### The constants of the links (R61, R78) -/

section
variable {b : Body} {c : Clock} {v : Reg32}

theorem sval_fld (n : Nat) (x : Reg32) : sval n x.toNat = (x.extractLsb' 0 n).toInt := by
  rw [← sval_toNat, ← fld_eq_extract, fld, bitsAt, sval, sval]
  simp

theorem ringReject_shows (b : Body) (c : Clock) : (b.ringReject c).rbit RING_STATUS 8 = true ∧ (b.ringReject c).ring = b.ring ∧
    (b.ringReject c).rget RING_CTL = b.rget RING_CTL :=
  ⟨ringFlag_sets b c (by omega), ringFlag_ring b c 8, (ringFlag_tended b c 8).regs _ (by decide)⟩

theorem asymConfirm_mismatch (h0 : bit v 0 = true) (hm : b.asymMismatch = true) : b.asymConfirm c v = b.ringReject c := by
  simp [Body.asymConfirm, h0, hm]

/-- The constants written come into use, and ASYM_SUSPECT clears. -/
theorem asymConfirm_uses (h0 : bit v 0 = true) (hm : b.asymMismatch = false) (hu : 8 ≤ b.ring.newUp) (hd : 8 ≤ b.ring.newDn) :
    let u := b.asymConfirm c v
    u.ring.useUp = ((b.rget ASYM_UP).extractLsb' 0 16).toInt ∧ u.ring.useDn = ((b.rget ASYM_DN).extractLsb' 0 16).toInt ∧
    u.rbit RING_STATUS 7 = false ∧ b.regsKept [LINK_A_IN, LINK_B_IN, RING_STATUS] u := by
  let r := { b.ring with useUp := sval 16 (b.rnat ASYM_UP), useDn := sval 16 (b.rnat ASYM_DN), confA := none, confB := none }
  have hk := ingressUpdate_tended { b with ring := r }
  have he : ∃ q : RingSt, q.useUp = r.useUp ∧ q.useDn = r.useDn ∧
      b.asymConfirm c v = { ({ b with ring := r } : Body).ingressUpdate with ring := q }.rsetBit RING_STATUS 7 false := by
    obtain ⟨_, _, _, _, _, _, hr, _⟩ := hk.ring
    refine ⟨{ ({ b with ring := r } : Body).ingressUpdate.ring with
      confA := some (({ b with ring := r } : Body).ingressUpdate.rfld LINK_A_IN 0 20 : Int),
      confB := some (({ b with ring := r } : Body).ingressUpdate.rfld LINK_B_IN 0 20 : Int) }, ?_, ?_, ?_⟩
    · rw [hr]
    · rw [hr]
    · simp [Body.asymConfirm, h0, hm, hu, hd, r]
  obtain ⟨q, h1, h2, he⟩ := he
  dsimp only
  rw [he, Body.rsetBit_ring]
  refine ⟨h1.trans (sval_fld 16 _), h2.trans (sval_fld 16 _), Body.rbit_rsetBit_same _ _ _ _ (by omega), ?_⟩
  have h3 : b.regsKept [LINK_A_IN, LINK_B_IN, RING_STATUS] { ({ b with ring := r } : Body).ingressUpdate with ring := q } := fun j hj => by
    rw [rget_with_ring, hk.regs j hj, rget_with_ring]
  exact h3.rsetBit (by simp) _ _
end

/-! ### RING_CTL (R51, R60, R85) -/

section
variable {b : Body} {c : Clock} {v : Reg32}

theorem bit_ctl (v : Reg32) {i : Nat} (h : i < 9) : bit (v &&& 0x1FF) i = bit v i := by
  have hm : ∀ i < 9, (0x1FF : Reg32).getLsbD i = true := by decide
  rw [bit, BitVec.getLsbD_and, hm i h, Bool.and_true, bit]

theorem fld_ctl (v : Reg32) {lo len : Nat} (h : lo + len ≤ 9) : fld (v &&& 0x1FF) lo len = fld v lo len :=
  fld_of_bits fun _ _ hi => bit_ctl v (by omega)

/-- RING_CTL written: the register, and a change of role that waits. -/
def Body.ctlStored (b : Body) (v : Reg32) : Body :=
  let w := b.rset RING_CTL (v &&& 0x1FF)
  if b.ringEn && w.gridRun && fld v 4 2 != b.role then { w with ring := { w.ring with roleStaged := some b.role } }
  else { w with ring := { w.ring with roleStaged := none } }

theorem rget_ctlStored (j : Nat) : (b.ctlStored v).rget j = if j = RING_CTL then v &&& 0x1FF else b.rget j := by
  unfold Body.ctlStored
  dsimp only
  split
  · rw [rget_with_ring, Body.rget_rset_ite]
  · rw [rget_with_ring, Body.rget_rset_ite]

theorem ctlStored_free : (b.ctlStored v).free = b.free := by
  unfold Body.ctlStored
  dsimp only
  split
  · rfl
  · rfl

theorem writeRingCtl_taken (h : b.ringCtlOk v = true) : b.writeRingCtl c v =
    let u := if bit v 9 then (b.ctlStored v).remeasure else b.ctlStored v
    if bit v 6 && ! b.ringEn then u.ringOpen c else if ! bit v 6 && b.ringEn then u.ringClose else if b.ringEn then u.wrapCheck.freeze c else u :=
  if_pos h

theorem writeRingCtl_refused (h : fld v 4 2 = 3) : b.writeRingCtl c v = b.ringReject c := if_neg (by simp [Body.ringCtlOk, h])

/-- A ring opened with ROLE Lighthouse (R51). -/
theorem ringOpen_lh (hr : fld (b.rget RING_CTL) 4 2 = 1) : let u := b.ringOpen c
    u.rbit RING_STATUS 4 = true ∧ u.rfld RING_STATUS 20 4 = b.devId ∧ u.free = b.free + 1 ∧ b.regsKept [RING_STATUS] u := by
  have he : ∃ r, b.ringOpen c = ((({ b with ring := r } : Body).draw.rsetBit RING_STATUS 4 true).rsetFld RING_STATUS 20 4 b.devId) :=
    ⟨_, if_pos (by rw [Body.rfld, hr]; rfl)⟩
  obtain ⟨r, he⟩ := he
  let w : Body := ({ b with ring := r } : Body).draw
  have hid : b.devId % 2 ^ 4 = b.devId := Nat.mod_eq_of_lt (fld_lt _ 0 4)
  dsimp only
  rw [he]
  refine ⟨?_, ?_, rfl, ?_⟩
  · rw [Body.rbit, Body.rget_rsetFld, if_pos rfl, bit_setFld_other _ _ _ _ (by omega) (by omega)]
    exact Body.rbit_rsetBit_same w _ _ _ (by omega)
  · rw [Body.rfld, Body.rget_rsetFld, if_pos rfl, fld_setFld_same _ _ _ _ (by omega), hid]
  · have h1 : b.regsKept [RING_STATUS] w := fun _ _ => rfl
    exact (h1.rsetBit (by simp) 4 true).rsetFld (by simp) _ _ _

/-- RING_EN with ROLE Lighthouse (R51). -/
theorem writeRingCtl_opens (hr : fld v 4 2 = 1) (h6 : bit v 6 = true) (h9 : bit v 9 = false) (hen : b.ringEn = false) :
    let u := b.writeRingCtl c v
    u.rget RING_CTL = v &&& 0x1FF ∧ u.ringEn = true ∧ u.rbit RING_STATUS 4 = true ∧ u.rfld RING_STATUS 20 4 = fld v 0 4 ∧ u.free = b.free + 1 := by
  have he := writeRingCtl_taken (c := c) (show b.ringCtlOk v = true by simp [Body.ringCtlOk, hr, hen])
  let w := b.ctlStored v
  have hw : w.rget RING_CTL = v &&& 0x1FF := (rget_ctlStored _).trans (if_pos rfl)
  obtain ⟨h1, h2, h3, h4⟩ := ringOpen_lh (b := w) (c := c) (by rw [hw, fld_ctl v (by omega), hr])
  have hu : b.writeRingCtl c v = w.ringOpen c := by
    rw [he, h6, h9, hen]; rfl
  have hctl : (w.ringOpen c).rget RING_CTL = v &&& 0x1FF := (h4 _ (by decide)).trans hw
  dsimp only
  rw [hu]
  refine ⟨hctl, ?_, h1, ?_, h3.trans (by rw [ctlStored_free])⟩
  · rw [Body.ringEn, Body.rbit, hctl, bit_ctl v (by omega), h6]
  · rw [h2, Body.devId, Body.rfld, hw, fld_ctl v (by omega)]

/-- REMEASURE with the settings in force (R60). -/
theorem writeRingCtl_remeasures (hv : v &&& 0x1FF = b.rget RING_CTL &&& 0x1FF) (hr : fld (b.rget RING_CTL) 4 2 ≠ 3) (h9 : bit v 9 = true) :
    let u := b.writeRingCtl c v
    u.ring.rttUp = [] ∧ u.ring.rttDn = [] ∧ u.ring.newUp = 0 ∧ u.ring.newDn = 0 ∧ u.rget RING_CTL = v &&& 0x1FF := by
  have hf : ∀ {lo len}, lo + len ≤ 9 → fld v lo len = fld (b.rget RING_CTL) lo len := fun h => by rw [← fld_ctl v h, hv, fld_ctl _ h]
  have h6 : bit v 6 = b.ringEn := by rw [← bit_ctl v (by omega), hv, bit_ctl _ (by omega)]; rfl
  have h42 := hf (lo := 4) (len := 2) (by omega)
  have h04 := hf (lo := 0) (len := 4) (by omega)
  have he := writeRingCtl_taken (c := c) (show b.ringCtlOk v = true by simp [Body.ringCtlOk, h42, h04, hr])
  let w := b.ctlStored v
  let x : Body := { w with ring := { w.ring with rttUp := [], rttDn := [], newUp := 0, newDn := 0 } }
  have hu : b.writeRingCtl c v = if b.ringEn then w.remeasure.wrapCheck.freeze c else w.remeasure := by
    rw [he, h9, h6]
    cases b.ringEn <;> rfl
  have hx : x.rget RING_CTL = v &&& 0x1FF := (rget_with_ring _ _ _).trans ((rget_ctlStored _).trans (if_pos rfl))
  have hm : x.tended [RING_STATUS, MEMBER_LOCK] [2] w.remeasure := lockUpdate_tended x
  have ht : x.tended [RING_STATUS, MEMBER_LOCK, TIDE_STATUS, TIDE_INC] [2, 3, 6, 7] (b.writeRingCtl c v) := by
    rw [hu]
    exact .ite (((hm.trans (wrapCheck_tended _)).trans (freeze_tended _ c)).mono (by simp) (by simp)) (hm.mono (by simp) (by simp))
  obtain ⟨_, _, _, nu, nd, _, hring, hn⟩ := ht.ring
  have hn0 : nu = 0 ∧ nd = 0 := hn.elim id id
  dsimp only
  rw [hring]
  exact ⟨rfl, rfl, hn0.1, hn0.2, (ht.regs _ (by decide)).trans hx⟩
end

/-! ### Silence (R70) -/

section
variable {b : Body} {c : Clock}

/-- The device takes over with the next term. -/
def Body.tookOver (b : Body) (c : Clock) : Body :=
  let u := b.ringFlag c 9
  let u := u.rsetFld RING_STATUS 24 8 (u.rfld RING_STATUS 24 8 + 1)
  let u := ((u.sendBoth 0xB 0 true 1 0 0 0).rsetBit RING_STATUS 4 true).ringFlag c 10
  u.rsetFld RING_STATUS 20 4 u.devId

theorem tookOver_shows : let u := b.tookOver c
    u.rbit RING_STATUS 4 = true ∧ u.rbit RING_STATUS 9 = true ∧ u.rfld RING_STATUS 24 8 = (b.rfld RING_STATUS 24 8 + 1) % 2 ^ 8 ∧
    u.rfld RING_STATUS 20 4 = b.devId := by
  let u := b.ringFlag c 9
  let v := u.rsetFld RING_STATUS 24 8 (u.rfld RING_STATUS 24 8 + 1)
  let x := (v.sendBoth 0xB 0 true 1 0 0 0).rsetBit RING_STATUS 4 true
  let y := x.ringFlag c 10
  have hu := ringFlag_tended b c 9
  have hv := sendBoth_tended v 0xB 0 true 1 0 0 0
  have hx := hv.trans (Body.tended.setsBit (v.sendBoth 0xB 0 true 1 0 0 0) 4 true)
  have hy : x.tended _ _ y := ringFlag_tended x c 10
  have hvy := hx.trans hy
  have hvr : v.rget RING_STATUS = setFld (u.rget RING_STATUS) 24 8 (u.rfld RING_STATUS 24 8 + 1) := by rw [Body.rget_rsetFld, if_pos rfl]
  have hid : y.devId = b.devId := by
    have h1 : v.rget RING_CTL = u.rget RING_CTL := by rw [Body.rget_rsetFld, if_neg (by decide)]
    rw [Body.devId, Body.devId, Body.rfld, Body.rfld, hvy.regs _ (by decide), h1, hu.regs _ (by decide)]
  have hg : (b.tookOver c).rget RING_STATUS = setFld (y.rget RING_STATUS) 20 4 y.devId := by
    have h : b.tookOver c = y.rsetFld RING_STATUS 20 4 y.devId := rfl
    rw [h, Body.rget_rsetFld, if_pos rfl]
  have hbit : ∀ i, i < 20 → (b.tookOver c).rbit RING_STATUS i = y.rbit RING_STATUS i := fun i hi => by
    rw [Body.rbit, hg, bit_setFld_other _ _ _ _ (by omega) (by omega), Body.rbit]
  refine ⟨(hbit 4 (by omega)).trans ?_, (hbit 9 (by omega)).trans ?_, ?_, ?_⟩
  · rw [hy.bits 4 (by decide) (by decide)]
    exact Body.rbit_rsetBit_same _ _ _ _ (by omega)
  · rw [hvy.bits 9 (by decide) (by decide), Body.rbit, hvr, bit_setFld_other _ _ _ _ (by omega) (by omega)]
    exact ringFlag_sets b c (by omega)
  · have h1 : y.rfld RING_STATUS 24 8 = v.rfld RING_STATUS 24 8 := hvy.fld (by omega) (by simp)
    rw [Body.rfld, hg, fld_setFld_other _ _ _ _ _ _ (by omega)]
    exact h1.trans (by rw [Body.rfld, hvr, fld_setFld_same _ _ _ _ (by omega), hu.fld (by omega) (by simp)])
  · rw [Body.rfld, hg, fld_setFld_same _ _ _ _ (by omega), hid]
    exact Nat.mod_eq_of_lt (fld_lt _ 0 4)

theorem lhSilent_takes (hen : b.ringEn = true) (hrole : b.role = 2) (h4 : b.rbit RING_STATUS 4 = false)
    (ht : b.ring.lastLh + b.rfld SYNC_CFG 8 7 * 1000 ≤ c.cyc) (ha : b.anchored = true) (hb : b.tideBreak = false) :
    ∃ r g, b.lhSilent c = { b.tookOver c with ring := r, grid := g } := by
  have hk := (ringFlag_tended b c 9).regs
  have h1 : (b.ringFlag c 9).anchored = true := (hk.rbit (by decide) 0).trans ha
  have h2 : (b.ringFlag c 9).tideBreak = false := (hk.rbit (by decide) 3).trans hb
  unfold Body.lhSilent
  rw [if_pos (by simp [hen, hrole, Body.actingLh, h4, ht])]
  dsimp only
  rw [if_pos (by rw [h1, h2]; rfl)]
  exact ⟨_, _, rfl⟩
end

/-! ### The servo (R64) -/

section
variable {b : Body} {c : Clock}

theorem servoPace_iff : b.servoPace c = true ↔ if b.gridRun = true then b.ring.servoMark ≠ some b.host.commitMark
    else b.ring.servoAt + 1000 * ((b.rget SYNC_CFG).extractLsb' 0 4).toNat ≤ c.cyc := by
  rw [← syncNs_eq, Body.servoPace]
  cases b.gridRun <;> simp

theorem servoStage_waits (h : b.rbit TIDE_CTL 0 = false ∨ b.tideBreak = true ∨ b.ring.offs = [] ∨ ¬ b.servoPace c = true) : b.servoStage c = b := by
  refine if_neg ?_
  rcases h with h | h | h | h <;> simp [h]

/-- The servo stages its increment and empties its list. -/
theorem servoStage_stages (hon : b.rbit TIDE_CTL 0 = true) (hp : b.servoPace c = true) (hl : b.actingLh = false) (h6 : b.rbit RING_STATUS 6 = false)
    (hb : b.tideBreak = false) (ho : b.ring.offs ≠ []) : ∃ r : RingSt, r.offs = [] ∧
      let inc := servoInc b.ring.offs.sum b.ring.offs.length (if b.gridRun then b.gridPeriod else b.syncNs) (b.rfld SERVO_CFG 0 12) (b.rfld SERVO_CFG 12 8)
      b.servoStage c = ({ b with ring := r } : Body).stageInc c (r32 inc.toNat) :=
  ⟨_, rfl, if_pos (by simp [hon, hp, hl, h6, hb, ho])⟩

/-- What shows of it. -/
theorem servoStage_shows (hon : b.rbit TIDE_CTL 0 = true) (hp : b.servoPace c = true) (hl : b.actingLh = false) (h6 : b.rbit RING_STATUS 6 = false)
    (hb : b.tideBreak = false) (ho : b.ring.offs ≠ []) :
    let inc := servoInc b.ring.offs.sum b.ring.offs.length (if b.gridRun then b.gridPeriod else b.syncNs) (b.rfld SERVO_CFG 0 12) (b.rfld SERVO_CFG 12 8)
    let u := b.servoStage c
    b.regsKept [TIDE_INC, TIDE_STATUS] u ∧ u.rget TIDE_INC = r32 inc.toNat ∧ u.rbit TIDE_STATUS 4 = true ∧ u.ring.offs = [] := by
  obtain ⟨r, hr, he⟩ := servoStage_stages hon hp hl h6 hb ho
  dsimp only at he ⊢
  rw [he]
  refine ⟨fun j hj => (stageInc_regs _ c _ j (by simp at hj ⊢; omega)).trans (rget_with_ring b r j), ?_, ?_, ?_⟩
  · rw [rget_stageInc, if_neg (by decide), if_pos rfl]
  · rw [Body.rbit, rget_stageInc, if_pos rfl, bit_setBit_same _ _ _ (by omega)]
  · rw [stageInc_ring]; exact hr

theorem servoInc_deadband {sum : Int} {n period slew deadband : Nat} (h : sum.natAbs ≤ deadband * n) :
    r32 (servoInc sum n period slew deadband).toNat = 0x01000000 := by
  rw [servoInc, if_pos h]; rfl
end

end Sys2Proof.Machine
end

section
/-! What each command of the ring's time transfer and control leaves (R54 to R85). -/

namespace Sys2Proof.Machine

/-! ### A received frame in the terms of its registers -/

section
variable {rx : Rx} {f : Frame} (b : Body) (c : Clock)

theorem term_eq {b : Body} (h : f.term = (b.rget RING_STATUS).extractLsb' 24 8) : f.term.toNat = b.rfld RING_STATUS 24 8 := by
  rw [h, Body.rfld, fld_eq_extract]

theorem src_eq {b : Body} (h : f.src = (b.rget RING_STATUS).extractLsb' 20 4) : f.src.toNat = b.rfld RING_STATUS 20 4 := by
  rw [h, Body.rfld, fld_eq_extract]

theorem typed_slips_iff : b.phaseSlips c (rx.typed 1) = true ↔
    1 < ((c.phase.setWidth 32 - BitVec.ofInt 32 (roundEven ((rx.frame.d2.extractLsb' 28 32).toNat +
      ((if rx.ringB then b.rget LINK_B_IN else b.rget LINK_A_IN).extractLsb' 0 20).toNat : Nat) 16) - rx.frame.d3).toInt).natAbs := by
  rw [phaseSlips_iff, ingress_eq]; rfl

theorem typed_offset : b.timeOffset c (rx.typed 1) =
    ((16 * c.tt.toNat + rx.sub.toNat * (b.rget TIDE_INC_ACT).toNat * 2 ^ 8) / 2 ^ 32 : Nat) -
      (16 * rx.frame.d1.toNat + (rx.frame.d2.extractLsb' 60 4).toNat + (rx.frame.d2.extractLsb' 28 32).toNat +
        ((if rx.ringB then b.rget LINK_B_IN else b.rget LINK_A_IN).extractLsb' 0 20).toNat : Nat) := by
  rw [timeOffset_eq, ingress_eq]; rfl

/-- A copy of the same TIME frame from the other ring. -/
theorem timeCopy_twin {b : Body} {c : Clock} {h : HeldTime} (hB : h.ringB ≠ rx.ringB) (hs : h.src = rx.frame.src) (ht : h.type = 1)
    (hq : h.seq = rx.frame.seq) : (b.timeCopy c (rx.typed 1) c.cyc).twin h = true := by
  have he : (b.timeCopy c (rx.typed 1) c.cyc).twin h = (rx.ringB != h.ringB && rx.frame.src == h.src && 1 == h.type && rx.frame.seq == h.seq) := rfl
  rw [he, hs, ht, hq, bne_iff_ne.2 hB.symm]
  simp
end

/-! ### Frames -/

section
variable {rx : Rx} {s : State}

section
variable (hen : s.body.ringEn = true) (hsrc : rx.frame.src.toNat ≠ s.body.devId) (ht : rx.frame.term.toNat = s.body.rfld RING_STATUS 24 8)
include hen hsrc ht

/-- A request is answered on the other ring (R60). -/
theorem exec_delayReq :
    let u := s.body.sendOne (! rx.ringB) 3 rx.frame.src.toNat false 0 rx.frame.seq.toNat 0 0 (some (16 * s.clock.cyc + rx.sub.toNat))
    exec (.delayReq rx) s = .next { s with body := u } := by
  have ha : s.body.accept s.clock (rx.typed 2) true = ⟨s.body, true, none⟩ := accept_neighbour hen hsrc (show lhFrame 2 = false by decide) ht
  refine nextBody_to ?_
  dsimp only
  rw [ha]
  rfl

theorem exec_delayResp : exec (.delayResp rx) s = .next { s with body := (s.body.delayResp s.clock (rx.typed 3)).freeze s.clock } := by
  have ha : s.body.accept s.clock (rx.typed 3) true = ⟨s.body, true, none⟩ := accept_neighbour hen hsrc (show lhFrame 3 = false by decide) ht
  refine nextBody_to ?_
  dsimp only
  rw [ha]
  rfl

/-- A LOOP of another device passes (R59). -/
theorem exec_loopFrame_passes (hb : rx.frame.bcast = false) (hd : rx.frame.dst.toNat ≠ s.body.devId) (hh : rx.frame.hops.toNat < 30) :
    exec (.loopFrame rx) s = .next { s with body := s.body.forward s.clock (rx.typed 4) } := by
  have hf : s.body.follow s.clock (rx.typed 4).frame = s.body := follow_same (show lhFrame 4 = false by decide) ht
  have ha := accept_passes (rx := rx.typed 4) (c := s.clock) hen hsrc hb hd (by rw [hf]) (show frameClass 4 ≠ 0 by decide) hh
  refine nextBody_to ((if_neg ?_).trans ?_)
  · rw [hen, Bool.true_and]
    exact fun h => hsrc (beq_iff_eq.1 h)
  · rw [ha, hf]
end

/-- A round trip measured on the pair above (R60). -/
theorem delayResp_frame {b : Body} {c : Clock} {dep : Nat} (hB : rx.ringB = false) (hreq : b.ring.reqB = some (rx.frame.d1.extractLsb' 0 16, some dep)) :
    let rtt : Int := (16 * c.cyc + rx.sub.toNat : Int) - dep - (rx.frame.d2.extractLsb' 28 32).toNat
    let u := (b.delayResp c rx).freeze c
    u.ring.reqB = none ∧ u.ring.rttUp = (b.ring.rttUp ++ [rtt]).drop (b.ring.rttUp.length + 1 - 8) ∧ u.ring.rttDn = b.ring.rttDn := by
  obtain ⟨ks, is, w, hw, ht⟩ := roundTrip_up (b := { b with ring := { b.ring with reqB := none } })
    ((16 * c.cyc + rx.sub.toNat : Int) - dep - (rx.frame.d2.extractLsb' 28 32).toNat)
  obtain ⟨_, _, _, _, _, _, hr, _⟩ := ht.ring
  have hs : ((c.stamp rx.sub.toNat : Nat) : Int) = 16 * c.cyc + rx.sub.toNat := by rw [Clock.stamp]; push_cast; rfl
  dsimp only
  rw [freeze_ring, delayResp_matches hB hreq, hs, fld_eq_extract, hr, hw]
  exact ⟨rfl, rfl, rfl⟩

/-- The second return of an own LOOP (R62). -/
theorem loopReturn_shows {b : Body} {c : Clock} {d : Nat} {a : Int × Int} (hB : rx.ringB = true) (hd : b.ring.loopDepB = some d)
    (ha : b.ring.loopA = some a) : let u := b.loopReturn c rx
    b.regsKept [LOOP_ASYM, RING_STATUS] u ∧
    u.rget LOOP_ASYM = BitVec.ofInt 32 (a.1 - ((16 * c.cyc + rx.sub.toNat : Int) - d - (rx.frame.d2.extractLsb' 28 32).toNat) - a.2) ∧
    u.ring.loopA = none ∧ u.ring.loopB = none := by
  have hs : ((c.stamp rx.sub.toNat : Nat) : Int) = 16 * c.cyc + rx.sub.toNat := by rw [Clock.stamp]; push_cast; rfl
  let v : Int := a.1 - ((16 * c.cyc + rx.sub.toNat : Int) - d - (rx.frame.d2.extractLsb' 28 32).toNat) - a.2
  let w : Body := { b.rset LOOP_ASYM (r32 (wrap 32 v)) with ring := { b.ring with loopA := none, loopB := none, loopDepB := none } }
  have he : b.loopReturn c rx = if 32 < v.natAbs then w.suspect else w := by
    rw [loopReturn_second hB hd ha, hs, fld_eq_extract]
  have ht : w.tended [RING_STATUS] [7] (b.loopReturn c rx) := by
    rw [he]; exact .ite (suspect_tended w) (.refl _ _ w)
  have hk : b.regsKept [LOOP_ASYM] w := (Body.regsKept.refl _ b).rset (List.mem_singleton_self _) _
  obtain ⟨_, _, _, _, _, _, hr, _⟩ := ht.ring
  dsimp only
  refine ⟨(hk.mono (by simp)).trans (ht.regs.mono (by simp)), ?_, by rw [hr], by rw [hr]⟩
  rw [ht.regs _ (by decide), rget_with_ring, Body.rget_rset, r32_wrap]

theorem exec_loopFrame_own (hen : s.body.ringEn = true) (hsrc : rx.frame.src.toNat = s.body.devId) :
    exec (.loopFrame rx) s = .next { s with body := s.body.loopReturn s.clock (rx.typed 4) } := by
  refine nextBody_to (if_pos ?_)
  rw [hen, Bool.true_and]
  exact beq_iff_eq.2 hsrc
end

/-! ### Discarded frames (R54, R56) -/

section
variable {rx : Rx} {s : State} {i : Instr}

/-- A command that counts in one register. -/
theorem sets_count {k : Nat} (h : exec i s = .next { s with body := s.body.count k 1 }) : sets i s [(k, satInc (s.body.rget k) 1)] := by
  refine ⟨_, h, rfl, fun j hj => ?_, fun w hw => ?_⟩
  · exact (Body.rget_count _ _ _ _).trans (if_neg (by simpa using hj))
  · obtain rfl := List.mem_singleton.1 hw
    exact (Body.rget_count _ _ _ _).trans (if_pos rfl)

theorem frameDiscard_crc {b : Body} {crc : BitVec 32} (hc : crc ≠ rx.frame.crc) (hen : b.ringEn = true) :
    b.frameDiscard rx crc false = b.count (if rx.ringB then CRC_ERR_B else CRC_ERR_A) 1 := by
  simp [Body.frameDiscard, hen, hc]

theorem frameDiscard_reserved {b : Body} {begun : Bool} (h : rx.frame.type = 0 ∨ 13 ≤ rx.frame.type.toNat) (hen : b.ringEn = true) :
    b.frameDiscard rx rx.frame.crc begun = b.count FRAME_DROP 1 := by
  have ht : rx.frame.type.toNat = 0 ∨ 13 ≤ rx.frame.type.toNat := h.imp_left fun h => by rw [h]; rfl
  simp [Body.frameDiscard, hen, ht]
end

end Sys2Proof.Machine
end

section
/-! O22, clause by clause. -/

namespace Sys2Proof.Machine

/-- Settles O22: what each function makes of the body, in the terms of the registers. -/
theorem ringTimeTransferAndControl : Obligations.RingTimeTransferAndControl := by
  refine ⟨fun rx s => ?_, fun ringB v s => ?_⟩
  · intro b c f stamp term lhId ingress arrival paced off corr slip foreign fromLh new forwarded
    have hslip : b.phaseSlips c (rx.typed 1) = true ↔ slip := typed_slips_iff b c
    have hnoslip : ¬ slip → b.phaseSlips c (rx.typed 1) = false := fun h => Bool.eq_false_iff.2 fun h' => h (hslip.1 h')
    have hoff : b.timeOffset c (rx.typed 1) = off := typed_offset b c
    have hmine : fromLh → b.fromMyLh (rx.typed 1).frame := fun ⟨⟨h1, h2, h3⟩, h4, h5, _, h6, h7⟩ => ⟨h1, h2, h4, h5, term_eq h3, h6, src_eq h7⟩
    have hpass : ∀ u, b.passedOn c (rx.typed 1) u → ∀ t : State, t.body.ring.txA = u.ring.txA → t.body.ring.txB = u.ring.txB → forwarded t :=
      fun u h t hA hB h3 hr => by
        obtain ⟨k1, k2⟩ := h h3 hr
        rw [hA, hB, k1, k2, ingress_eq]
        exact ⟨rfl, rfl⟩
    have hpace : b.servoPace c = true ↔ paced := servoPace_iff
    refine ⟨?_, ?_, ?_, ?_, ?_, ?_, ?_, ?_, ?_, ?_, ?_, ?_⟩
    · rintro ⟨hf, hn⟩ hB hh hb hs ho
      obtain ⟨u, hu, he⟩ := timeHeard_uses (hmine hf) rfl hf.2.2.2.1 hn hB hh
      obtain ⟨h1, h2, h3, h4⟩ := useTime_shows (u := u) (c := c) (x := b.timeCopy c (rx.typed 1) c.cyc) (hnoslip hs)
        (show (b.timeOffset c (rx.typed 1)).natAbs ≤ 16000 by rw [hoff]; exact ho) ((hu.rbit _ _).trans hb)
      obtain ⟨k1, k2, k3⟩ := hu.ring
      refine ⟨_, next_body_congr (exec_timeFrame rx s) he, rfl, ?_, ?_, ?_, ?_, ?_, ?_⟩
      · rw [← hoff]; exact h1
      · rw [← hoff, ← fld_eq_extract]
        exact h2.trans (by rw [hu.rfld]; rfl)
      · rw [← hoff]
        exact (congrArg RingSt.offs h3).trans (by rw [k1]; rfl)
      · exact (congrArg RingSt.lastLh h3).trans k3
      · exact hpass u hu.passed _ ((congrArg RingSt.txA h3).trans rfl) ((congrArg RingSt.txB h3).trans rfl)
      · exact fun j hj => (h4 j hj).trans (hu.rget j)
    · rintro ⟨hf, hn⟩ hB hh hs
      obtain ⟨u, hu, he⟩ := timeHeard_uses (hmine hf) rfl hf.2.2.2.1 hn hB hh
      obtain ⟨h1, h2, h3, h4⟩ := useTime_breaks u c (b.timeCopy c (rx.typed 1) c.cyc)
        (hs.imp hslip.2 fun h => (show 16000 < (b.timeOffset c (rx.typed 1)).natAbs by rw [hoff]; exact h))
      refine ⟨_, next_body_congr (exec_timeFrame rx s) he, rfl, h2, fun h => h3 (hslip.2 h), fun h => h4 ?_, ?_, ?_⟩
      · show 16000 < (b.timeOffset c (rx.typed 1)).natAbs
        rw [hoff]; exact h
      · exact (congrArg RingSt.offs h1).trans hu.ring.1
      · exact hpass u hu.passed _ (congrArg RingSt.txA h1) (congrArg RingSt.txB h1)
    · rintro ⟨hf, hn⟩ ho
      have hw : ¬ ((rx.typed 1).frame.hops = 0 ∧ (rx.typed 1).ringB = false) := fun ⟨h1, h2⟩ =>
        ho.elim (fun h => by rw [show rx.ringB = false from h2] at h; cases h) fun h => h h1
      obtain ⟨u, hu, he⟩ := timeHeard_holds (hmine hf) rfl hf.2.2.2.1 hn hw
      exact ⟨_, b.timeCopy c (rx.typed 1) c.cyc, next_body_congr (exec_timeFrame rx s) he, rfl, fun j _ => hu.rget j, rfl, hoff, rfl, rfl, hslip,
        hu.ring.1, hpass u hu.passed _ rfl rfl⟩
    · intro h hf hn hx h1 h2 h3 h4 hb mine used hs ho
      have ht : (b.timeCopy c (rx.typed 1) c.cyc).twin h = true := timeCopy_twin h4 h1 h2 h3
      obtain ⟨u, hu, he⟩ := timeHeard_twin (hmine hf) rfl hf.2.2.2.1 hn hx ht
      have hbet : (b.timeCopy c (rx.typed 1) c.cyc).better h = if mine then b.timeCopy c (rx.typed 1) c.cyc else h := rfl
      have k1 : ((b.timeCopy c (rx.typed 1) c.cyc).better h).off = used := by
        rw [hbet, apply_ite HeldTime.off]
        exact congrArg (fun x => if mine then x else h.off) hoff
      have k2 : ((b.timeCopy c (rx.typed 1) c.cyc).better h).slip = false := by
        rw [hbet]
        by_cases hm : mine
        · rw [if_pos hm]; exact hnoslip ((if_pos hm).mp hs)
        · rw [if_neg hm]; exact (if_neg hm).mp hs
      obtain ⟨u1, u2, u3, u4⟩ := useTime_shows (u := { u with ring := { u.ring with timeHeld := [] } }) (c := c) k2 (by rw [k1]; exact ho)
        ((hu.rbit _ _).trans hb)
      rw [k1] at u1 u3
      refine ⟨_, next_body_congr (exec_timeFrame rx s) he, rfl, ?_, u1, ?_, fun j hj => (u4 j hj).trans (hu.rget j)⟩
      · exact congrArg RingSt.timeHeld u3
      · exact (congrArg RingSt.offs u3).trans (by rw [hu.ring.1])
    · rintro ⟨h1, h2, h3⟩
      exact ⟨_, rfl, exec_delayReq h1 h2 (term_eq h3)⟩
    · rintro dep ⟨h1, h2, h3⟩ hB hreq
      exact ⟨_, exec_delayResp h1 h2 (term_eq h3), rfl, delayResp_frame (rx := rx.typed 3) hB hreq⟩
    · intro d a hen hsrc hB hd ha
      obtain ⟨h1, h2, h3, h4⟩ := loopReturn_shows (rx := rx.typed 4) (c := c) hB hd ha
      exact ⟨_, exec_loopFrame_own hen hsrc, rfl, h1, h2, h3, h4⟩
    · rintro ⟨h1, h2, h3⟩ hb hd hh
      exact exec_loopFrame_passes h1 h2 (term_eq h3) hb hd hh
    · intro hon hp hl h6 hb ho
      obtain ⟨h1, h2, h3, h4⟩ := servoStage_shows hon (hpace.2 hp) (Bool.eq_false_iff.2 fun h => hl (actingLh_iff.1 h)) h6 hb ho
      exact ⟨_, _, rfl, h1, h2, h3, h4, fun hd => servoInc_deadband (by rw [Body.rfld, fld_eq_extract]; exact hd)⟩
    · intro h
      exact nextBody_fixed (servoStage_waits (h.imp_right (Or.imp_right (Or.imp_right (mt hpace.1)))))
    · intro crc hc hen
      exact sets_count (nextBody_to (frameDiscard_crc hc hen))
    · intro h hen begun
      exact sets_count (nextBody_to (frameDiscard_reserved h hen))
  · intro b c ctl i
    have hi : i = if ringB then 1 else 0 := rfl
    have hj : 1 - i = if ringB then 0 else 1 := by rw [hi]; cases ringB <;> rfl
    refine ⟨?_, ?_, ?_, ?_, ?_, ?_, ?_, ?_, ?_, ?_, ?_⟩
    · intro hen
      exact ⟨_, rfl, rfl, linkUp_shows b c ringB hen⟩
    · intro hen
      rw [hj]
      exact ⟨_, rfl, rfl, ringBreak_shows b c ringB hen⟩
    · intro hen
      exact ⟨nextBody_fixed (if_pos (by rw [hen]; rfl)), nextBody_fixed (if_pos (by rw [hen]; rfl))⟩
    · intro h3 hA hB h0 ht hf
      have he := unwrap_ready h3 hA hB h0 ht hf
      exact ⟨fun hg => ⟨_, nextBody_to (he.trans (if_neg (by rw [hg]; decide))), unwrapNow_unwraps⟩, fun hg => nextBody_to (he.trans (if_pos hg))⟩
    · intro h
      exact nextBody_fixed (unwrap_waits h)
    · intro h0 hm hu hd
      exact ⟨_, rfl, rfl, asymConfirm_uses h0 hm hu hd⟩
    · intro h0 hm
      obtain ⟨h1, h2, _⟩ := ringReject_shows b c
      exact ⟨_, nextBody_to (asymConfirm_mismatch h0 hm), h1, h2⟩
    · intro hr h6 h9 hen
      have hr1 : fld v 4 2 = 1 := (fld_eq_extract _ _ _).trans (congrArg BitVec.toNat hr)
      obtain ⟨h1, h2, h3, h4, h5⟩ := writeRingCtl_opens (c := c) hr1 h6 h9 hen
      exact ⟨_, rfl, h1, h2, h3, extract_eq_of_fld (h4.trans (fld_eq_extract _ _ _)), h5⟩
    · intro hr
      have hr3 : fld v 4 2 = 3 := (fld_eq_extract _ _ _).trans (congrArg BitVec.toNat hr)
      obtain ⟨h1, _, h3⟩ := ringReject_shows b c
      exact ⟨_, nextBody_to (writeRingCtl_refused hr3), h1, h3⟩
    · intro hv hr h9
      have hr3 : fld ctl 4 2 ≠ 3 := fun h => hr (extract_eq_of_fld h)
      exact ⟨_, rfl, rfl, writeRingCtl_remeasures hv hr3 h9⟩
    · intro hen hrole h4 ht ha hb
      obtain ⟨r, g, he⟩ := lhSilent_takes (c := c) hen hrole h4 (by rw [Body.rfld, fld_eq_extract, Nat.mul_comm]; exact ht) ha hb
      obtain ⟨k4, k9, k24, k20⟩ := tookOver_shows (b := b) (c := c)
      refine ⟨_, nextBody_to he, rfl, k4, k9, extract_eq_of_fld (k24.trans ?_), extract_eq_of_fld (k20.trans (fld_eq_extract _ _ _))⟩
      rw [Body.rfld, fld_eq_extract, BitVec.toNat_add]
      rfl

end Sys2Proof.Machine
end
